-- ==== Sys2Proof/Word.lean ====
section
/-! DEFINITION. The words of the DV9840's interfaces and their plainest arithmetic. Multi-byte fields are
little-endian unless a table says otherwise (R7). -/
namespace Sys2Proof

/-- One byte of a memory, a message or a record. -/
abbrev Byte := BitVec 8
/-- One 32-bit word of the register and table map (R495). -/
abbrev Word := BitVec 32

/-- The sum of two counters that saturates at `lim`. -/
def satAdd (lim a b : Nat) : Nat := min lim (a + b)

/-- `x` clamped to the range from `lo` to `hi`. -/
def clampInt (lo hi x : Int) : Int := max lo (min hi x)

/-- `x` clamped to the range from `0` to `hi`, as a natural number. -/
def clampNat (hi : Nat) (x : Int) : Nat := min hi x.toNat

/-- The least integer not below `a / b`. -/
def ceilDiv (a b : Nat) : Nat := (a + b - 1) / b

/-- The integer nearest to `a / b`, halves upward. -/
def roundDiv (a b : Nat) : Nat := (2 * a + b) / (2 * b)

/-- The integer nearest to a rational, halves away from zero (R211; DEDUCED elsewhere, notes/assumptions/35.md). -/
def roundRat (q : Rat) : Int := if 0 ≤ q then (q + 1 / 2).floor else -((1 / 2 - q).floor)

/-- The low `w` bits of an integer in two's complement, as a natural number. -/
def wrapInt (w : Nat) (x : Int) : Nat := (x % (2 ^ w : Int)).toNat

/-- The signed value of the low `w` bits of `x`. -/
def signedOf (w x : Nat) : Int :=
  if x % 2 ^ w < 2 ^ (w - 1) then ((x % 2 ^ w : Nat) : Int) else ((x % 2 ^ w : Nat) : Int) - (2 ^ w : Int)

/-- Who sends an access: the internal paths, the SPI port, PCIe BAR0, an Ethernet session, or an ingot (R437). -/
inductive PathId where
  | internal | spi | bar0 | eth (session : Fin 4) | ingot
  deriving DecidableEq, Repr

/-- The format a capture signal carries (R266, R269, R287): size, interlace, sampling, depth, colour code, full range,
transfer code, RATE code, square division of a quad link (R272), and whether an SDI signal carries a payload identifier (R273). -/
structure CapFormat where
  w : Nat := 0
  h : Nat := 0
  interlaced : Bool := false
  sampling : Nat := 0
  depth : Nat := 0
  color : Nat := 0
  full : Bool := false
  transfer : Nat := 0
  rate : Nat := 0
  square : Bool := false
  pid : Bool := true
  deriving DecidableEq, Repr

/-- The ATC timecodes of a frame (R273), each absent or BCD. -/
structure Timecodes where
  vitc : Option Nat
  ltc : Option Nat
  deriving DecidableEq, Repr

/-- What the SFDP tables of the flash declare (R290): the density in bytes, the modes beside 1-1-1 (bit 0: 1-4-4, bit 1: 4-4-4,
bit 2: 8D-8D-8D), the page size, and the sizes of the erase types. -/
structure Sfdp where
  density : Nat
  modes : Nat
  page : Nat
  erases : List Nat
  deriving DecidableEq, Repr

/-- What a photodiode's monitor reports (R113): the reading, and the sensed currents of the strings. -/
structure PdReading where
  code : Nat
  senses : List Nat
  deriving DecidableEq, Repr

/-- What trips the latch (R406): the source and, where one is concerned, the string with the code sensed. -/
structure TripCause where
  src : Fin 12
  string : Fin 24
  sense : Nat
  deriving DecidableEq, Repr

end Sys2Proof
end

