-- ==== Sys2Proof/Syntax.lean ====
section
/-! DEFINITION. The commands of the DV9840: one constructor per row of the table of operations and events, with the
operands the outside world or a unit of the part supplies (notes/assumptions/9.md). -/
namespace Sys2Proof

/-- A command, in the order of the table. `o` is an output, `path` the path of an access, `v` a register value. -/
inductive Instr where
  | eventPost (o : Fin 4) (cls idx fire fine payload : Nat)
  | eventFire (o : Fin 4) (twinOk : Bool)
  | slackClear (path : PathId) (v : Word)
  | tbTickLoRead (path : PathId)
  | frameCntLoRead (path : PathId) (o : Fin 4)
  | ptpOfsLoRead (path : PathId)
  | tbReferenceSample (err : Int)
  | tbRefLost
  | tbHoldoverExit
  | tbLocked
  | frameBoundary (o : Fin 4)
  | frameHeadPost (o : Fin 4)
  | compositionStart (o : Fin 4)
  | waitAllReady (o : Fin 4)
  | waitRepeat (o : Fin 4)
  | binningDone (o : Fin 4)
  | sprueSpill (queue : Nat) (ok : Bool)
  | tileDispatch (engine : Fin 16)
  | tileCommit (engine : Fin 16) (refillOk : Bool) (stall : Nat)
  | composeLate (o : Fin 4)
  | composeFault (engine : Fin 16) (frag : Nat)
  | composeRecovered (o : Fin 4)
  | layerPresent (path : PathId) (v : Word)
  | warpTileStart (o : Fin 4) (tile : Nat)
  | encodeComplete (o : Fin 4)
  | lsWrite (path : PathId) (addr : Nat) (v : Word)
  | registerWrite (path : PathId) (addr : Nat) (v : Word)
  | evtReadWrite (path : PathId) (v : Word)
  | ladlePourRequest (path : PathId) (v : Word)
  | ladlePourCancel (path : PathId)
  | pourChecksDone
  | pourCommit (corrupt : Fin 8)
  | ladleCopyDone
  | tgRestart (o : Fin 4)
  | disableDone (k : Nat)
  | genlockReference (o : Fin 4) (instant : Nat)
  | tgRefLost (o : Fin 4)
  | rlvMessageReceive (bytes : List Byte) (arrival : Nat)
  | rlvForward (bytes : List Byte)
  | rlvTimeSend
  | rlvMarkSend (o : Fin 4) (slot : Nat)
  | rlvLost
  | loadStart (o : Fin 4)
  | loadDone (o : Fin 4)
  | loadLate (o : Fin 4)
  | bchFrameReceive (o : Fin 4) (bytes : List Byte)
  | bchSilence (o : Fin 4)
  | bringupStepTimeout (o : Fin 4)
  | bringupRestart (o : Fin 4)
  | commandEchoTimeout (o : Fin 4)
  | linkDownTimeout (o : Fin 4)
  | portCmdStatusReq (path : PathId) (o : Fin 4) (kind : Nat)
  | portCmdTestPattern (path : PathId) (o : Fin 4) (arg : Nat)
  | fastAxisCapture (o : Fin 4)
  | scanLockTimeout (o : Fin 4)
  | fastAxisCrossing (o : Fin 4) (t : Nat) (peak : Nat)
  | fastStop (o : Fin 4)
  | slowStallWindow (o : Fin 4) (mean : Nat)
  | scanSample (o : Fin 4) (filled : Nat)
  | scanLineEnd (o : Fin 4)
  | jesdUp (o : Fin 4)
  | jesdDown (o : Fin 4)
  | jesdSyncError (o : Fin 4)
  | pdSample (k : Fin 8) (code : Nat)
  | pdFault (k : Fin 8) (reading : PdReading)
  | pdFaultClear (path : PathId) (v : Word)
  | measurementWindowEnd (nn : Fin 24) (isns vhr vk : List Nat)
  | stringOvercurrent (nn : Fin 24) (sense : Nat)
  | stringOverlimit (nn : Fin 24) (sense : Nat)
  | stringFailClear (path : PathId) (nn : Fin 24)
  | headroomLow (nn : Fin 24) (vk : Nat)
  | lampBoardTempUpdate (b : Fin 6)
  | stringAdmit
  | stringReady (nn : Fin 24)
  | stringRampTimeout (nn : Fin 24)
  | captureFrameStart (i : Fin 8) (fmt : CapFormat) (tRef fine : Nat) (tc : Timecodes) (rtp : Nat) (metas : Option (Nat × Nat))
  | captureFrameComplete (i : Fin 8) (skew : Bool) (words : List Nat)
  | capSignalLost (i : Fin 8)
  | ethPacketReceive (i : Fin 8) (net : Fin 2) (seq : Nat) (words : List Nat)
  | capPktLoss (i : Fin 8)
  | capPathLost (i : Fin 8) (net : Fin 2)
  | ptpMessage (offset : Int) (domain : Nat)
  | ptpLost
  | ethArpIcmp (net : Fin 2) (bytes : List Byte)
  | dpAuxRequest (i : Fin 2) (write i2c : Bool) (addr : Nat) (bytes : List Byte) (len : Nat)
  | hostAccessErr (addr size : Nat) (write : Bool)
  | bar2Write (addr : Nat) (bytes : List Byte)
  | bar2Read (addr len : Nat)
  | bar2Atomic (addr : Nat)
  | pcieReset
  | hbmFspDrained
  | hbmFspDone
  | hbmRetrainStart
  | hbmTrainSlot
  | hbmTrainCommit (within : Bool)
  | hbmTrainRetry
  | hbmTempRead (temp : Int)
  | hbmRefresh (h : Fin 16)
  | hbmRefreshDone (h : Fin 16)
  | hbmTransaction (runner engine : Fin 16) (addr : Nat) (write : Bool) (data : List Byte) (ecc parity : Nat)
  | hbmSrEnter
  | hbmSrExit (pattern train : Bool)
  | runnerRequest (r h : Fin 16)
  | runnerRelease (r h : Fin 16)
  | hbmTokenWaitEnd
  | lockRequest (r h : Fin 16) (waits : Bool) (count : Nat)
  | lockCommit (r : Fin 16) (addr : Nat) (data : List Byte) (parity : Nat)
  | runnerReset (r : Fin 16)
  | waitCycle (members : List (Fin 16))
  | lockRollback
  | surfCmdMap (path : PathId) (sf : Fin 4096)
  | surfMapped
  | surfCmdFree (path : PathId) (sf : Fin 4096)
  | surfCmdBadOp (path : PathId) (v : Word)
  | surfRevokeDone (sf : Fin 4096)
  | surfReclaimStart (sf : Fin 4096)
  | surfReclaimed (sf : Fin 4096)
  | tlbMiss (sf : Fin 4096) (offset : Nat) (runner engine : Fin 16) (write : Bool) (o : Fin 4) (layer : Fin 128) (queue frag : Nat)
  | tlbWalkDone (k : Nat) (poison : Bool)
  | sensorConversion (counts : List (Nat × Nat))
  | temperLevelStep
  | sensorFailHoldEnd
  | extConversion (x : Fin 12) (code : Nat) (bad : Fin 4)
  | journalWriteDone
  | flashWriteWaitTimeout
  | droopSample (sensor : Fin 64) (count : Nat)
  | droopClear
  | domainWakeRequest (d : Fin 26)
  | domainWakeAdmit
  | domainUsable (d : Fin 26)
  | domainSleep (d : Fin 26)
  | annCtrlStart (path : PathId) (v : Word)
  | annCtrlAbort (path : PathId)
  | annealStepsBegin
  | annealPointDone (values : List Int)
  | annealCheckDone (darks : List Nat) (again : Int)
  | annealPourWaitTimeout
  | calBlockWriteDone
  | dowserChange (level : Bool)
  | zoneSigCheck
  | ilkInputChange (a b : Bool)
  | ilkDiscrepancy
  | quenchNInput (low : Bool)
  | quenchTrip (cause : TripCause)
  | guardCmdQuench (path : PathId)
  | guardCmdRelease (path : PathId)
  | quenchAutoRelease
  | coreLost (vcoreLow : Bool)
  | kdmSubmit (path : PathId)
  | kdmDiscard (path : PathId) (keyId : Nat)
  | kdmPurge (path : PathId)
  | sealHostBind (path : PathId) (v : Word)
  | drbgReseed (healthy : Bool)
  | crucMonitorTrip (m : Fin 5)
  | crucResume
  | sessionHello (path : PathId) (peer port : Nat) (bytes : List Byte)
  | sessionFinish (path : PathId) (bytes : List Byte)
  | sessionStepTimeout
  | sessionRequest (session : Fin 4) (seq : Nat) (body mac : List Byte)
  | sessionResend (session : Fin 4) (seq : Nat) (body mac : List Byte)
  | sessionClose (session : Fin 4) (seq : Nat) (mac : List Byte)
  | sessionTimeout (session : Fin 4)
  | mgmtRead (path : PathId) (addr count : Nat)
  | mgmtWrite (path : PathId) (addr : Nat) (words : List Word)
  | mgmtPour (path : PathId) (v : Word) (target : Nat)
  | ingotBegin (path : PathId) (length : Nat)
  | ingotEraseDone
  | ingotData (path : PathId) (ofs : Nat) (bytes : List Byte)
  | ingotCommit (path : PathId)
  | ingotApply (path : PathId)
  | mgmtTime (path : PathId) (ns : Nat)
  | revoke (path : PathId) (slot : Nat)
  | provision (path : PathId) (slot : Nat) (key : List Byte)
  | spiWriteFrame (bytes : List Byte)
  | spiReadFrame (bytes : List Byte) (ready : Bool)
  | spiStatusFrame
  | vauxRise
  | resetNAssert
  | dawnSuppliesValid (romFuseOk rngOk : Bool)
  | dawnSupplyTimeout
  | dawnLanesDone (sfdpOk : Bool) (sfdp : Sfdp) (fspPass : Fin 16) (eeproms : List (Option (List Byte)))
  | dawnDone
  | pwrfailNFall
  | pwrfailNHighTimeout
  | vauxLow
  | modeCmdShow (path : PathId) (outs : Fin 16)
  | modeCmdStandby (path : PathId) (outs : Fin 16)
  | modeCmdDusk (path : PathId)
  | modeCmdRestart (path : PathId)
  | entryTimeout (o : Fin 4)
  | duskFlashTimeout
  | duskDone
  | vcoreReturn
  | heldRequestTimeout (o : Fin 4)
  | signalChangeMidFrame (i : Fin 8)
  | syncNHigh (o : Fin 4)
  | hpdPulseEnd (i : Fin 2)
  deriving DecidableEq, Repr

end Sys2Proof
end

