-- ==== Sys2Proof/Machine/Numeric.lean ====
section
/-! DEFINITION. Arithmetic that the manual's formulas need beyond the integers: exact rationals, rounding with ties away
from zero (R211), and logarithm, exponential, powers, sine and arcsine in fixed point with 96 fractional bits
(DEDUCED, notes/assumptions/21.md: the manual gives the real-valued formula, and the error here lies far below half
a unit of every rounded result). -/
namespace Sys2Proof.Machine

/-- The nearest integer, ties away from zero (R211). -/
def roundAway (q : Rat) : Int := if 0 ≤ q then (q + 1 / 2).floor else -((-q + 1 / 2).floor)
/-- `a / b` to the nearest integer, ties away from zero, for `b > 0`. -/
def divAway (a : Int) (b : Nat) : Int := if 0 ≤ a then (2 * a + b) / (2 * b) else -((2 * (-a) + b) / (2 * b))
/-- A value limited to 16 bits (R211). -/
def clamp16 (x : Int) : Nat := clampNat 65535 x

/-! ### Many steps of a map that is affine over bits, such as a shift register with XOR feedback -/

/-- The exclusive or of a list's elements where a number's bits are set, from a start value. -/
def xorWhere (c : Nat) : List Nat → Nat → Nat
  | [], _ => c
  | v :: r, x => xorWhere (if x % 2 = 1 then c ^^^ v else c) r (x / 2)
/-- An affine map of bits: the images' differences of the unit vectors, and the image of 0. -/
abbrev BitMap := List Nat × Nat
def BitMap.app (f : BitMap) (x : Nat) : Nat := xorWhere f.2 f.1 x
/-- The affine map of width `w` that a function is. -/
def BitMap.of (w : Nat) (f : Nat → Nat) : BitMap := ((List.range w).map fun i => f (2 ^ i) ^^^ f 0, f 0)
/-- The map that applies `g` and then `f`. -/
def BitMap.comp (f g : BitMap) : BitMap := (g.1.map fun v => f.app v ^^^ f.2, f.app g.2)
/-- A map applied `n` times, by repeated squaring within 64 doublings. -/
def BitMap.pow (f : BitMap) (w : Nat) : Nat → Nat → BitMap
  | 0, _ => BitMap.of w id
  | k + 1, n => if n = 0 then BitMap.of w id else
      let h := BitMap.pow (f.comp f) w k (n / 2)
      if n % 2 = 1 then h.comp f else h
/-- A function of `w` bits that is affine over them, applied `n` times. -/
def affineIter (w : Nat) (f : Nat → Nat) (n : Nat) : Nat → Nat := (BitMap.pow (BitMap.of w f) w 64 n).app

/-- 1.0 in fixed point. -/
def fxOne : Int := 2 ^ 96
/-- A rational in fixed point, rounded down. -/
def fxOf (q : Rat) : Int := (q * 2 ^ 96).floor
/-- A fixed-point value as a rational. -/
def fxRat (x : Int) : Rat := (x : Rat) / 2 ^ 96
def fxMul (a b : Int) : Int := a * b / 2 ^ 96

/-- The series of atanh z: z + z³/3 + z⁵/5 + … -/
def atanhSeries (z2 : Int) : Nat → Nat → Int → Int
  | 0, _, _ => 0
  | n + 1, k, p => p / (2 * k + 1) + atanhSeries z2 n (k + 1) (fxMul p z2)
/-- ln m for m in [1, 2] in fixed point. -/
def fxLnUnit (m : Int) : Int :=
  let z := (m - fxOne) * 2 ^ 96 / (m + fxOne)
  2 * atanhSeries (fxMul z z) 44 0 z
/-- ln 2 in fixed point. -/
def fxLn2 : Int := fxLnUnit (2 * fxOne)
/-- ln x for a positive fixed-point x. -/
def fxLn (x : Int) : Int :=
  let e : Int := (Nat.log2 x.toNat : Int) - 96
  let m := if 0 ≤ e then x / 2 ^ e.toNat else x * 2 ^ (-e).toNat
  fxLnUnit m + e * fxLn2
/-- The series 1 + r/1! + r²/2! + … -/
def expSeries (r : Int) : Nat → Nat → Int → Int
  | 0, _, _ => 0
  | n + 1, k, p => p + expSeries r n (k + 1) (fxMul p r / (k + 1))
/-- e^y in fixed point. -/
def fxExp (y : Int) : Int :=
  let n := y / fxLn2
  let r := y - n * fxLn2
  let v := expSeries r 44 0 fxOne
  if 0 ≤ n then v * 2 ^ n.toNat else v / 2 ^ (-n).toNat
/-- x^p for a rational x ≥ 0 and a rational p > 0. -/
def ratPow (x p : Rat) : Rat := if x ≤ 0 then 0 else fxRat (fxExp (fxMul (fxOf p) (fxLn (fxOf x))))
/-- e^x. -/
def ratExp (x : Rat) : Rat := fxRat (fxExp (fxOf x))
/-- The natural logarithm of a positive rational. -/
def ratLn (x : Rat) : Rat := fxRat (fxLn (fxOf x))

/-- The Taylor series of the sine. -/
def sinSeries (x2 : Int) : Nat → Nat → Int → Int
  | 0, _, _ => 0
  | n + 1, k, p => p - sinSeries x2 n (k + 2) (fxMul p x2 / ((k + 1) * (k + 2)))
/-- The sine of a fixed-point angle in radians of magnitude at most 4. -/
def fxSin (x : Int) : Int := sinSeries (fxMul x x) 30 1 x
/-- The series of the arctangent. -/
def atanSeries (z2 : Int) : Nat → Nat → Int → Int
  | 0, _, _ => 0
  | n + 1, k, p => p / (2 * k + 1) - atanSeries z2 n (k + 1) (fxMul p z2)
/-- π in fixed point, by Machin's formula. -/
def fxPi : Int :=
  let at_ := fun (d : Int) => let z := fxOne / d; atanSeries (fxMul z z) 72 0 z
  16 * at_ 5 - 4 * at_ 239
/-- The square root of a fixed-point value. -/
def fxSqrt (x : Int) : Int := (Nat.sqrt (x.toNat * 2 ^ 96) : Int)
/-- arctan z, for z in [0, 1], halving the argument three times. -/
def fxAtan (z : Int) : Int :=
  let h := fun (t : Int) => t * 2 ^ 96 / (fxOne + fxSqrt (fxOne + fxMul t t))
  let t := h (h (h z))
  8 * atanSeries (fxMul t t) 40 0 t
/-- arcsin x, for x in [-1, 1]. -/
def fxAsin (x : Int) : Int :=
  let a := |x|
  let r :=
    if a ≥ fxOne then fxPi / 2
    else
      let c := fxSqrt (fxOne - fxMul a a)
      if a ≤ c then fxAtan (a * 2 ^ 96 / c) else fxPi / 2 - fxAtan (c * 2 ^ 96 / a)
  if 0 ≤ x then r else -r

end Sys2Proof.Machine
end

