-- ==== Sys2Proof/Config.lean ====
section
/-! DEFINITION. What the manual leaves open or keeps in the part's ROM: free values. Each is an opaque constant,
so that no proof can rest on a number for it (notes/assumptions/7.md). -/
namespace Sys2Proof.Config

/-- A free value drawn at a step: the second argument is the model's own counter, the first names the quantity. -/
opaque freeNat : Nat → Nat → Nat
/-- The disciplining loop's demanded correction, in units of 2^-14 ppm: the manual bounds its slew, not its law (R68). -/
opaque tbServo : Int → Int → Nat → Int
/-- The PTP servo's offset from the offset in force and the estimate of a Sync, in ns: law not stated (R66, R280). -/
opaque ptpServo : Int → Int → Int
/-- The ROM dither tile's threshold at phase, y, x (R54): the manual does not list it. -/
opaque ditherRom : Nat → Nat → Nat → BitVec 16
/-- The ROM scaler coefficient table's word at a byte offset (R212): the manual does not list it. -/
opaque scalerRom : Nat → BitVec 32
/-- Words of the built-in EDID of a DisplayPort receiver (R276). -/
opaque edidRom : Nat → BitVec 8
/-- The byte offset, in a host surface, of the source pixel at column x and row y, from the surface's size and the
format's bits per pixel: the manual gives a host surface no row length (R186, R206). -/
opaque hostPixelOffset : Nat → Nat → Nat → Nat → Nat
/-- The trim code a step to a command starts from, out of the feed-forward codes learned for the string at the amplitudes A_k (R94): the
manual states no rule between the amplitudes, nor for a string without codes. -/
opaque trimStart : List Nat → Nat → BitVec 14
/-- SHA-384 over a byte string (FIPS 180-4). -/
opaque sha384 : List (BitVec 8) → List (BitVec 8)
/-- HMAC-SHA-256 of a message under a key (FIPS 198-1). -/
opaque hmac256 : List (BitVec 8) → List (BitVec 8) → List (BitVec 8)
/-- HKDF-SHA-384 from salt, input key, information and length (RFC 5869). -/
opaque hkdf384 : List (BitVec 8) → List (BitVec 8) → List (BitVec 8) → Nat → List (BitVec 8)
/-- ECDSA P-384 verification of a signature by a public key over a message. -/
opaque ecdsaVerify : List (BitVec 8) → List (BitVec 8) → List (BitVec 8) → Bool
/-- The device's ECDSA P-384 signature over a message. -/
opaque ecdsaSign : List (BitVec 8) → List (BitVec 8)
/-- The shared secret of an ECDH P-384 exchange: own seed and the other's public point. -/
opaque ecdh : Nat → List (BitVec 8) → List (BitVec 8)
/-- The public point of an ephemeral key made from a seed. -/
opaque ecPublic : Nat → List (BitVec 8)
/-- AES-256 counter-mode key stream block: key, counter block. -/
opaque aes256Block : List (BitVec 8) → List (BitVec 8) → List (BitVec 8)
/-- AES-256 key unwrap (RFC 3394): key-encryption key and wrapped key, none on an integrity failure. -/
opaque aesUnwrap : List (BitVec 8) → List (BitVec 8) → Option (List (BitVec 8))
/-- The state bytes of a key table entry, from whether a key is held and whether it is valid (R443): the manual gives no codes. -/
opaque keyState : Bool → Bool → Nat
/-- The shared secret of an ECDH P-384 exchange with the device's own key (R419, R430). -/
opaque ecdhDevice : List (BitVec 8) → List (BitVec 8)

end Sys2Proof.Config
end

