-- ==== Sys2Proof/Machine/Sparse.lean ====
section
/-! DEFINITION. Sparse memories: lists of (address, value) pairs with strictly rising addresses, in which no entry
equals what an unlisted address reads as. Equal memories are equal lists. -/
namespace Sys2Proof.Machine

/-- What address `k` of a sparse memory holds; `d k` where nothing is listed. -/
def Sparse.get {α : Type} (d : Nat → α) : List (Nat × α) → Nat → α
  | [], k => d k
  | (a, v) :: r, k => if a = k then v else Sparse.get d r k

/-- Insert or replace the entry of `k` in a rising list. -/
def Sparse.put {α : Type} : List (Nat × α) → Nat → α → List (Nat × α)
  | [], k, v => [(k, v)]
  | (a, w) :: r, k, v =>
    if k < a then (k, v) :: (a, w) :: r
    else if k = a then (k, v) :: r
    else (a, w) :: Sparse.put r k v

/-- Remove the entry of `k`. -/
def Sparse.drop {α : Type} : List (Nat × α) → Nat → List (Nat × α)
  | [], _ => []
  | (a, w) :: r, k => if a = k then r else (a, w) :: Sparse.drop r k

/-- Write `v` at `k`: writing the default removes the entry. -/
def Sparse.set {α : Type} [DecidableEq α] (d : Nat → α) (m : List (Nat × α)) (k : Nat) (v : α) : List (Nat × α) :=
  if v = d k then Sparse.drop m k else Sparse.put m k v

/-- Every address of `m` lies above `lo`, the addresses rise, and no entry equals the default. -/
def Sparse.okAbove {α : Type} [DecidableEq α] (d : Nat → α) : Option Nat → List (Nat × α) → Bool
  | _, [] => true
  | lo, (a, v) :: r => (match lo with | none => true | some l => decide (l < a)) && decide (v ≠ d a) && Sparse.okAbove d (some a) r

/-- The canonical form of a sparse memory. -/
def Sparse.wf {α : Type} [DecidableEq α] (d : Nat → α) (m : List (Nat × α)) : Bool := Sparse.okAbove d none m

/-- Write the values of a list at consecutive addresses with a stride. -/
def Sparse.setList {α : Type} [DecidableEq α] (d : Nat → α) (m : List (Nat × α)) (k stride : Nat) : List α → List (Nat × α)
  | [] => m
  | v :: r => Sparse.setList d (Sparse.set d m k v) (k + stride) stride r

/-- Return every address from `lo` below `hi` to the default. -/
def Sparse.clear {α : Type} (m : List (Nat × α)) (lo hi : Nat) : List (Nat × α) :=
  m.filter fun e => e.1 < lo || hi ≤ e.1

/-- The default byte of HBM3 and of the frame store before anything is written: 0 (DESIGN CHOICE, notes/assumptions/5.md). -/
def ramDefault (_ : Nat) : Byte := 0
/-- The default byte of the flash: erased, 0xFF (DESIGN CHOICE, notes/assumptions/6.md). -/
def flashDefault (_ : Nat) : Byte := 0xFF

/-- A byte memory. -/
abbrev Memory := List (Nat × Byte)

/-- The canonical form of a byte memory over its default byte. -/
def Memory.wf (d : Nat → Byte) (m : Memory) : Bool := Sparse.wf d m

/-- `n` consecutive bytes of a memory. -/
def Memory.bytes (d : Nat → Byte) (m : Memory) (a n : Nat) : List Byte :=
  (List.range n).map fun i => Sparse.get d m (a + i)

/-- The little-endian number that bytes spell (R7). -/
def leNat : List Byte → Nat
  | [] => 0
  | b :: r => b.toNat + 256 * leNat r

/-- `n` little-endian bytes of a number (R7). -/
def leBytes : Nat → Nat → List Byte
  | 0, _ => []
  | n + 1, x => BitVec.ofNat 8 x :: leBytes n (x / 256)

/-- The big-endian number that bytes spell. -/
def beNat (l : List Byte) : Nat := leNat l.reverse
/-- `n` big-endian bytes of a number. -/
def beBytes (n x : Nat) : List Byte := (leBytes n x).reverse

/-- A little-endian number of `n` bytes read from a memory. -/
def Memory.le (d : Nat → Byte) (m : Memory) (a n : Nat) : Nat := leNat (Memory.bytes d m a n)

/-- Store bytes from address `a` upward. -/
def Memory.store (d : Nat → Byte) (m : Memory) (a : Nat) (l : List Byte) : Memory := Sparse.setList d m a 1 l

/-- Bits `hi` down to `lo` of a number. -/
def nbits (x hi lo : Nat) : Nat := x / 2 ^ lo % 2 ^ (hi + 1 - lo)
/-- Bit `i` of a number. -/
def nbit (x i : Nat) : Bool := x / 2 ^ i % 2 == 1

/-! ### Check codes -/

/-- One reflected CRC step over a bit. -/
def crcReflBit (poly : Nat) (c : Nat) : Nat := if c % 2 = 1 then (c / 2) ^^^ poly else c / 2
/-- Eight reflected CRC steps: one byte enters, least significant bit first. -/
def crcReflByte (poly c : Nat) (b : Byte) : Nat :=
  let x := c ^^^ b.toNat
  crcReflBit poly (crcReflBit poly (crcReflBit poly (crcReflBit poly
    (crcReflBit poly (crcReflBit poly (crcReflBit poly (crcReflBit poly x)))))))

/-- CRC-32C (R517): polynomial 0x1EDC_6F41, reflected, initial value and final XOR 0xFFFF_FFFF. -/
def crc32c (l : List Byte) : Nat := l.foldl (crcReflByte 0x82F63B78) 0xFFFFFFFF ^^^ 0xFFFFFFFF
/-- CRC-32 of signatures (R396): polynomial 0x04C1_1DB7, reflected, initial value and final XOR 0xFFFF_FFFF. -/
def crc32 (l : List Byte) : Nat := l.foldl (crcReflByte 0xEDB88320) 0xFFFFFFFF ^^^ 0xFFFFFFFF

/-- One most-significant-first CRC step of width `w`. -/
def crcMsbStep (w poly c : Nat) (bit : Nat) : Nat :=
  let top := (c / 2 ^ (w - 1) % 2) ^^^ bit
  let c' := c * 2 % 2 ^ w
  if top = 1 then c' ^^^ poly else c'

/-- A most-significant-first CRC of width `w` over a list of bits. -/
def crcMsb (w poly init : Nat) (l : List Nat) : Nat := l.foldl (crcMsbStep w poly) init

/-- The bits of a number, most significant first. -/
def msbBits : Nat → Nat → List Nat
  | 0, _ => []
  | n + 1, x => x / 2 ^ n % 2 :: msbBits n x

/-- The bits of bytes, each most significant first. -/
def byteBits (l : List Byte) : List Nat := l.flatMap fun b => msbBits 8 b.toNat

/-- CRC-16 (R518): polynomial 0x1021, initial value 0xFFFF, not reflected, no final XOR. -/
def crc16 (l : List Byte) : Nat := crcMsb 16 0x1021 0xFFFF (byteBits l)

/-- A list whose element `i` is `v`, the others as they were. -/
def listSet {α : Type} (l : List α) (i : Nat) (v : α) : List α := l.set i v

/-- The element at `i` of a list, or `d`. -/
def nth {α : Type} (l : List α) (i : Nat) (d : α) : α := l.getD i d

end Sys2Proof.Machine
end

