-- ==== Sys2Proof/Machine/State.lean ====
section
/-! DEFINITION. The state of the DV9840 as plain data: every register, table, buffer, queue, mode and pin the manual
gives the part, each subsystem in a structure of its own, with the waiting commands in `pending`. -/
namespace Sys2Proof.Machine

/-- Why a step stops with a fault. The manual gives every command an effect, so none faults. -/
inductive Fault where
  /-- Raised by no command: the type needs a member. Safe. -/
  | unused
  deriving DecidableEq, Repr

/-- Why a command is refused by the model. -/
inductive Refusal where
  /-- Raised by an arm of `exec` whose command has no meaning yet. Safe: the machine stops. -/
  | notModelled (mnemonic : String)
  deriving DecidableEq, Repr

/-- A map of 32-bit words by byte address: registers and tables (R495). -/
abbrev WordMap := List (Nat × Word)

/-! ### Light sequence programs and the timebase -/

/-- A posted event (R20, R23, R71): class, index, resolved fire tick, fine offset, payload, slack at the acknowledge, its frame,
its place in the order of posting (R142), and whether it has left the core die for the drive die (R22). -/
structure Post where
  cls : Nat
  idx : Nat
  fire : Nat
  fine : Nat
  payload : Nat
  slack : Int
  frame : Nat
  ord : Nat := 0
  handed : Bool := false
  deriving DecidableEq, Repr

/-- The sequencer and the event queue of one output (R20 to R25, R71 to R90). -/
structure SeqState where
  queue : List Post := []
  waiting : Option Post := none
  unposted : List Post := []
  posts : Nat := 0
  runningMin : Nat := 0xFFFFFFFF
  slackFrameMin : Nat := 0xFFFFFFFF
  slackRunMin : Nat := 0xFFFFFFFF
  lateCount : Nat := 0
  holdCount : Nat := 0
  holding : Bool := false
  heldThisFrame : Bool := false
  holdUntil : Nat := 0
  steal : Option Nat := none
  sinceSteal : Nat := 255
  sReq : Nat := 0
  sinceWell : Nat := 0
  lowAt7 : Nat := 0
  holdTimes : List Nat := []
  curChan : Option Nat := none
  checkNo : Nat := 0
  checkProg : Nat := 0
  checkBlock : Nat := 0
  checkInstr : Nat := 0
  amp : List Nat := List.replicate 6 0
  deriving DecidableEq, Repr

/-- The device timebase (R65 to R70). The correction was `corr` at tick `slewAt` and moves from there to `target` at the slew
rate, both in units of 2^-14 ppm; `knots` are the corners of its course, newest first. `sample` and `validSince` are the ticks
of the reference's last and first valid sample, the phase error stays in R67's band since `bandSince`, and `offset` is its frequency against the crystal in ppm. -/
structure TbState where
  tick : Nat := 0
  running : Bool := false
  tickHi : Word := 0
  corr : Rat := 0
  target : Rat := 0
  slewAt : Nat := 0
  phase : Nat := 0
  phaseErr : Int := 0
  knots : List (Rat × Rat) := [(0, 0)]
  refValid : Bool := false
  sample : Nat := 0
  validSince : Nat := 0
  bandSince : Option Nat := none
  offset : Rat := 0
  deriving DecidableEq, Repr

/-! ### Plane coding and the frame store -/

/-- The settings a buffer or a frame under construction was encoded with: the configuration words and the string fluxes
used as weights at that moment (R62, R83, R210). -/
structure Snapshot where
  cfg : WordMap
  flux : List Rat
  deriving DecidableEq, Repr

/-- One of the two buffers of an output's partition (R60, R62, R83, R253). -/
structure BufState where
  tag : Nat := 0
  prog : Nat := 0
  planeSet : Nat := 0
  snap : Snapshot := { cfg := [], flux := [] }
  complete : Bool := false
  frame : Nat := 0
  composed : Nat := 0
  still : Bool := false
  dark : Bool := false
  withhold : Bool := false
  deriving DecidableEq, Repr

/-- The plane encoder of one output (R50, R54, R55, R62, R64). -/
structure EncState where
  versions : List Nat := List.replicate 8 0
  frontIdx : Nat := 0
  bufs : List BufState := [{}, {}]
  phaseCount : Nat := 0
  phase : Nat := 0
  reduced : Bool := false
  cbCheck : Nat := 0
  cbEntry : Nat := 0
  cbChan : Nat := 0
  cbSet : Nat := 0
  cbGap : Nat := 0
  deriving DecidableEq, Repr

/-! ### Frame timing, Pours and flips -/

/-- A record of the flip log (R254). -/
structure FlipRec where
  count : Nat := 0
  tLocal : Nat := 0
  tPtp : Nat := 0
  kind : Nat := 0
  dark : Bool := false
  cause : Nat := 0
  tag : Nat := 0
  prog : Nat := 0
  deriving DecidableEq, Repr

/-- Where an output stands in a timing-mode change (R255). -/
inductive TmStep where
  /-- No change in progress. -/
  | idle
  /-- Step 1: composition stopped at C_a; the ramp frame follows at B_a. -/
  | stopped
  /-- Step 2: the ramp frame is being shown. -/
  | ramp
  /-- Step 3: the old generator has stopped at this tick and the array parks. -/
  | parked (since : Nat)
  /-- The array is parked, or the converters are blank; the new first start is not decided yet. -/
  | ready (since : Nat)
  /-- Step 4 is decided: the new generator's first start is fixed (R87). -/
  | fixed (since : Nat)
  /-- Step 4: the new generator runs and its first frame is being composed. -/
  | restarted (since : Nat)
  deriving DecidableEq, Repr

/-- The timing generator, flip accounting and STILL state of one output (R232 to R261). Positions are in units of
1/(25 × DEN) tick; reference instants in fine steps of 100 ps. -/
structure TgState where
  running : Bool := false
  started : Bool := false
  pos : Nat := 0
  len : Nat := 0
  den : Nat := 3
  counter : Nat := 0
  cntHi : Word := 0
  ref : Option Nat := none
  refPrev : Option Nat := none
  refLost : Bool := false
  err : Int := 0
  goodRun : Nat := 0
  badRun : Nat := 0
  locked : Bool := false
  stretching : Bool := false
  adopted : Bool := false
  flips : Nat := 0
  repeats : Nat := 0
  lastCause : Nat := 0
  lastKind : Nat := 0
  flipLog : List FlipRec := List.replicate 16 {}
  cfgAtC : WordMap := []
  ctaken : Bool := false
  stillIdle : Nat := 0
  stillSpent : Bool := false
  layerChange : Bool := false
  tm : TmStep := .idle
  waitMore : Bool := false
  composeStopped : Bool := true
  deriving DecidableEq, Repr

/-- What asked for a Pour (R247, R388, R456, R474). -/
inductive PourKind where
  | host | ingotApply | anneal | dawn
  deriving DecidableEq, Repr

/-- A pending Pour (R247); `freed` lists the surfaces freed since it was armed (R342). -/
structure Pour where
  mask : Nat
  targeted : Bool
  target : Nat
  seq : Nat
  kind : PourKind
  path : PathId
  freed : List Nat
  deriving DecidableEq, Repr

/-- An item disabled by a Pour whose work in flight has not retired (R257). -/
inductive Disable where
  | layer (l : Nat) | input (i : Nat) | stage (o k : Nat) | string (nn : Nat) | output (o : Nat)
  deriving DecidableEq, Repr

/-- A disable under way (R257), with its output and the MASK and SEQ of the Pour that brought it (R262). -/
structure Retire where
  item : Disable
  out : Nat := 0
  mask : Nat := 0
  seq : Nat := 0
  deriving DecidableEq, Repr

/-- The Ladle and the settings in force (R245 to R252). `touched` maps each staged word not yet applied to the paths that
staged it, a bit each (R467); `touchedSave` keeps it while an Anneal or INGOT_APPLY Pour is pending. `applied` lists committed
Pours by mask, number, the output whose B_k announces them and whether its C_k has come (R252). -/
structure LadleState where
  act : WordMap := []
  stg : WordMap := []
  touched : List (Nat × Nat) := []
  touchedSave : List (Nat × Nat) := []
  rt : List WordMap := [[], [], [], [], []]
  pending : Option Pour := none
  armed : Bool := false
  seq : Nat := 0
  refused : Nat := 0
  busy : Bool := false
  held : List (PathId × Nat × Word) := []
  st : Nat := 0
  chkBlock : Nat := 0
  chkOwner : Nat := 0
  chkNo : Nat := 0
  selector : List Bool := [false, false, false]
  views : List (PathId × Bool) := []
  applied : List (Nat × Nat × Nat × Bool) := []
  disables : List Retire := []
  deriving DecidableEq, Repr

/-- The Relvor link (R239 to R243). -/
structure RlvState where
  map : Option Int := none
  runMaps : List Int := []
  state : Nat := 0
  crcErrs : Nat := 0
  hops : Nat := 0
  origin : Nat := 0
  announced : List (Option (Nat × Nat)) := [none, none, none, none]
  announcedPrev : List (Option (Nat × Nat)) := [none, none, none, none]
  frameAt : List (Option Nat) := [none, none, none, none]
  sent : List (List Byte) := []
  deriving DecidableEq, Repr

/-! ### Tile-binned composition and the pixel pipeline -/

/-- The source a layer is binned with: a host surface as it was mapped the `mapNo`-th time on the device, or a buffer of a capture input with its frame (R197, R198). -/
inductive Source where
  | host (surface : Nat) (mapNo : Nat)
  | capture (input : Nat) (buf : Nat) (count : Nat) (w : Nat) (h : Nat) (fmt : Nat)
  deriving DecidableEq, Repr

/-- A queue entry (R192). -/
structure Entry where
  layer : Nat
  rank : Nat
  opaque_ : Bool
  x0 : Nat
  y0 : Nat
  x1 : Nat
  y1 : Nat
  sx : Int
  sy : Int
  deriving DecidableEq, Repr

/-- A Sprue record (R193) at its index in the pool; `linked` once its queue's spill pointer is updated; `tries` counts failed writes
and `reads` failed reads. -/
structure SprueRec where
  queue : Nat
  frame : Nat
  entries : List Entry
  linked : Bool
  tries : Nat
  idx : Nat := 0
  reads : Nat := 0
  deriving DecidableEq, Repr

/-- Where a tile of a frame under construction stands (R200 to R202). -/
inductive TileState where
  | binned | eligible | running (engine : Nat) | saved (slot : Nat) | committed
  deriving DecidableEq, Repr

/-- What a context slot saves of a pre-empted tile (R201): the output and tile, the entry in blend order and the fragment in it at
which it stopped, and the tile's accumulators, three components packed per pixel. -/
structure TileCtx where
  out : Nat
  tile : Nat
  entry : Nat
  frag : Nat
  acc : List Nat
  deriving DecidableEq, Repr

/-- The phase of a frame under construction (COMP_STATUS_n STATE). -/
inductive FramePhase where
  | waiting | binning | composing | complete | poisoned | abandoned
  deriving DecidableEq, Repr

/-- A frame under construction (R190 to R205, R210): its counter, the settings at C_k, the composition start's tick, the
dither phase, marking and plane set tag it is encoded with, its sources, tiles and on-chip entries, the layers whose translation faulted, and
its canvas, the composed components of each pixel packed R, G, B and keyed by y × width + x. -/
structure FrameUC where
  frame : Nat
  snap : Snapshot
  prog : Nat
  still : Bool
  phase : FramePhase
  start : Nat
  dither : Nat
  reduced : Bool
  mark : Option (List Byte × Nat × List Nat)
  sources : List (Nat × Source)
  tiles : List TileState
  entries : List (Nat × List Entry)
  warpDone : List Nat
  canvas : List (Nat × Nat)
  faulted : List Nat := []
  tag : Nat := 0
  deriving DecidableEq, Repr

/-- The composer's state of one output (R188 to R207). -/
structure CompState where
  fuc : Option FrameUC := none
  lastCause : Nat := 12
  qbase : Nat := 0
  ntiles : Nat := 0
  nextQbase : Nat := 0
  nextNtiles : Nat := 0
  held : List (Nat × Source) := []
  lastStalls : Nat := 0
  stalls : Nat := 0
  budget : Nat := 0
  frameSources : List (Nat × Source) := []
  pixCheck : Nat := 0
  pixSlot : Nat := 0
  pixLayer : Nat := 0
  scalers : Nat := 0
  stripes : List (Nat × Nat) := []
  canvas : Bool := false
  warpWait : Nat := 0
  warpFirst : Option Nat := none
  deriving DecidableEq, Repr

/-- The composer's device state (R193, R199 to R207). `resumed` holds the context each engine resumed from, `stopped` the tiles
(engine, output, tile) that a poisoned frame stopped at tick `stoppedAt`, and `spill` each queue's spill pointer. -/
structure ComposerState where
  engines : List (Option (Nat × Nat)) := List.replicate 16 none
  contexts : List (Option TileCtx) := List.replicate 32 none
  resumed : List (Option TileCtx) := List.replicate 16 none
  stopped : List (Nat × Nat × Nat) := []
  stoppedAt : Nat := 0
  sprue : List SprueRec := []
  spill : List (Nat × Nat) := []
  spruePeak : Nat := 0
  presents : List (Nat × Nat) := []
  presentsNext : List (Nat × Nat) := []
  layerStatus : List (Nat × Nat) := List.replicate 128 (0, 0)
  faultValid : Bool := false
  faultOut : Nat := 0
  faultLayer : Nat := 0
  faultQueue : Nat := 0
  faultSurface : Nat := 0
  faultFrag : Nat := 0
  faultAt : Nat := 0
  chkNo : Nat := 0
  chkLayer : Nat := 0
  chkOut : Nat := 0
  utilU : Nat := 0
  glevel : Nat := 8
  disabledByFault : List Nat := []
  deriving DecidableEq, Repr

/-! ### String drive and the optical loop -/

/-- One lamp record of a lamp board's EEPROM (R99). -/
structure Lamp where
  string : Nat
  position : Nat
  wl0 : Nat
  wlTc : Int
  flux : Nat
  iRated : Nat
  vf : Nat
  iTh : Nat
  deriving DecidableEq, Repr

/-- One light string (R93 to R123). `trim` is the code of the TRIM DAC, `cmdAt` the tick of the command's last change, `setPoint` the
stage's set point VHR × VDIV in mV, `duty` the time SW_A is high in steps of 100 ps, `vks` the ticks and VK readings in mV that headroom
control uses, and `binRef` the binning temperature of the board (R94 to R97, R100, R114). -/
structure StringState where
  st : Nat := 0
  failed : Bool := false
  cause : Nat := 0
  cmd : Nat := 0
  clamped : Bool := false
  clampFrame : Bool := false
  clampLast : Bool := false
  lampShorts : Nat := 0
  flux : Rat := 0
  weightFlux : Rat := 0
  wl0 : Rat := 0
  wlTc : Rat := 0
  tRef : Int := 0
  calWl : Rat := 0
  volts : Nat := 0
  lamps : Nat := 0
  learned : List (List Nat) := List.replicate 8 []
  lowDuty : Nat := 0
  windowDone : Bool := false
  probePending : Bool := false
  pendFrames : Nat := 0
  probe : Option Nat := none
  holdCur : Option Nat := none
  iAvg : Nat := 0
  vStr : Nat := 0
  setPoint : Rat := 0
  admitted : Nat := 0
  stageOn : Bool := false
  trim : Nat := 0
  cmdAt : Nat := 0
  duty : Nat := 0
  vks : List (Nat × Nat) := []
  binRef : Int := 0
  deriving DecidableEq, Repr

/-- One photodiode channel (R108 to R113). `satSince` and `dimSince` are since when it has read as R113's two cases ask. -/
structure PdState where
  last : Nat := 0
  recent : List Nat := []
  dark : Nat := 0
  darkSum : Nat := 0
  darkN : Nat := 0
  faulted : Bool := false
  satSince : Option Nat := none
  dimSince : Option Nat := none
  deriving DecidableEq, Repr

/-- The optical loop of one light channel (R109, R110). -/
structure ChanState where
  k : Rat := 1
  bin : Nat := 0
  eps : Rat := 0
  heldUntil : Nat := 0
  bins : List Rat := List.replicate 8 1
  wf : Nat := 0x8000
  rp : Nat := 0x8000
  deriving DecidableEq, Repr

/-- A threshold with its dwell (R359): entered or not, and since when the opposite condition has held. -/
structure Threshold where
  entered : Bool := false
  since : Option Nat := none
  deriving DecidableEq, Repr

/-- One lamp board (R99 to R107). -/
structure BoardState where
  eeprom : Nat := 0
  serial : Nat := 0
  tRef : Int := 0
  lamps : List Lamp := []
  temp : Int := 0
  d : Nat := 0x8000
  trip : Threshold := {}
  deriving DecidableEq, Repr

/-- The light drive (R93 to R127). `replica` is the drive die's copy of TICK, `replicaFine` steps of 100 ps away from it
(R22). -/
structure DriveState where
  strings : List StringState := List.replicate 24 {}
  pds : List PdState := List.replicate 8 {}
  chans : List ChanState := List.replicate 24 {}
  boards : List BoardState := List.replicate 6 {}
  scale : List Nat := List.replicate 4 0x8000
  sDom : List Nat := List.replicate 4 0x8000
  limitChan : List Nat := List.replicate 4 0
  darkSince : List (Option Nat) := List.replicate 4 (some 0)
  half : List Bool := List.replicate 4 false
  lastAdmit : Option Nat := none
  paused : Bool := false
  replica : Nat := 0
  replicaFine : Int := 0
  deriving DecidableEq, Repr

/-! ### The mirror link -/

/-- The identity an array reports (R146). -/
structure Ident where
  width : Nat
  height : Nat
  maxBlocks : Nat
  maxLanes : Nat
  rates : Nat
  releaseMin : Nat
  tArst : Nat
  parkTime : Nat
  unparkTime : Nat
  arrayId : Nat
  deriving DecidableEq, Repr

/-- The status an array last reported (R146). -/
structure ArrayStatus where
  state : Nat := 0
  flags : Nat := 0
  cmdSeq : Nat := 0
  loadSeq : Nat := 0
  stbSeq : Nat := 0
  temp : Int := 0
  loadErrs : Nat := 0
  laneLock : Nat := 0
  laneErr : Nat := 0
  deriving DecidableEq, Repr

/-- A command sent to the array and not yet echoed (R137, R138). -/
structure PortCmd where
  opcode : Nat
  arg : Nat
  seq : Nat
  tries : Nat
  deriving DecidableEq, Repr

/-- A load on the link: its place in the schedule, sequence number and check word (R81, R133). -/
structure LoadRun where
  block : Nat
  slot : Nat
  comp : Bool
  seq : Nat
  words : Nat
  crc : Nat
  start : Nat
  done : Nat
  deadline : Nat
  strobe : Nat
  complete : Bool
  deriving DecidableEq, Repr

/-- A strobe word sent (R140 to R142): the events it carries, its sequence number and its pair; `ord` is the place of its
latest event in the order of posting. -/
structure StrobeWord where
  fire : Nat
  fine : Nat
  kind : Nat
  blocks : Nat
  seq : Nat
  pair : Nat
  ord : Nat := 0
  deriving DecidableEq, Repr

/-- One output port in PLANE mode (R128 to R155). `pairIdle` says since when each strobe pair is idle, in 1/50 tick. `elastic`
holds the words of the load read ahead of the lane clock and `unread` counts those still in the frame store (R27). `scram` and
`prbs` are each lane's scrambler and PRBS31 registers, `colAt` the start of the next column in 1/1000 tick, and `wire` the
columns sent since the last load or bring-up step began, newest first, each lane's block with its sync header in bits 1:0
(R130, R131). `regState` is STATE of the last STATUS frame; the array is dark until tick `unparkUntil` (R151). -/
structure PortState where
  link : Nat := 0
  validStatus : Nat := 0
  lossRaised : Bool := false
  status : ArrayStatus := {}
  ident : Option Ident := none
  accepted : Bool := false
  mismatch : Bool := false
  cmd : Option PortCmd := none
  cmdQueue : List (Nat × Nat) := []
  cmdSeq : Nat := 0
  sent : List (Nat × Nat × Nat) := []
  loadSeq : Nat := 0
  loads : List LoadRun := []
  current : Option LoadRun := none
  loadErrTimes : List Nat := []
  laneRuns : List Nat := List.replicate 32 0
  laneErr : Nat := 0
  pairIdle : List Nat := [0, 0]
  stbSeq : Nat := 0
  words : List StrobeWord := []
  pattern : Nat := 0
  patWait : Bool := false
  loadErrs : Nat := 0
  stbErrs : Nat := 0
  bchErrs : Nat := 0
  checker : Bool := false
  resumeWait : Bool := false
  darkByLink : Bool := false
  elastic : List Nat := []
  unread : Nat := 0
  scram : List Nat := List.replicate 32 0
  prbs : List Nat := List.replicate 32 0x7FFFFFFF
  colAt : Nat := 0
  alignSeq : Nat := 0
  trainSeq : Nat := 0
  wire : List (List Nat) := []
  resend : Bool := false
  regState : Nat := 0
  unparkUntil : Nat := 0
  deriving DecidableEq, Repr

/-! ### Scan outputs -/

/-- What the JESD204 lanes of an output carry (R171). -/
inductive LaneSends where
  | off | cgs | ilas | blank | data
  deriving DecidableEq, Repr

/-- A sample in the elastic buffer of an output (R167): its emergence time in fine steps, what each light channel asks, and the
resampled code of each converter. -/
structure ScanWord where
  t : Rat
  asked : List (Option Nat)
  codes : List Nat
  deriving DecidableEq, Repr

/-- The scan engine, the trackers and the JESD204 link of one output in SCAN mode (R156 to R182). The tracker's period and
phase and the drive's period and next rising edge are in 1/256 tick; `slowFire` and `lmfc` are in fine steps. -/
structure ScanState where
  fast : Nat := 0
  driveOn : Bool := false
  pHat : Int := 0
  t0 : Int := 0
  first : Bool := true
  lastCross : Nat := 0
  peak : Nat := 0
  highTime : Int := 0
  smallErr : Nat := 0
  bigErr : Nat := 0
  phaseErrs : Nat := 0
  lowPeaks : Nat := 0
  slowWindows : Nat := 0
  slowMean : Option Nat := none
  slowFire : Option Nat := none
  sweepAt : Nat := 0
  drvPeriod : Int := 0
  drvEdge : Int := 0
  jesd : Nat := 0
  sends : LaneSends := .off
  sysrefs : Nat := 0
  sysrefHigh : Nat := 0
  lmfc : Nat := 0
  samples : Nat := 0
  ahead : List ScanWord := []
  rows : List (Nat × List Byte) := []
  forced : List (Option Nat) := List.replicate 16 none
  allForced : Bool := false
  codes : List Nat := List.replicate 16 0
  sumE : List Rat := List.replicate 6 0
  sumP : List Rat := List.replicate 6 0
  nSamp : List Nat := List.replicate 6 0
  epsPrev : List Rat := List.replicate 6 0
  reqs : List (Rat × List Nat) := []
  probeSeen : Bool := false
  lines : Nat := 0
  linesNow : Nat := 0
  check : Nat := 0
  underruns : Nat := 0
  syncErrs : Nat := 0
  deriving DecidableEq, Repr

/-! ### Video and host inputs -/

/-- A captured frame (R266): its record, and the HBM3 address of its buffer, where its pixels lie. -/
structure CapFrame where
  count : Nat := 0
  tRef : Nat := 0
  fine : Nat := 0
  buffer : Nat := 0
  fmtOut : Nat := 0
  fmt : CapFormat := {}
  tc : Nat := 0
  rtp : Nat := 0
  completed : Nat := 0
  base : Nat := 0
  deriving DecidableEq, Repr

/-- A capture buffer: its frame, whether its frame fence is set, and the outputs that hold references (R338, R339).
Each reference names the output and the frame counter recorded. -/
structure CapBuf where
  frame : CapFrame := {}
  fence : Bool := false
  refs : List (Nat × Nat) := []
  age : Nat := 0
  deriving DecidableEq, Repr

/-- A frame being captured (R265), with its content key, nonce and FRAME when it is sealed (R425, R428). -/
structure CapRun where
  buf : Nat
  base : Nat
  fmt : CapFormat
  tRef : Nat
  fine : Nat
  tc : Nat
  rtp : Nat
  key : Option (List Byte × Nat × Nat)
  deriving DecidableEq, Repr

/-- One capture input (R263 to R291). `newest` is the count of its newest complete frame; `oldBufs` are buffers that a Pour
replaced and fences still hold (R287); `arrived` is the tick at which each packet of the frame in progress came, `pathAt` that of
each path's last packet (R279), `hpdAt` that of the last HPD pulse (R274). -/
structure InputState where
  st : Nat := 0
  bufs : List CapBuf := []
  oldBufs : List CapBuf := []
  newest : Option Nat := none
  counter : Nat := 0
  records : List CapFrame := [{}, {}, {}, {}]
  run : Option CapRun := none
  prev : Option CapFormat := none
  consistent : Nat := 0
  up : Bool := false
  tooLarge : Bool := false
  links : Nat := 0
  rate : Nat := 0
  size : Nat × Nat := (0, 0)
  signal : Nat := 0
  transfer : Nat := 0
  depth : Nat := 0
  refTimes : List Nat := []
  lastRef : Option Nat := none
  discarded : Nat := 0
  losses : Nat := 0
  packets : List (Nat × List Nat) := []
  arrived : List (Nat × Nat) := []
  pathAt : List Nat := [0, 0]
  pathDown : List Bool := [false, false]
  hpd : Bool := false
  hpdPulse : Bool := false
  hpdAt : Nat := 0
  edidDefault : Bool := false
  deriving DecidableEq, Repr

/-- The PTP client (R280), with the tick of its last Sync. -/
structure PtpState where
  st : Nat := 0
  lastSync : Nat := 0
  offset : Int := 0
  offHi : Word := 0
  consistent : Nat := 0
  valid : Bool := false
  deriving DecidableEq, Repr

/-- The PCIe endpoint (R282 to R285). -/
structure PcieState where
  speed : Nat := 0
  width : Nat := 0
  bars : List Nat := [0, 0, 0]
  msixMask : List Bool := List.replicate 64 false
  msixLast : List (Option Nat) := List.replicate 64 none
  msixSent : List Nat := []
  deriving DecidableEq, Repr

/-- What the Ethernet ports last sent, and the DPCD of the DisplayPort receivers (R276, R281). -/
structure NetState where
  sent : List (Nat × List Byte) := []
  dpcd : List (Nat × Byte) := []
  deriving DecidableEq, Repr


/-! ### HBM3, Runners and surfaces -/

/-- The HBM3 controller (R293 to R316). Debts are in half nanoseconds, brought up to the tick in `debtAt`. -/
structure HbmState where
  st : Nat := 0
  fspNow : Nat := 0
  valid : Nat := 0
  mapOrder : Nat := 0
  target : Option Nat := none
  drained : Bool := false
  training : Bool := false
  slots : Nat := 0
  slotAt : Nat := 0
  fails : Nat := 0
  retry : Bool := false
  passTick : Nat := 0
  passTemp : Int := 0
  trained : List Nat := List.replicate 4 0
  phy : List Nat := List.replicate 16 0
  temp : Int := 0
  hot : Bool := false
  coolSince : Option Nat := none
  debt : List Int := List.replicate 16 0
  debtAt : List Nat := List.replicate 16 0
  flushing : List Bool := List.replicate 16 false
  openRows : List (Nat × Nat) := []
  lfsr : List Nat := List.replicate 32 0
  nrq : List (List (Nat × Nat)) := List.replicate 32 []
  nrDone : Nat := 0
  parity : List (List Nat) := List.replicate 16 []
  errValid : Bool := false
  errKind : Nat := 0
  errCh : Nat := 0
  errPc : Nat := 0
  errSid : Nat := 0
  errBg : Nat := 0
  errBank : Nat := 0
  errRow : Nat := 0
  errRunner : Nat := 0
  errCol : Nat := 0
  corrected : List Nat := List.replicate 16 0
  uncorrected : List Nat := List.replicate 16 0
  srDusk : Bool := false
  lastUse : List Nat := List.replicate 16 0
  mem : Memory := []
  ansRunner : Nat := 0
  ansKind : Nat := 0
  ansData : List Byte := []
  deriving DecidableEq, Repr

/-- The arbiter of one HBM3 channel (R319 to R330). -/
structure ChanArb where
  owner : Option Nat := none
  locked : Bool := false
  lockAt : Nat := 0
  shadows : Nat := 0
  accepted : Bool := false
  carried : Nat := 0
  waiting : List (Nat × Nat) := []
  lockWait : List Nat := []
  drawn : Option Nat := none
  drawnCeil : Bool := false
  losses : List Nat := List.replicate 16 0
  atCeil : List Nat := []
  lfsr : Nat := 0
  deriving DecidableEq, Repr

/-- The Runner arbiter's device state (R318 to R330, R364). -/
structure RunnerState where
  chans : List ChanArb := List.replicate 16 {}
  waitMax : List Nat := List.replicate 16 0
  ceilGrants : List Nat := List.replicate 16 0
  refused : List Nat := List.replicate 16 0
  orphans : Nat := 0
  rollbacks : Nat := 0
  check : Nat := 0
  checkRunner : Nat := 0
  tokens : Nat := 6400
  tokensAt : Nat := 0
  tokenWait : List (Nat × Nat × Nat × Bool) := []
  rollback : Option (Nat × Nat) := none
  deriving DecidableEq, Repr

/-- One surface (R331 to R341): state, attributes, BASE[47:21], size in 4 KB, level-1 address bits 34:12, its pages
and tables as HBM3 extents, the frame each output recorded, whether the host rights are being revoked, and the key
bound to it. -/
structure Surface where
  st : Nat := 0
  attr : Nat := 0
  base : Nat := 0
  size : Nat := 0
  l1 : Nat := 0
  pages : List (Nat × Nat) := []
  tables : List (Nat × Nat) := []
  refs : List (Option Nat) := [none, none, none, none]
  revoking : Bool := false
  key : Nat := 0
  mapNo : Nat := 0
  deriving DecidableEq, Repr

/-- A TLB entry (R336): set, way, surface, page number, HBM3 page address, host rights. -/
structure TlbEntry where
  set : Nat
  way : Nat
  surf : Nat
  page : Nat
  phys : Nat
  hostR : Bool
  hostW : Bool
  deriving DecidableEq, Repr

/-- A translation walk in a walk slot (R336, R345): the access it serves and, for a layer fetch, the tag of its entry
and fragment. -/
structure Walk where
  surf : Nat
  offset : Nat
  runner : Nat
  engine : Nat
  write : Bool
  out : Nat
  layer : Nat
  queue : Nat
  frag : Nat
  gone : Bool := false
  deriving DecidableEq, Repr

/-- The surface manager and the walker (R331 to R348). `owned` lists the device-owned areas allocated at Pours, by key, address
and size: input i, warp canvas 8 + o, and 16 + i for buffers of input i whose fences outlive them (R223, R264). -/
structure SurfState where
  surfs : List (Nat × Surface) := []
  pool : List (Nat × Nat) := []
  tablePool : List (Nat × Nat) := []
  poolAll : List (Nat × Nat) := []
  owned : List (Nat × Nat × Nat) := []
  sealedAreas : List Nat := []
  tableAll : List (Nat × Nat) := []
  busy : Bool := false
  result : Nat := 0
  cmdSurf : Nat := 0
  fltValid : Bool := false
  fltKind : Nat := 0
  fltWrite : Bool := false
  fltRunner : Nat := 0
  fltEngine : Nat := 0
  fltSurf : Nat := 0
  fltOfs : Nat := 0
  fltQueue : Nat := 0
  fltFrag : Nat := 0
  fltAt : Nat := 0
  maps : Nat := 0
  tlb : List TlbEntry := []
  cache : List Nat := []
  walks : List Walk := []
  heldFaults : List (Walk × Nat) := []
  deriving DecidableEq, Repr

/-! ### Temperature, supply and the flash window -/

/-- The fused constants of one on-package sensor (R351, R370). -/
structure SensorFuse where
  fa : Rat := 25
  fb : Rat := 100
  fc : Rat := 0
  rho0 : Rat := 1
  kv : Rat := 1 / 1000
  pMin : Nat := 1
  pMax : Nat := 65535
  qMin : Nat := 1
  qMax : Nat := 65535
  deriving DecidableEq, Repr

/-- One on-package sensor (R351, R355, R356); temperatures in units of 0.125 °C, the offset in 1/256 °C. -/
structure Sensor where
  st : Nat := 3
  reading : Int := 0
  untrimmed : Rat := 0
  dev : Int := 0
  value : Int := 0
  subst : Bool := false
  suspect : Nat := 0
  ofs : Int := 0
  deriving DecidableEq, Repr

/-- One external input (R352 to R354, R360). -/
structure ExtState where
  st : Nat := 0
  mean : Int := 0
  samples : List (Nat × Rat) := []
  warn : Threshold := {}
  halt : Threshold := {}
  deriving DecidableEq, Repr

/-- The thermal and supply manager (R350 to R374). -/
structure ThermState where
  sensors : List Sensor := List.replicate 64 {}
  exts : List ExtState := List.replicate 12 {}
  tdie : Int := 0
  src : Nat := 0
  subst : Bool := false
  converted : Bool := false
  below : Option Nat := none
  belowDone : Bool := false
  warn : Threshold := {}
  temper : Threshold := {}
  halt : Threshold := {}
  level : Nat := 0
  lastChange : Nat := 0
  fallen : Bool := false
  holdUntil : Nat := 0
  flashOpen : Bool := false
  flashSince : Option Nat := none
  fallback : Bool := false
  deferRaised : Bool := false
  droop : Bool := false
  droopSensor : Nat := 0
  droopDepth : Nat := 0
  droopCount : Nat := 0
  calmSince : Option Nat := none
  rings : List (List Nat) := List.replicate 64 []
  estimates : List Rat := List.replicate 64 0
  awake : Nat := 0
  pend : Nat := 0
  usable : Nat := 0
  wokenAt : List Nat := List.replicate 26 0
  deriving DecidableEq, Repr

/-- A journal record before it is written (R437): what R467 lays out in DATA, with its severity for the queue. -/
structure JrnRec where
  kind : Nat
  flags : Nat
  tLocal : Nat
  tSecure : Nat
  code : Nat
  path : Nat
  session : Nat
  data : List Byte
  sev : Nat
  deriving DecidableEq, Repr

/-- The slot class of a deferred record (R367). -/
inductive SlotCls where
  | general | reserved | shutdown
  deriving DecidableEq, Repr

/-- The always-on domain (R14, R367, R369, R405, R472). -/
structure AodState where
  valid : Bool := false
  dawns : Nat := 1
  cause : Nat := 0
  dirty : Bool := false
  queue : List (SlotCls × JrnRec) := []
  latch : Bool := true
  sources : Nat := 0x800
  first : Nat := 11
  halt : Bool := false
  cls : Nat := 0
  lost : Nat := 0
  dropped : Nat := 0
  deriving DecidableEq, Repr

/-- The journal (R437, R438): number and hash of the last record, write position, records since a signature record, the
record being written, whether a signature record is due, the session-open mirror in flash, and the flash's erase unit as
the Dawn read it. -/
structure JournalState where
  flashMode : Nat := 0
  flashPage : Nat := 0
  eraseUnit : Nat := 0
  seq : Nat := 0
  pos : Nat := 0
  prev : List Byte := List.replicate 48 0
  sinceSig : Nat := 0
  sigDue : Bool := false
  writing : Option (JrnRec × List Byte) := none
  mirror : Bool := false
  deriving DecidableEq, Repr

/-! ### Anneal -/

/-- One reading of a run (R378, R386): step, output, item, point, value. -/
structure Reading where
  step : Nat
  out : Nat
  item : Nat
  point : Nat
  value : Rat
  deriving DecidableEq, Repr

/-- An Anneal run in progress (R377 to R388). `todo` lists the step and output pairs still to run, in order; `items` the strings,
channels or converters of the present step still to measure. `frame` says that a stolen frame has passed its pre-check, `mark` is
the place it began at, and `high` that a photodiode read 65,280 codes or more. The check or point in progress began at tick `since`, the
wait for a pending Pour or for the flash window at `waitAt`. -/
structure AnnRun where
  kind : Nat
  outputs : Nat
  steps : Nat
  st : Nat := 1
  todo : List (Nat × Nat) := []
  items : List Nat := []
  point : Nat := 0
  points : Nat := 0
  begun : Bool := false
  post : Bool := false
  frame : Bool := false
  mark : List Nat × Nat × Nat × Option Rat := ([], 0, 0, none)
  high : Bool := false
  darkPre : List Nat := List.replicate 8 0
  first : Option Rat := none
  readings : List Reading := []
  discards : Nat := 0
  stolen : Bool := false
  since : Nat := 0
  enteredAt : Nat := 0
  prevModes : List Nat := [1, 1, 1, 1]
  staged : List (Nat × Option Word) := []
  block : List Byte := []
  started : List Bool := [false, false, false, false]
  waitPour : Bool := false
  waitAt : Nat := 0
  checked : Bool := false
  writeWait : Bool := false
  ended : Bool := false
  deriving DecidableEq, Repr

/-- Calibration (R377 to R391). `temps` holds the recent temperatures of each lamp board and of T_die, newest first (R386). -/
structure AnnealState where
  run : Option AnnRun := none
  outcome : Nat := 0
  cause : Nat := 0
  step : Nat := 0
  item : Nat := 0
  seq : Nat := 0
  slot : Nat := 0
  block : List Byte := []
  dowser : Bool := false
  resume : List Bool := [false, false, false, false]
  resumeAt : Nat := 0
  temps : List (List (Nat × Int)) := List.replicate 7 []
  deriving DecidableEq, Repr

/-! ### The guard -/

/-- The zone mask of one output (R395): whether a verified copy is resident, the size it was built for, failures. -/
structure ZoneState where
  resident : Bool := false
  w : Nat := 0
  h : Nat := 0
  fails : Nat := 0
  deriving DecidableEq, Repr

/-- The rectangle signatures of one output (R397 to R399). -/
structure SigState where
  judged : Nat := 0
  mismatch : Nat := 0
  last : List Nat := List.replicate 16 0
  seen : List Bool := List.replicate 16 false
  same : List Nat := List.replicate 16 0
  deriving DecidableEq, Repr

/-- The guard outside the always-on domain (R393 to R417). -/
structure GuardState where
  zones : List ZoneState := List.replicate 4 {}
  sigs : List SigState := List.replicate 4 {}
  ilkA : Bool := false
  ilkB : Bool := false
  safeSince : Option Nat := none
  safeAll : Bool := false
  disc : Bool := false
  discUnsafe : Bool := false
  trips : Nat := 0
  qnLow : Bool := false
  qnHighSince : Option Nat := none
  diffSince : Option Nat := none
  twinCount : Nat := 0
  twinCls : Nat := 0
  twinOut : Nat := 0
  twinIdx : Nat := 0
  overlimit : Nat := 0
  beam : List Nat := [0, 0, 0, 0]
  heartbeat : Bool := true
  classRec : Bool := false
  checkNo : Nat := 0
  deriving DecidableEq, Repr

/-! ### The Crucible -/

/-- A key of the key store (R429, R430, R443). -/
structure KeySlot where
  keyId : Nat
  target : Nat
  flags : Nat
  issuer : Nat
  notBefore : Nat
  notAfter : Nat
  nonce : Nat
  key : List Byte
  deriving DecidableEq, Repr

/-- An open management session (R439, R440, R463, R464). -/
structure Session where
  op : Nat
  kHD : List Byte
  kDH : List Byte
  rx : Nat
  tx : Nat
  opened : Nat
  last : Nat
  carrier : PathId
  peer : Nat
  port : Nat
  lastReq : Nat
  lastResp : List Byte
  deriving DecidableEq, Repr

/-- A handshake after HELLO (R439). -/
structure Handshake where
  op : Nat
  hello : List Byte
  challenge : List Byte
  kHD : List Byte
  kDH : List Byte
  at_ : Nat
  carrier : PathId
  peer : Nat
  port : Nat
  deriving DecidableEq, Repr

/-- The Crucible (R419 to R443). Secure time is a base in ns and the local instant it was set at. -/
structure CrucState where
  st : Nat := 0
  closed : Bool := false
  rngFail : Bool := false
  drbgRequests : Nat := 0
  drbgSeed : Nat := 0
  keys : List (Option KeySlot) := List.replicate 64 none
  sessions : List (Option Session) := [none, none, none, none]
  shake : Option Handshake := none
  shakeFails : List Nat := []
  helloFrom : Nat := 0
  time : Option (Nat × Nat) := none
  timeFloor : Nat := 0
  kdmBusy : Bool := false
  kdmResult : Nat := 0
  kdmKey : Nat := 0
  rangeSince : Option Nat := none
  tamperCount : Nat := 0
  tamperLast : Nat := 0
  markM : List Nat := [0, 0, 0, 0]
  markPayload : List Nat := [0, 0, 0, 0]
  deriving DecidableEq, Repr

/-- The fuse arrays (R1, R351, R370, R419 to R424, R497). -/
structure FuseState where
  devId : Nat := 0
  code : Nat := 0
  hbmGb : Nat := 16
  major : Nat := 1
  minor : Nat := 0
  rom : Nat := 0
  anchors : List (Option (List Byte)) := [none, none, none, none]
  revoked : List Bool := [false, false, false, false]
  floor : Nat := 0
  sensors : List SensorFuse := List.replicate 64 {}
  cert : List Byte := []
  deriving DecidableEq, Repr

/-! ### Management, events and modes -/

/-- A mailbox of the SPI or BAR0 path (R461, R468). -/
structure Mailbox where
  req : Memory := []
  resp : Memory := []
  busy : Bool := false
  done : Bool := false
  len : Nat := 0
  deriving DecidableEq, Repr

/-- An operator slot of the selected ingot (R448). -/
structure Operator where
  roles : Nat
  outMask : Nat
  key : List Byte
  deriving DecidableEq, Repr

/-- An ingot update in progress (R455), with the program or commit that waits for the flash window (R368). -/
structure Update where
  path : PathId
  length : Nat
  copy : Nat
  erased : Bool
  waitData : Option (Nat × List Byte) := none
  waitCommit : Bool := false
  waitAt : Option Nat := none
  deriving DecidableEq, Repr

/-- A message body whose command waits for the flash window (R368, R462): the path it acts for, the session and request it
answers (none for a mailbox), the commands after it, the responses before it, and its OP. -/
structure BodyRun where
  path : PathId
  reply : Option (Nat × Nat)
  rest : List Byte
  out : List Byte
  op : Nat
  deriving DecidableEq, Repr

/-- The management controller (R445 to R468). `applying` is the copy whose Pour is pending, `fellBack` says that Dawn has gone on
to the second copy (R452), `answer…` is what the last read, BAR2 completion or management command returned. -/
structure MgmtState where
  spi : Mailbox := {}
  bar0 : Mailbox := {}
  irq : Bool := false
  lastResult : Nat := 0
  lastOp : Nat := 0
  refused : Nat := 0
  msgReady : Bool := false
  spiReply : List Byte := []
  spiRoles : Nat := 0x081
  spiMask : Nat := 0
  bar0Roles : Nat := 0x081
  bar0Mask : Nat := 0
  mgmtUdp : Nat := 0
  bar2Log : Nat := 0
  fspReq : Nat := 0
  showMask : Nat := 0
  autoShow : Bool := false
  applied : Bool := false
  inForce : Nat := 0
  seq : Nat := 0
  causeA : Nat := 0
  causeB : Nat := 0
  issuers : List (Option (List Byte)) := List.replicate 8 none
  operators : List (Option Operator) := List.replicate 8 none
  layout : List Nat := [0, 0, 0, 0, 0, 0]
  update : Option Update := none
  committed : Option Nat := none
  applying : Option Nat := none
  fellBack : Bool := false
  applySaved : List (Nat × Option Word) := []
  sealed : List (Nat × Word) := []
  body : Option BodyRun := none
  evtRead : List Nat := [0, 0, 0, 0, 0, 0]
  answer : List Word := []
  answerBytes : List Byte := []
  answerStatus : Nat := 0
  deriving DecidableEq, Repr

/-- A record of the event log (R498). -/
structure EvtRec where
  ts : Nat
  frame : Nat
  code : Nat
  path : Nat
  seq : Nat
  data : Nat
  sev : Nat
  tdom : Bool
  at_ : Nat
  deriving DecidableEq, Repr

/-- The event log, the rate-limit memory of R520 and the recoveries in progress (R39, R40, R415). -/
structure LogState where
  records : List EvtRec := []
  head : Nat := 0
  limits : List (Nat × Nat × Nat) := []
  recovering : List (Nat × Nat) := []
  second : Option Nat := none
  deriving DecidableEq, Repr

/-- How far an output's exit to STANDBY has come (R483). -/
inductive ExitStep where
  | none_ | rampNext | ramp | stopping
  deriving DecidableEq, Repr

/-- The mode of one output (R470, R471, R478 to R487). -/
structure OutMode where
  mode : Nat := 1
  trans : Bool := false
  entry : Option Nat := none
  slowFired : Nat := 0
  exit : ExitStep := .none_
  held : Option Nat := none
  heldAuto : Bool := false
  leftAuto : Nat := 0
  prev : Nat := 1
  parked : Bool := true
  stopAtDusk : Bool := false
  deriving DecidableEq, Repr

/-- Device modes, Dawn, Dusk and the supplies (R470 to R493, R504, R505). -/
structure ModeState where
  dev : Nat := 0
  fail : Nat := 0
  outs : List OutMode := List.replicate 4 {}
  dawnStep : Nat := 1
  duskStep : Nat := 0
  duskAt : Nat := 0
  duskCause : Nat := 0
  dawnFollows : Bool := false
  core : Bool := false
  pwrfail : Bool := false
  rails : List Bool := [true, false, false, false, false, false]
  ilkSinceStep1 : Bool := true
  deriving DecidableEq, Repr

/-- The whole machine: every register, table, buffer, queue, mode and pin level, and the commands that wait. Registers
and tables of classes LS, SE and RW are words of `ladle`. -/
structure State where
  seq : List SeqState := List.replicate 4 {}
  tb : TbState := {}
  enc : List EncState := List.replicate 4 {}
  fs : Memory := []
  tg : List TgState := List.replicate 4 {}
  ladle : LadleState := {}
  rlv : RlvState := {}
  comp : List CompState := List.replicate 4 {}
  composer : ComposerState := {}
  drive : DriveState := {}
  port : List PortState := List.replicate 4 {}
  scan : List ScanState := List.replicate 4 {}
  input : List InputState := List.replicate 8 {}
  ptp : PtpState := {}
  pcie : PcieState := {}
  net : NetState := {}
  hbm : HbmState := {}
  run : RunnerState := {}
  surf : SurfState := {}
  therm : ThermState := {}
  aod : AodState := {}
  jrn : JournalState := {}
  flash : Memory := []
  ann : AnnealState := {}
  guard : GuardState := {}
  cruc : CrucState := {}
  fuse : FuseState := {}
  mgmt : MgmtState := {}
  log : LogState := {}
  mode : ModeState := {}
  free : Nat := 0
  pending : List Instr := []
  deriving DecidableEq, Repr

/-- The machine right after VAUX has risen (R405, R472, R474 step 1): the device in DAWN, the Quench latch set with
source DAWN, TICK not running, every output in STANDBY, every register at its reset value and no command waiting. -/
def State.reset : State := {}

end Sys2Proof.Machine
end

