-- ==== Sys2Proof/Machine/Operands.lean ====
section
/-! DEFINITION. The address map (R495, R496) and the register table: the access class, reset value and defined bits of
every register, written from the register tables of the manual; field extraction; the table regions and their classes. -/
namespace Sys2Proof.Machine

/-- The access classes of R9. -/
inductive Cls where
  | ro | rw | w1c | wo | ls | se
  deriving DecidableEq, Repr

/-- A family of equal registers: base address, two (count, stride) pairs, class, reset value, defined bits. -/
structure RegRow where
  base : Nat
  n1 : Nat
  s1 : Nat
  n2 : Nat
  s2 : Nat
  cls : Cls
  reset : Nat
  defined : Nat
  deriving DecidableEq, Repr

/-- Whether an address is one of the family's registers. -/
def RegRow.covers (r : RegRow) (a : Nat) : Bool :=
  r.base ≤ a && (let d := a - r.base
    let i := if r.n1 ≤ 1 then 0 else min (r.n1 - 1) (d / r.s1)
    let e := d - i * r.s1
    if r.n2 ≤ 1 then e == 0 else e % r.s2 == 0 && decide (e / r.s2 < r.n2))

/-- The registers of window 0x00. -/
def regsSys : List RegRow := [
  ⟨0x0, 1, 0x0, 1, 0x0, .ro, 0x98400000, 0xFFFFFFFF⟩, -- SYS_ID
  ⟨0x4, 1, 0x0, 1, 0x0, .ro, 0x0, 0xFFFFFF07⟩, -- SYS_CODE
  ⟨0x10, 1, 0x0, 1, 0x0, .ro, 0x0, 0x7000007⟩, -- SYS_MODE
  ⟨0x14, 1, 0x0, 1, 0x0, .wo, 0x0, 0xF000000F⟩, -- MODE_CMD
  ⟨0x18, 1, 0x0, 1, 0x0, .ro, 0x10000, 0xFFFF0107⟩, -- SYS_RESET
  ⟨0x100, 1, 0x0, 1, 0x0, .ro, 0x0, 0xFFFFFFFF⟩, -- EVT_HEAD
  ⟨0x104, 1, 0x0, 1, 0x0, .rw, 0x0, 0xFFFFFFFF⟩, -- EVT_READ
  ⟨0x108, 1, 0x0, 1, 0x0, .ro, 0x0, 0xFFFF07FF⟩, -- EVT_STATUS
  ⟨0x800, 1, 0x0, 1, 0x0, .wo, 0x0, 0x1⟩, -- MGMT_DOORBELL
  ⟨0x804, 1, 0x0, 1, 0x0, .ro, 0x0, 0xC00007FF⟩, -- MGMT_STATUS
  ⟨0x808, 1, 0x0, 1, 0x0, .ro, 0x81, 0x1F03FF⟩, -- MGMT_ROLE
  ⟨0x80C, 1, 0x0, 1, 0x0, .rw, 0xE, 0xF⟩, -- SPI_IRQ_MASK
  ⟨0x810, 1, 0x0, 1, 0x0, .ro, 0x0, 0xCFF00000⟩, -- INGOT_STATUS
  ⟨0x814, 1, 0x0, 1, 0x0, .ro, 0x0, 0xFFFFFFFF⟩] -- INGOT_SEQ

/-- The registers of window 0x01. -/
def regsLadle : List RegRow := [
  ⟨0x10000, 1, 0x0, 1, 0x0, .wo, 0x0, 0x31F⟩, -- LADLE_POUR
  ⟨0x10004, 1, 0x0, 1, 0x0, .rw, 0x0, 0xFFFFFFFF⟩, -- LADLE_TARGET_LO
  ⟨0x10008, 1, 0x0, 1, 0x0, .rw, 0x0, 0xFFFFFFFF⟩, -- LADLE_TARGET_HI
  ⟨0x1000C, 1, 0x0, 1, 0x0, .ro, 0x0, 0xFFFFFFC7⟩, -- LADLE_STATUS
  ⟨0x10010, 1, 0x0, 1, 0x0, .ro, 0x0, 0xFF07FF⟩, -- LADLE_CHECK
  ⟨0x10014, 1, 0x0, 1, 0x0, .rw, 0x0, 0x1⟩] -- LADLE_VIEW

/-- The registers of window 0x02. -/
def regsTimebase : List RegRow := [
  ⟨0x20000, 1, 0x0, 1, 0x0, .ls, 0x100, 0x1333⟩, -- TB_REF_CTRL
  ⟨0x20004, 1, 0x0, 1, 0x0, .ro, 0x0, 0xFFFFFF03⟩, -- TB_STATUS
  ⟨0x20008, 1, 0x0, 1, 0x0, .ro, 0x0, 0xFFFFFFFF⟩, -- TB_PHASE_ERR
  ⟨0x20010, 1, 0x0, 1, 0x0, .ro, 0x0, 0xFFFFFFFF⟩, -- TB_TICK_LO
  ⟨0x20014, 1, 0x0, 1, 0x0, .ro, 0x0, 0xFFFFFFFF⟩, -- TB_TICK_HI
  ⟨0x20100, 4, 0x40, 1, 0x0, .ls, 0x1312D00, 0xFFFFFFFF⟩, -- TG_NUM_n
  ⟨0x20104, 4, 0x40, 1, 0x0, .ls, 0x1808003, 0xFF7F7FF⟩, -- TG_CFG_n
  ⟨0x20108, 4, 0x40, 1, 0x0, .ls, 0x0, 0xFFFFFFFF⟩, -- TG_PHASE_n
  ⟨0x2010C, 4, 0x40, 1, 0x0, .ls, 0x0, 0x3FFFFFF⟩, -- TG_LEAD_n
  ⟨0x20110, 4, 0x40, 1, 0x0, .ro, 0x0, 0x7⟩, -- TG_STATUS_n
  ⟨0x20114, 4, 0x40, 1, 0x0, .ro, 0x0, 0xFFFFFFFF⟩, -- TG_ERR_n
  ⟨0x20118, 4, 0x40, 1, 0x0, .ro, 0x0, 0xFFFFFFFF⟩, -- FRAME_CNT_LO_n
  ⟨0x2011C, 4, 0x40, 1, 0x0, .ro, 0x0, 0xFFFFFFFF⟩, -- FRAME_CNT_HI_n
  ⟨0x20120, 4, 0x40, 1, 0x0, .ro, 0x0, 0xFFFFFFFF⟩, -- FLIP_COUNT_n
  ⟨0x20124, 4, 0x40, 1, 0x0, .ro, 0x0, 0xFFFFFFFF⟩, -- FLIP_STATUS_n
  ⟨0x20200, 1, 0x0, 1, 0x0, .ls, 0x0, 0xFF7FF7FF⟩, -- RLV_CFG
  ⟨0x20204, 1, 0x0, 1, 0x0, .ls, 0x0, 0xFFFF⟩, -- RLV_CABLE
  ⟨0x20208, 1, 0x0, 1, 0x0, .ro, 0x0, 0xFFF707FF⟩, -- RLV_STATUS
  ⟨0x20400, 1, 0x0, 1, 0x0, .wo, 0x0, 0xF⟩, -- SLACK_CTRL
  ⟨0x20410, 4, 0x4, 1, 0x0, .ro, 0xFFFFFFFF, 0xFFFFFFFF⟩, -- SLACK_FRAME_MIN_0 to SLACK_FRAME_MIN_3
  ⟨0x20420, 4, 0x4, 1, 0x0, .ro, 0xFFFFFFFF, 0xFFFFFFFF⟩, -- SLACK_RUN_MIN_0 to SLACK_RUN_MIN_3
  ⟨0x20430, 4, 0x4, 1, 0x0, .ro, 0x0, 0xFFFFFFFF⟩, -- LATE_COUNT_0 to LATE_COUNT_3
  ⟨0x20440, 4, 0x4, 1, 0x0, .ls, 0x2000800, 0xFFFFFFFF⟩] -- SLACK_THR_0 to SLACK_THR_3

/-- The registers of window 0x03. -/
def regsInput : List RegRow := [
  ⟨0x30010, 1, 0x0, 1, 0x0, .ls, 0x7F, 0x800001FF⟩, -- PTP_CFG
  ⟨0x30014, 1, 0x0, 1, 0x0, .ro, 0x0, 0x7⟩, -- PTP_STATUS
  ⟨0x30018, 1, 0x0, 1, 0x0, .ro, 0x0, 0xFFFFFFFF⟩, -- PTP_OFS_LO
  ⟨0x3001C, 1, 0x0, 1, 0x0, .ro, 0x0, 0xFFFFFFFF⟩, -- PTP_OFS_HI
  ⟨0x30020, 1, 0x0, 1, 0x0, .ro, 0x0, 0xF7⟩, -- PCIE_STATUS
  ⟨0x30100, 8, 0x40, 1, 0x0, .ls, 0x62100, 0xF3773100⟩, -- IN_CFG_i
  ⟨0x30104, 8, 0x40, 1, 0x0, .ls, 0x8700F00, 0xFFFFFFFF⟩, -- IN_MAX_i
  ⟨0x30108, 8, 0x40, 1, 0x0, .ro, 0x0, 0xE0FFFFFF⟩, -- IN_STATUS_i
  ⟨0x3010C, 8, 0x40, 1, 0x0, .ro, 0x0, 0xFFFFFFFF⟩, -- IN_SIZE_i
  ⟨0x30110, 8, 0x40, 1, 0x0, .ro, 0x0, 0xFFFFFFFF⟩, -- IN_RATE_i
  ⟨0x30118, 8, 0x40, 1, 0x0, .ro, 0x0, 0xFFFFFFFF⟩] -- IN_ERR_i

/-- The registers of window 0x04. -/
def regsSurface : List RegRow := [
  ⟨0x40000, 1, 0x0, 1, 0x0, .wo, 0x0, 0xF0000FFF⟩, -- SURF_CMD
  ⟨0x40004, 1, 0x0, 1, 0x0, .rw, 0x0, 0x7FFFFFF⟩, -- SURF_ARG_BASE
  ⟨0x40008, 1, 0x0, 1, 0x0, .rw, 0x0, 0x7FFFFF⟩, -- SURF_ARG_SIZE
  ⟨0x4000C, 1, 0x0, 1, 0x0, .rw, 0x0, 0x73⟩, -- SURF_ARG_ATTR
  ⟨0x40010, 1, 0x0, 1, 0x0, .ro, 0x0, 0x8F000FFF⟩, -- SURF_CMD_STATUS
  ⟨0x40014, 1, 0x0, 1, 0x0, .ro, 0x0, 0xFFFFFFFF⟩, -- SURF_POOL
  ⟨0x40020, 1, 0x0, 1, 0x0, .ro, 0x0, 0xF8FF0FFF⟩, -- XLATE_FAULT_A
  ⟨0x40024, 1, 0x0, 1, 0x0, .ro, 0x0, 0xFFFFFFFF⟩, -- XLATE_FAULT_B
  ⟨0x40028, 1, 0x0, 1, 0x0, .ro, 0x0, 0xFFFF⟩, -- XLATE_FAULT_C
  ⟨0x40030, 1, 0x0, 1, 0x0, .ro, 0x0, 0xF0000FFF⟩] -- SURF_TLB

/-- The registers of window 0x05. -/
def regsRunner : List RegRow := [
  ⟨0x50000, 1, 0x0, 1, 0x0, .ro, 0x0, 0xFFFFFFFF⟩, -- RUN_LOCK
  ⟨0x50004, 1, 0x0, 1, 0x0, .ro, 0x0, 0xF0F⟩, -- RUN_CHECK
  ⟨0x50008, 1, 0x0, 1, 0x0, .ro, 0x0, 0xFFFFF⟩, -- RUN_BOUND
  ⟨0x50100, 8, 0x10, 1, 0x0, .ls, 0x20008, 0x7F007F⟩, -- RUN_CFG_r
  ⟨0x50104, 16, 0x10, 1, 0x0, .ro, 0x0, 0xFFFFFFFF⟩, -- RUN_STAT_r
  ⟨0x50180, 8, 0x10, 1, 0x0, .ls, 0x400008, 0x7F007F⟩] -- RUN_CFG_r

/-- The registers of window 0x06. -/
def regsHbm : List RegRow := [
  ⟨0x60000, 1, 0x0, 1, 0x0, .se, 0x0, 0x3⟩, -- HBM_CFG
  ⟨0x60004, 1, 0x0, 1, 0x0, .ls, 0x0, 0x3⟩, -- HBM_FSP
  ⟨0x60008, 1, 0x0, 1, 0x0, .ls, 0xA0404, 0xFF0F07⟩, -- HBM_REF
  ⟨0x6000C, 1, 0x0, 1, 0x0, .ls, 0x40, 0xFFFF⟩, -- HBM_NR
  ⟨0x60010, 1, 0x0, 1, 0x0, .ls, 0x3E8, 0x8000FFFF⟩, -- HBM_SR
  ⟨0x60020, 1, 0x0, 1, 0x0, .ro, 0x0, 0x810F0703⟩, -- HBM_STATUS
  ⟨0x60024, 1, 0x0, 1, 0x0, .ro, 0x0, 0xFFFF⟩, -- HBM_TEMP
  ⟨0x60030, 1, 0x0, 1, 0x0, .ro, 0x0, 0xFFFE3FFF⟩, -- HBM_ERR_A
  ⟨0x60034, 1, 0x0, 1, 0x0, .ro, 0x0, 0xF1F⟩, -- HBM_ERR_B
  ⟨0x60100, 16, 0x4, 1, 0x0, .ro, 0x0, 0x80FFFFFF⟩, -- HBM_DEBT_h
  ⟨0x60140, 16, 0x4, 1, 0x0, .ro, 0x0, 0xFFFFFFFF⟩] -- HBM_ECC_h

/-- The registers of window 0x07. -/
def regsComposer : List RegRow := [
  ⟨0x70000, 1, 0x0, 1, 0x0, .ro, 0x80000, 0xFFFFF⟩, -- COMP_UTIL
  ⟨0x70004, 1, 0x0, 1, 0x0, .ls, 0x200, 0x8000FFFF⟩, -- COMP_CFG
  ⟨0x70008, 1, 0x0, 1, 0x0, .ro, 0x0, 0x37F0F⟩, -- COMP_CHECK
  ⟨0x7000C, 1, 0x0, 1, 0x0, .wo, 0x0, 0x7F0FFF⟩, -- LAYER_PRESENT
  ⟨0x70010, 1, 0x0, 1, 0x0, .ro, 0x0, 0xB07F3FFF⟩, -- COMP_FAULT_A
  ⟨0x70014, 1, 0x0, 1, 0x0, .ro, 0x0, 0xFFF01FFF⟩, -- COMP_FAULT_B
  ⟨0x70018, 1, 0x0, 1, 0x0, .ro, 0x0, 0xFFFFFFFF⟩, -- COMP_SPRUE_STAT
  ⟨0x70100, 4, 0x40, 1, 0x0, .ls, 0x9C40001, 0xFFFFFF13⟩, -- COMP_CTRL_n
  ⟨0x70104, 4, 0x40, 1, 0x0, .ls, 0x0, 0xFFFFFFFF⟩, -- COMP_BG_RG_n
  ⟨0x70108, 4, 0x40, 1, 0x0, .ls, 0x0, 0xFFFF⟩, -- COMP_BG_B_n
  ⟨0x7010C, 4, 0x40, 1, 0x0, .ro, 0x0, 0x7FFF3FFF⟩, -- COMP_QBASE_n
  ⟨0x70110, 4, 0x40, 1, 0x0, .ro, 0x0, 0xFFFFFFF⟩, -- COMP_BUDGET_n
  ⟨0x70114, 4, 0x40, 1, 0x0, .ro, 0x0, 0x7FFF3F07⟩, -- COMP_STATUS_n
  ⟨0x70118, 4, 0x40, 1, 0x0, .ro, 0x0, 0xFFFFFFFF⟩, -- COMP_STALL_n
  ⟨0x71000, 128, 0x4, 1, 0x0, .ro, 0x0, 0xFFFF0007⟩] -- LAYER_STATUS_L

/-- The registers of window 0x08. -/
def regsPixel : List RegRow := [
  ⟨0x80000, 4, 0x4000, 1, 0x0, .ls, 0x2200, 0x773F⟩, -- PIX_CTRL_n
  ⟨0x80004, 4, 0x4000, 1, 0x0, .ls, 0x0, 0xFFF⟩, -- PIX_CHAN_n
  ⟨0x80008, 4, 0x4000, 1, 0x0, .ls, 0x0, 0x1FFF1FFF⟩, -- PIX_EDGE_LR_n
  ⟨0x8000C, 4, 0x4000, 1, 0x0, .ls, 0x0, 0xFFF0FFF⟩, -- PIX_EDGE_TB_n
  ⟨0x80010, 4, 0x4000, 1, 0x0, .ro, 0x0, 0xF7F0F⟩, -- PIX_CHECK_n
  ⟨0x80014, 4, 0x4000, 1, 0x0, .ro, 0x0, 0x3F0001⟩, -- PIX_STATUS_n
  ⟨0x80018, 4, 0x4000, 1, 0x0, .ro, 0x0, 0xFFFFFFFF⟩] -- PIX_WARP_WAIT_n

/-- The registers of window 0x09. -/
def regsPlane : List RegRow := [
  ⟨0x90100, 4, 0x40, 1, 0x0, .ls, 0x0, 0xFFF0000⟩, -- FS_BASE_n
  ⟨0x90104, 4, 0x40, 1, 0x0, .ls, 0x0, 0xFFF0000⟩, -- FS_SIZE_n
  ⟨0x90108, 4, 0x40, 1, 0x0, .ls, 0x0, 0xFFFF1FFF⟩, -- FS_LAYOUT_n
  ⟨0x9010C, 4, 0x40, 1, 0x0, .ls, 0x4000000, 0x7033F3F⟩, -- DITHER_CTRL_n
  ⟨0x90110, 4, 0x40, 1, 0x0, .ro, 0x0, 0xFFFFF⟩, -- ENC_STATUS_n
  ⟨0x90114, 4, 0x40, 1, 0x0, .ro, 0x0, 0xFFF077F⟩, -- CB_CHECK_n
  ⟨0x90118, 4, 0x40, 1, 0x0, .ro, 0x0, 0xFFFFFF⟩] -- CB_GAP_n

/-- The registers of window 0x0A. -/
def regsSeq : List RegRow := [
  ⟨0xA0100, 4, 0x40, 1, 0x0, .ls, 0x0, 0xFF77⟩, -- SEQ_SELECT_n
  ⟨0xA0104, 4, 0x40, 1, 0x0, .ls, 0x32001E0, 0xFFFFFFFF⟩, -- SEQ_TIMING_n
  ⟨0xA0108, 4, 0x40, 1, 0x0, .ls, 0xC80190, 0xFFFFFFFF⟩, -- SEQ_LOAD_n
  ⟨0xA010C, 4, 0x40, 1, 0x0, .ls, 0x0, 0x1F1F⟩, -- SEQ_SKEW_n
  ⟨0xA0110, 4, 0x40, 1, 0x0, .ro, 0x0, 0xFFFF1777⟩, -- SEQ_STATUS_n
  ⟨0xA0114, 4, 0x40, 1, 0x0, .ro, 0x0, 0x7FF0F7F⟩] -- SEQ_CHECK_n

/-- The registers of window 0x0B. -/
def regsPort : List RegRow := [
  ⟨0xB0100, 4, 0x40, 1, 0x0, .ls, 0x20, 0x9FFF1F33⟩, -- PORT_CFG_n
  ⟨0xB0104, 4, 0x40, 1, 0x0, .ls, 0x0, 0xFFFFFFFF⟩, -- PORT_POL_n
  ⟨0xB0108, 4, 0x40, 1, 0x0, .wo, 0x0, 0xFFFF⟩, -- PORT_CMD_n
  ⟨0xB010C, 4, 0x40, 1, 0x0, .ro, 0x0, 0xE7FFFFFF⟩, -- PORT_STATUS_n
  ⟨0xB0110, 4, 0x40, 1, 0x0, .ro, 0x0, 0xFFFFFFFF⟩, -- PORT_ERR_n
  ⟨0xB0114, 4, 0x40, 1, 0x0, .w1c, 0x0, 0xFFFFFFFF⟩, -- PORT_LANE_ERR_n
  ⟨0xB0118, 4, 0x40, 1, 0x0, .ls, 0x48004E20, 0xFFFFFFFF⟩, -- SCAN_FAX_n
  ⟨0xB011C, 4, 0x40, 1, 0x0, .ls, 0xE666, 0xFFFFFFFF⟩, -- SCAN_UACT_n
  ⟨0xB0120, 4, 0x40, 1, 0x0, .ls, 0xC0000000, 0xC3FFFFFF⟩, -- SCAN_VACT_n
  ⟨0xB0124, 4, 0x40, 1, 0x0, .ls, 0x0, 0xFFFFFFFF⟩, -- SCAN_VTIME_n
  ⟨0xB0128, 4, 0x40, 1, 0x0, .ls, 0x0, 0xFFFFFFFF⟩, -- SCAN_VCODE_n
  ⟨0xB012C, 4, 0x40, 1, 0x0, .ls, 0x28000000, 0xFFFFFFFF⟩, -- SCAN_JLAT_n
  ⟨0xB0130, 4, 0x40, 1, 0x0, .se, 0x1032C0, 0xFFFFFFF⟩, -- SCAN_BW_n
  ⟨0xB0134, 4, 0x40, 1, 0x0, .ro, 0x0, 0xFFFF0F37⟩, -- SCAN_STATUS_n
  ⟨0xB0138, 4, 0x40, 1, 0x0, .ro, 0x0, 0xFFFFFFFF⟩, -- SCAN_PERIOD_n
  ⟨0xB013C, 4, 0x40, 1, 0x0, .ro, 0x0, 0xFFFFFFFF⟩] -- SCAN_ERR_n

/-- The registers of window 0x0C. -/
def regsDrive : List RegRow := [
  ⟨0xC0100, 24, 0x20, 1, 0x0, .ls, 0x0, 0x83777000⟩, -- STR_MAP_nn
  ⟨0xC0104, 24, 0x20, 1, 0x0, .se, 0x0, 0xFFFFFFFF⟩, -- STR_LIMIT_nn
  ⟨0xC0108, 24, 0x20, 1, 0x0, .ls, 0x20502190, 0xFFFFFFFF⟩, -- STR_SW_nn
  ⟨0xC010C, 24, 0x20, 1, 0x0, .ro, 0x0, 0xFFFF003F⟩, -- STR_STATUS_nn
  ⟨0xC0110, 24, 0x20, 1, 0x0, .ro, 0x0, 0xFFF0FFFF⟩, -- STR_MEAS_nn
  ⟨0xC0400, 8, 0x10, 1, 0x0, .ls, 0x0, 0x8300003F⟩, -- PD_MAP_k
  ⟨0xC0404, 8, 0x10, 1, 0x0, .ro, 0x0, 0xFFFFFFFF⟩, -- PD_STATUS_k
  ⟨0xC0480, 1, 0x0, 1, 0x0, .w1c, 0x0, 0xFF⟩, -- PD_FAULT
  ⟨0xC0500, 4, 0x20, 1, 0x0, .ls, 0x40334000, 0xFFFFFFC0⟩, -- LOOP_CTRL_n
  ⟨0xC0504, 4, 0x20, 1, 0x0, .ro, 0x80000000, 0xFFFF8700⟩, -- OUT_SCALE_n
  ⟨0xC0600, 1, 0x0, 1, 0x0, .ls, 0xAAAA, 0xFFFF⟩, -- LG_POLICY
  ⟨0xC0700, 6, 0x10, 1, 0x0, .ls, 0x0, 0x80001700⟩, -- LB_CFG_b
  ⟨0xC0704, 6, 0x10, 1, 0x0, .se, 0x323C8046, 0xFFFFFFFF⟩, -- LB_DERATE_b
  ⟨0xC0708, 6, 0x10, 1, 0x0, .ro, 0x8000, 0xFFFEFFFF⟩, -- LB_STATUS_b
  ⟨0xC0800, 1, 0x0, 1, 0x0, .ls, 0xCCD0CCD, 0xFFFFFFFF⟩, -- DIAG_CTRL
  ⟨0xC0804, 1, 0x0, 1, 0x0, .ls, 0x3E81402, 0xFFFFFFFF⟩, -- PACE_CTRL
  ⟨0xC0808, 1, 0x0, 1, 0x0, .ro, 0x0, 0xFFFF1F01⟩] -- PACE_STATUS

/-- The registers of window 0x0D. -/
def regsThermal : List RegRow := [
  ⟨0xD0000, 1, 0x0, 1, 0x0, .ro, 0x0, 0xFFF0777⟩, -- THERM_STATUS
  ⟨0xD0004, 1, 0x0, 1, 0x0, .ro, 0x0, 0x17FFFFF⟩, -- THERM_MAX
  ⟨0xD0008, 1, 0x0, 1, 0x0, .se, 0x10020, 0xFFFFFF⟩, -- TEMPER_CTRL
  ⟨0xD0010, 1, 0x0, 1, 0x0, .ro, 0x0, 0xFFFFFFFF⟩, -- TS_FAILED_LO
  ⟨0xD0014, 1, 0x0, 1, 0x0, .ro, 0x0, 0xFFFFFFFF⟩, -- TS_FAILED_HI
  ⟨0xD0020, 1, 0x0, 1, 0x0, .ls, 0x20A1E, 0xFFFFFF⟩, -- DROOP_CTRL
  ⟨0xD0024, 1, 0x0, 1, 0x0, .ro, 0x0, 0xBFFFFFFF⟩, -- DROOP_STATUS
  ⟨0xD0028, 1, 0x0, 1, 0x0, .ro, 0x0, 0x3FFFFFF⟩, -- WAKE_AWAKE
  ⟨0xD002C, 1, 0x0, 1, 0x0, .ro, 0x0, 0x3FFFFFF⟩, -- WAKE_PEND
  ⟨0xD0030, 1, 0x0, 1, 0x0, .se, 0x1000, 0x1700⟩, -- FLASH_CFG
  ⟨0xD0034, 1, 0x0, 1, 0x0, .ro, 0x0, 0xC07FFFFF⟩, -- FLASH_STATUS
  ⟨0xD0100, 64, 0x4, 1, 0x0, .ro, 0x0, 0xFFF3FFFF⟩, -- TS_READ_i
  ⟨0xD0200, 12, 0x10, 1, 0x0, .ls, 0xF6E4000, 0xFFFFFFFF⟩, -- EXT_CFG_x
  ⟨0xD0204, 12, 0x10, 1, 0x0, .se, 0xFFFF, 0xFFFF⟩, -- EXT_THR_x
  ⟨0xD0208, 12, 0x10, 1, 0x0, .ro, 0x0, 0x3FFFF⟩] -- EXT_READ_x

/-- The registers of window 0x0E. -/
def regsAnneal : List RegRow := [
  ⟨0xE0000, 1, 0x0, 1, 0x0, .wo, 0x0, 0xFF0000FF⟩, -- ANN_CTRL
  ⟨0xE0004, 1, 0x0, 1, 0x0, .se, 0xA050400, 0xFFFFFFFF⟩, -- ANN_LIMIT
  ⟨0xE0008, 1, 0x0, 1, 0x0, .ls, 0xF0, 0x1FFF⟩, -- ANN_CFG
  ⟨0xE000C, 1, 0x0, 1, 0x0, .ro, 0x0, 0xFFFF03F7⟩, -- ANN_STATUS
  ⟨0xE0010, 1, 0x0, 1, 0x0, .ro, 0x0, 0x1FFF07⟩, -- ANN_RESULT
  ⟨0xE0014, 1, 0x0, 1, 0x0, .ro, 0x0, 0xFFFFFFFF⟩] -- ANN_BLOCK

/-- The registers of window 0x0F. -/
def regsGuard : List RegRow := [
  ⟨0xF0000, 1, 0x0, 1, 0x0, .ro, 0x80B00800, 0xF0F00FFF⟩, -- GUARD_STATUS
  ⟨0xF0004, 1, 0x0, 1, 0x0, .wo, 0x0, 0x3⟩, -- GUARD_CMD
  ⟨0xF0008, 1, 0x0, 1, 0x0, .se, 0x3E8, 0xF000FFFF⟩, -- ILK_CFG
  ⟨0xF000C, 1, 0x0, 1, 0x0, .ro, 0x0, 0xFFFF000F⟩, -- ILK_STATUS
  ⟨0xF0010, 1, 0x0, 1, 0x0, .ro, 0x0, 0xFFFFF3FF⟩, -- TWIN_STATUS
  ⟨0xF0100, 4, 0x40, 1, 0x0, .se, 0x0, 0xFFFFFFFF⟩, -- ZM_EXPECT_n
  ⟨0xF0104, 4, 0x40, 1, 0x0, .ro, 0x0, 0x8000FFFF⟩, -- ZM_STATUS_n
  ⟨0xF0108, 4, 0x40, 1, 0x0, .ro, 0x0, 0xFFFFFFFF⟩, -- SIG_STATUS_n
  ⟨0xF1000, 4, 0x400, 16, 0x20, .ls, 0x0, 0xFFFFFFFF⟩, -- SIG_POS_n_r
  ⟨0xF1004, 4, 0x400, 16, 0x20, .ls, 0x0, 0xFFFFFFFF⟩, -- SIG_SIZE_n_r
  ⟨0xF1008, 4, 0x400, 16, 0x20, .ls, 0x0, 0xFF01333F⟩, -- SIG_CFG_n_r
  ⟨0xF100C, 4, 0x400, 16, 0x20, .ls, 0x0, 0xFFFFFFFF⟩, -- SIG_EXPECT_n_r
  ⟨0xF1010, 4, 0x400, 16, 0x20, .ro, 0x0, 0xFFFFFFFF⟩] -- SIG_LAST_n_r

/-- The registers of window 0x10. -/
def regsCrucible : List RegRow := [
  ⟨0x100000, 4, 0x4, 1, 0x0, .ro, 0x0, 0xFFFFFFFF⟩, -- CRUC_ID_k
  ⟨0x100010, 1, 0x0, 1, 0x0, .ro, 0x0, 0xFF3F077F⟩, -- CRUC_STATUS
  ⟨0x100020, 1, 0x0, 1, 0x0, .se, 0x1105C, 0x800FFFFF⟩, -- SEAL_CFG
  ⟨0x100024, 1, 0x0, 1, 0x0, .se, 0x0, 0xFFFFFF⟩, -- SEAL_OUI
  ⟨0x100030, 1, 0x0, 1, 0x0, .wo, 0x0, 0xF000FFFF⟩, -- KDM_CMD
  ⟨0x100034, 1, 0x0, 1, 0x0, .ro, 0x0, 0x800FFFFF⟩, -- KDM_RESULT
  ⟨0x100040, 1, 0x0, 1, 0x0, .rw, 0x0, 0xFFFF0FFF⟩, -- SEAL_HOST
  ⟨0x100100, 4, 0x40, 1, 0x0, .se, 0x1800100, 0x83FF033F⟩, -- MARK_CFG_n
  ⟨0x100104, 4, 0x40, 1, 0x0, .se, 0x1000, 0x3FFF⟩, -- MARK_DELTA_n
  ⟨0x100108, 4, 0x40, 1, 0x0, .ro, 0x0, 0xC0000000⟩, -- MARK_STATUS_n
  ⟨0x100200, 1, 0x0, 1, 0x0, .se, 0x10100, 0x3FFFF⟩, -- JRN_CFG
  ⟨0x100204, 1, 0x0, 1, 0x0, .ro, 0x0, 0xFFFFFFFF⟩, -- JRN_STATUS
  ⟨0x100300, 1, 0x0, 1, 0x0, .ro, 0x0, 0xFFFF001F⟩] -- TAMPER_STATUS

/-- The register families of a block window. -/
def regsOf (w : Nat) : List RegRow :=
  match w with
  | 0 => regsSys
  | 1 => regsLadle
  | 2 => regsTimebase
  | 3 => regsInput
  | 4 => regsSurface
  | 5 => regsRunner
  | 6 => regsHbm
  | 7 => regsComposer
  | 8 => regsPixel
  | 9 => regsPlane
  | 10 => regsSeq
  | 11 => regsPort
  | 12 => regsDrive
  | 13 => regsThermal
  | 14 => regsAnneal
  | 15 => regsGuard
  | 16 => regsCrucible
  | _ => []

/-- The register family an address belongs to; window 8 is divided by output (R495). -/
def regRow? (a : Nat) : Option RegRow := if a < 0x110000 then (regsOf (a / 0x10000)).find? (·.covers a) else none

/-- The neighbours of TSENSE_i in the ROM table (R350). -/
def defaultNeighbours (i : Nat) : List Nat :=
  if i < 40 then
    (if 8 ≤ i then [i - 8] else []) ++ (if i % 8 ≠ 0 then [i - 1] else []) ++ (if i % 8 ≠ 7 then [i + 1] else [])
      ++ (if i < 32 then [i + 8] else [])
  else if i < 48 then
    (if 44 ≤ i then [i - 4] else []) ++ (if i % 4 ≠ 0 then [i - 1] else []) ++ (if i % 4 ≠ 3 then [i + 1] else [])
      ++ (if i < 44 then [i + 4] else [])
  else if i < 60 then
    ((List.range 3).map (fun k => i / 3 * 3 + k)).filter (fun j => j ≠ i) ++ (if 51 ≤ i then [i - 3] else [])
      ++ (if i < 57 then [i + 3] else [])
  else [60, 61, 62, 63].filter (fun j => j ≠ i)

/-- The default gradient limit of TSENSE_i, in units of 0.25 °C (R350). -/
def defaultGrad (i : Nat) : Nat := if i < 40 then 16 else if i < 48 then 20 else if i < 60 then 24 else 32

/-- Byte `b` of the ROM neighbour entry of TSENSE_i (R355). -/
def neighbourByte (i b : Nat) : Nat :=
  if b < 6 then (defaultNeighbours i).getD b 0xFF else if b = 6 then defaultGrad i else 0

/-- Offsets of the scaler coefficient table within an output's PIXEL table part (R212). -/
def scalerLo : Nat := 0x80000
/-- End of the scaler coefficient table. -/
def scalerHi : Nat := 0x82000

/-- Reset contents of the table words (R54, R212, R347, R355): ROM tables are free values, tickets are 16 each, the
neighbour table is loaded by Dawn; other tables hold 0 (DESIGN CHOICE, notes/assumptions/4.md). -/
def tableDefault (a : Nat) : Word :=
  if 0x0A700000 ≤ a ∧ a < 0x0A708000 then
    let o := a - 0x0A700000
    let t := fun (b : Nat) => (Config.ditherRom (b / 0x2000) (b % 0x2000 / 128) (b % 128 / 2)).toNat
    BitVec.ofNat 32 (t o + 65536 * t (o + 2))
  else if 0x06000000 ≤ a ∧ a < 0x06000100 then 0x10101010
  else if 0x0E000000 ≤ a ∧ a < 0x0E000200 then
    let i := (a - 0x0E000000) / 8
    let b := a % 8
    BitVec.ofNat 32 (neighbourByte i b + 256 * neighbourByte i (b + 1) + 65536 * neighbourByte i (b + 2)
      + 16777216 * neighbourByte i (b + 3))
  else if 0x09000000 ≤ a ∧ a < 0x0A000000 then
    (if scalerLo ≤ a % 0x400000 ∧ a % 0x400000 < scalerHi then Config.scalerRom (a % 0x400000 - scalerLo) else 0)
  else 0

/-- What a word of the map reads as when nothing was ever written there: the register's reset value, or the table's. -/
def cfgDefault (a : Nat) : Word :=
  match regRow? a with
  | some r => BitVec.ofNat 32 r.reset
  | none => tableDefault a

/-- The word in force at a byte address of a word map. -/
def WordMap.get (m : WordMap) (a : Nat) : Word := Sparse.get cfgDefault m (a / 4 * 4)
/-- The map after a word is written. -/
def WordMap.set (m : WordMap) (a : Nat) (v : Word) : WordMap := Sparse.set cfgDefault m (a / 4 * 4) v
/-- A word as a number. -/
def WordMap.nat (m : WordMap) (a : Nat) : Nat := (m.get a).toNat
/-- Bits `hi` down to `lo` of the word at `a`. -/
def WordMap.fld (m : WordMap) (a hi lo : Nat) : Nat := nbits (m.nat a) hi lo
/-- Bit `i` of the word at `a`. -/
def WordMap.bit (m : WordMap) (a i : Nat) : Bool := nbit (m.nat a) i
/-- The byte at `a`. -/
def WordMap.byte (m : WordMap) (a : Nat) : Nat := nbits (m.nat a) (8 * (a % 4) + 7) (8 * (a % 4))
/-- The halfword at an even `a`. -/
def WordMap.half (m : WordMap) (a : Nat) : Nat := m.byte a + 256 * m.byte (a + 1)
/-- The bytes from `a` upward. -/
def WordMap.bytes (m : WordMap) (a n : Nat) : List Byte := (List.range n).map fun i => BitVec.ofNat 8 (m.byte (a + i))

end Sys2Proof.Machine
end

