-- ==== Sys2Proof/Machine/Planes.lean ====
section
/-! DEFINITION. Amplitude-weighted plane coding (R43 to R64): plane sets, weights, level tables, codebook checks, the
dither and the frame-store addresses, as functions of a word map. -/
namespace Sys2Proof.Machine

/-! ### Efficiency and weights -/

/-- E_k of string `nn` (R44). -/
def effEntry (m : WordMap) (nn k : Nat) : Nat := m.half (0x0D000000 + nn * 0x80 + 2 * k)
/-- A_k = round(k × 65535 / 63) (R44). -/
def effAmp (k : Nat) : Nat := roundDiv (k * 65535) 63
/-- The efficiency of a string at amplitude `A` of 65,535 (R45). -/
def stringEff (m : WordMap) (nn : Nat) (A : Rat) : Rat :=
  let k := (A * 63 / 65535).floor.toNat
  if k ≥ 63 then (effEntry m nn 63 : Rat) / 0x8000
  else
    let e0 : Rat := effEntry m nn k
    let e1 : Rat := effEntry m nn (k + 1)
    (e0 + (e1 - e0) * (A - effAmp k) / ((effAmp (k + 1) : Rat) - effAmp k)) / 0x8000

/-- STR_MAP_nn. -/
def aStrMap (nn : Nat) : Nat := 0xC0100 + 0x20 * nn
/-- Whether string `nn` is enabled and mapped to channel `c` of output `o`. -/
def strOn (m : WordMap) (o c nn : Nat) : Bool :=
  m.bit (aStrMap nn) 31 && m.fld (aStrMap nn) 25 24 == o && m.fld (aStrMap nn) 22 20 == c
/-- The enabled strings of a light channel. -/
def chanStrings (m : WordMap) (o c : Nat) : List Nat := (List.range 24).filter (strOn m o c)

/-- The sum of rationals over a list. -/
def sumRat {α : Type} (f : α → Rat) : List α → Rat
  | [] => 0
  | a :: r => f a + sumRat f r

/-- The efficiency of a light channel at amplitude `A` (R522). -/
def chanEff (z : Snapshot) (o c A : Nat) : Rat :=
  let l := chanStrings z.cfg o c
  if l.isEmpty then 1
  else
    let w := sumRat (fun nn => nth z.flux nn 0) l
    if w = 0 then sumRat (fun nn => stringEff z.cfg nn A) l / l.length
    else sumRat (fun nn => nth z.flux nn 0 * stringEff z.cfg nn A) l / w

/-! ### Plane sets and codebooks -/

/-- The descriptor address of plane set `t` of output `o` (R46). -/
def aPlaneSet (o t : Nat) : Nat := 0x0A600000 + o * 0x2000 + t * 0x400
def psNchan (m : WordMap) (o t : Nat) : Nat := m.byte (aPlaneSet o t)
def psCount (m : WordMap) (o t c : Nat) : Nat := m.byte (aPlaneSet o t + 1 + c)
def psDuration (m : WordMap) (o t j : Nat) : Nat := m.fld (aPlaneSet o t + 16 + 8 * j) 23 0
def psMajor (m : WordMap) (o t j : Nat) : Bool := m.bit (aPlaneSet o t + 16 + 8 * j) 24
def psAmp (m : WordMap) (o t j : Nat) : Nat := m.fld (aPlaneSet o t + 20 + 8 * j) 15 0
/-- The first slot of channel `c` (R47). -/
def psBase (m : WordMap) (o t : Nat) : Nat → Nat
  | 0 => 0
  | c + 1 => psBase m o t c + psCount m o t c
/-- The slot total of a plane set (R47). -/
def psSlots (m : WordMap) (o t : Nat) : Nat := psBase m o t (min 6 (psNchan m o t))
/-- The light channel of slot `j` (R47). -/
def psChanOf (m : WordMap) (o t j : Nat) : Nat :=
  (List.range 6).foldl (fun a c => if psBase m o t c ≤ j then c else a) 0

/-- The weight of slot `j`, in full-scale ticks (R43). -/
def planeWeight (z : Snapshot) (o t j : Nat) : Rat :=
  let A := psAmp z.cfg o t j
  (psDuration z.cfg o t j : Rat) * (A : Rat) / 65535 * chanEff z o (psChanOf z.cfg o t j) A

/-- The codebook address of channel `c` of plane set `t` (R48). -/
def aCodebook (o t c : Nat) : Nat := 0x0A000000 + o * 0x180000 + t * 0x30000 + c * 0x8000
def cbCode (m : WordMap) (o t c i : Nat) : Nat := m.nat (aCodebook o t c + 16 + 4 * i)
def cbMaxGap (m : WordMap) (o t c : Nat) : Nat := m.fld (aCodebook o t c + 8) 23 0

/-- The weights of a channel's planes, in slot order. -/
def chanWeights (z : Snapshot) (o t c : Nat) : List Rat :=
  (List.range (psCount z.cfg o t c)).map fun p => planeWeight z o t (psBase z.cfg o t c + p)
/-- The sum of the weights of the planes set in a code. -/
def codeWeight (ws : List Rat) (code : Nat) : Rat :=
  sumRat (fun p => if nbit code p then nth ws p 0 else 0) (List.range ws.length)
/-- L_i of a codebook (R49). -/
def levelOf (z : Snapshot) (o t c i : Nat) : Nat :=
  let ws := chanWeights z o t c
  (roundRat (codeWeight ws (cbCode z.cfg o t c i) / sumRat id ws * 0xFFFF00)).toNat

/-- The largest index whose level does not exceed `V`, by bisection over the non-falling levels. -/
def findIndex (level : Nat → Nat) (V : Nat) : Nat → Nat → Nat → Nat
  | 0, lo, _ => lo
  | fuel + 1, lo, hi =>
    if hi ≤ lo then lo
    else
      let mid := (lo + hi + 1) / 2
      if level mid ≤ V then findIndex level V fuel mid hi else findIndex level V fuel lo (mid - 1)

/-- The dither's selection of an index from a pixel value and a threshold (R53), with reduced dither's truncation (R55). -/
def selectIndex (level : Nat → Nat) (v t : Nat) (reduced : Bool) : Nat :=
  let V := v * 256
  let i := findIndex level V 13 0 4095
  if i = 4095 ∨ level i = V then i
  else
    let f := min 65535 ((V - level i) * 65536 / (level (i + 1) - level i))
    let f' := if reduced then f / 256 else f
    let t' := if reduced then t / 256 else t
    if t' < f' then i + 1 else i

/-- The index after the cap at the zone limit (R57). -/
def capIndex (level : Nat → Nat) (i z : Nat) : Nat := min i (findIndex level (z * 256) 13 0 4095)

/-- The dither tile's threshold (R54). -/
def ditherAt (m : WordMap) (phase y x : Nat) : Nat := m.half (0x0A700000 + phase * 0x2000 + y * 128 + x * 2)
/-- DITHER_CTRL_n. -/
def aDither (o : Nat) : Nat := 0x9010C + 0x40 * o
/-- The threshold of light channel `c` at pixel (x, y) (R54). -/
def threshold (m : WordMap) (o c phase x y : Nat) : Nat :=
  ditherAt m phase ((y + m.fld (aDither o) 13 8 + 29 * c) % 64) ((x + m.fld (aDither o) 5 0 + 17 * c) % 64)
/-- The marking strength under reduced dither: a multiple of 256, at least 256 when not zero (R56). -/
def markDelta (delta : Nat) (reduced : Bool) : Nat :=
  if reduced ∧ delta ≠ 0 then max 256 ((delta + 128) / 256 * 256) else delta
/-- The threshold at a marked pixel (R56). -/
def markThreshold (t : Nat) (chip : Int) (delta : Nat) : Nat := clampNat 65535 ((t : Int) - chip * delta)

/-- The code of one light channel of a PLANE pixel (R52): value, zone limit, threshold after marking. -/
def encodePixel (z : Snapshot) (o t c v zlim thr : Nat) (reduced : Bool) : Nat :=
  let level := levelOf z o t c
  cbCode z.cfg o t c (capIndex level (selectIndex level v thr reduced) zlim)

/-! ### Frame store layout -/

def aFsBase (o : Nat) : Nat := 0x90100 + 0x40 * o
def aFsSize (o : Nat) : Nat := 0x90104 + 0x40 * o
def aFsLayout (o : Nat) : Nat := 0x90108 + 0x40 * o
def fsBase (m : WordMap) (o : Nat) : Nat := m.fld (aFsBase o) 27 16 * 0x10000
def fsSize (m : WordMap) (o : Nat) : Nat := m.fld (aFsSize o) 27 16 * 0x10000
def fsLinear (m : WordMap) (o : Nat) : Bool := m.bit (aFsLayout o) 31
def fsChannels (m : WordMap) (o : Nat) : Nat := m.fld (aFsLayout o) 30 28
def fsHeight (m : WordMap) (o : Nat) : Nat := m.fld (aFsLayout o) 27 16
def fsWidth (m : WordMap) (o : Nat) : Nat := m.fld (aFsLayout o) 12 0

/-- ROW_BYTES of a plane (R59). -/
def rowBytes (m : WordMap) (o : Nat) : Nat := ceilDiv (fsWidth m o) 128 * 16
/-- PLANE_BYTES (R59). -/
def planeBytes (m : WordMap) (o : Nat) : Nat := rowBytes m o * fsHeight m o
/-- LINE_BYTES of a SCAN partition (R61). -/
def lineBytes (m : WordMap) (o : Nat) : Nat := ceilDiv (fsWidth m o * fsChannels m o * 2) 64 * 64
/-- BUF_BYTES of a PLANE partition with plane set `t` (R59). -/
def bufBytesPlane (m : WordMap) (o t : Nat) : Nat := psSlots m o t * planeBytes m o
/-- BUF_BYTES of a SCAN partition (R61). -/
def bufBytesScan (m : WordMap) (o : Nat) : Nat := lineBytes m o * fsHeight m o
/-- The byte that holds pixel `x` of row `y` of slot `j` in buffer `b` (R59); the bit is `x % 8`. -/
def planeAddr (m : WordMap) (o t b j y x : Nat) : Nat :=
  fsBase m o + b * bufBytesPlane m o t + j * planeBytes m o + y * rowBytes m o + x / 8
/-- The first byte of channel `c` of pixel (x, y) in buffer `b` of a SCAN partition (R61). -/
def scanAddr (m : WordMap) (o b y x c : Nat) : Nat :=
  fsBase m o + b * bufBytesScan m o + y * lineBytes m o + (x * fsChannels m o + c) * 2

/-! ### Output mode and port rate -/

def aPortCfg (o : Nat) : Nat := 0xB0100 + 0x40 * o
/-- PORT_CFG_n MODE: true for SCAN. -/
def isScan (m : WordMap) (o : Nat) : Bool := m.bit (aPortCfg o) 31
/-- The lane count of a port; 0 for the reserved code 3 (R81). -/
def portLanes (m : WordMap) (o : Nat) : Nat := [8, 16, 32, 0].getD (m.fld (aPortCfg o) 5 4) 0
/-- The lane rate in Mbit/s. -/
def portRate (m : WordMap) (o : Nat) : Nat := [12500, 10000, 6250, 3125].getD (m.fld (aPortCfg o) 1 0) 0
/-- Ticks that a load of `n` bits takes at B = lanes × rate × 2.5 × 64 / 66 bits per tick (R81); none when B is 0. -/
def loadTicks (m : WordMap) (o n : Nat) : Option Nat :=
  let b := portLanes m o * portRate m o * 2
  if b = 0 then none else some (ceilDiv (n * 825) b)

/-! ### The checks of R50 -/

/-- SEQ_SELECT_n and its fields. -/
def aSeqSelect (o : Nat) : Nat := 0xA0100 + 0x40 * o
def seqProg (m : WordMap) (o : Nat) : Nat := m.fld (aSeqSelect o) 2 0
def seqStillProg (m : WordMap) (o : Nat) : Nat := m.fld (aSeqSelect o) 6 4
def seqResident (m : WordMap) (o p : Nat) : Bool := m.bit (aSeqSelect o) (8 + p)
def residents (m : WordMap) (o : Nat) : List Nat := (List.range 8).filter (seqResident m o)
/-- The address of program `p` of output `o` (R73). -/
def aProg (o p : Nat) : Nat := 0x0B000000 + o * 0x20000 + p * 0x4000
def progPlaneSet (m : WordMap) (o p : Nat) : Nat := m.byte (aProg o p + 2)
def progKind (m : WordMap) (o p : Nat) : Nat := m.byte (aProg o p + 6)
def progNblocks (m : WordMap) (o p : Nat) : Nat := m.byte (aProg o p + 3)
def progNinstr (m : WordMap) (o p : Nat) : Nat := m.half (aProg o p + 4)

/-- What a failed check of R50 reports in CB_CHECK_n. -/
structure CbFail where
  check : Nat
  set : Nat
  chan : Nat
  entry : Nat
  deriving DecidableEq, Repr

/-- The first element of a list that fails, as a report. -/
def firstFail {α β : Type} (f : α → Option β) : List α → Option β
  | [] => none
  | a :: r => match f a with | some b => some b | none => firstFail f r

/-- A plane set is checked when its header holds a non-zero NCHAN or count or a resident program refers to it: one that was never
written is absent (DEDUCED, notes/assumptions/20.md). -/
def psPresent (m : WordMap) (o t : Nat) : Bool :=
  (List.range 7).any (fun i => m.byte (aPlaneSet o t + i) != 0) ||
  (!isScan m o && (residents m o).any fun p => progPlaneSet m o p == t)

/-- Checks 1 to 3 of R50 on a plane set. -/
def psCheck (z : Snapshot) (o t : Nat) : Option CbFail :=
  let m := z.cfg
  let n := psNchan m o t
  let counts := (List.range 6).all fun c =>
    let k := psCount m o t c
    if c < n then decide (1 ≤ k ∧ k ≤ 32) else decide (k = 0)
  if n < 1 ∨ 6 < n ∨ !counts ∨ 96 < psSlots m o t then some ⟨1, t, 0, 0⟩
  else if (List.range (psSlots m o t)).any fun j => psDuration m o t j == 0 || psAmp m o t j == 0 then some ⟨2, t, 0, 0⟩
  else if (List.range (psSlots m o t)).any fun j => decide (planeWeight z o t j = 0) then some ⟨3, t, 0, 0⟩
  else none

/-- The MAJOR planes of a channel as a bit set of a code. -/
def majorMask (m : WordMap) (o t c : Nat) : Nat :=
  ((List.range (psCount m o t c)).map fun p => if psMajor m o t (psBase m o t c + p) then 2 ^ p else 0).sum

/-- Checks 4 to 10 of R50 on a codebook. -/
def cbCheckOne (z : Snapshot) (o t c : Nat) : Option CbFail :=
  let m := z.cfg
  let a := aCodebook o t c
  let n := psCount m o t c
  let lv := levelOf z o t c
  let maj := majorMask m o t c
  let code := cbCode m o t c
  if m.half a ≠ 1 ∨ m.byte (a + 2) ≠ n ∨ m.byte (a + 3) ≠ c ∨ m.byte (a + 4) ≠ t then some ⟨4, t, c, 0⟩
  else if crc32c (m.bytes (a + 16) 16384) ≠ m.nat (a + 12) then some ⟨5, t, c, 0⟩
  else match (List.range 4096).find? fun i => 2 ^ n ≤ code i with
  | some i => some ⟨6, t, c, i⟩
  | none =>
  if code 0 ≠ 0 then some ⟨7, t, c, 0⟩
  else if code 4095 ≠ 2 ^ n - 1 then some ⟨7, t, c, 4095⟩
  else match (List.range 4095).find? fun i => lv (i + 1) < lv i with
  | some i => some ⟨8, t, c, i⟩
  | none =>
  match (List.range 4095).find? fun i => (code i &&& maj) &&& (code (i + 1)) != (code i &&& maj) with
  | some i => some ⟨9, t, c, i⟩
  | none =>
  match (List.range 4095).find? fun i => cbMaxGap m o t c < lv (i + 1) - lv i with
  | some i => some ⟨10, t, c, i⟩
  | none => none

/-- The largest gap between adjacent levels of a codebook (CB_GAP_n). -/
def cbGapOf (z : Snapshot) (o t c : Nat) : Nat :=
  (List.range 4095).foldl (fun g i => max g (levelOf z o t c (i + 1) - levelOf z o t c i)) 0

/-- Check 11 of R50: the partition holds two buffers. -/
def check11 (m : WordMap) (o : Nat) : Bool :=
  let need := if isScan m o then bufBytesScan m o
    else (residents m o).foldl (fun a p => max a (bufBytesPlane m o (progPlaneSet m o p))) 0
  2 * need ≤ fsSize m o

/-- Whether two outputs' partitions overlap. -/
def fsOverlap (m : WordMap) (a b : Nat) : Bool :=
  0 < fsSize m a && 0 < fsSize m b && fsBase m a < fsBase m b + fsSize m b && fsBase m b < fsBase m a + fsSize m a

/-- Check 12 of R50 on an output: the partition rules of R58, with the outputs that are not in STANDBY. -/
def check12 (m : WordMap) (running : List Nat) (o : Nat) : Bool :=
  decide (fsSize m o = 0 ∨ fsBase m o + fsSize m o ≤ 0x0F800000) &&
  (!running.contains o || running.all fun b => b == o || !fsOverlap m o b)

/-- Check 13 of R50: the layout agrees with the mode and its size limits, reserved bits 0 included. -/
def check13 (m : WordMap) (o : Nat) : Bool :=
  let lin := fsLinear m o
  let w := fsWidth m o
  let h := fsHeight m o
  lin == isScan m o && decide (1 ≤ w) && decide (1 ≤ h) &&
  (if lin then decide (w ≤ 2048 ∧ h ≤ 1152 ∧ 1 ≤ fsChannels m o ∧ fsChannels m o ≤ 6) else decide (w ≤ 4096 ∧ h ≤ 2304))

/-- The checks of R50 on one affected output, in order. -/
def planeChecks (z : Snapshot) (running : List Nat) (o : Nat) : Option CbFail :=
  let sets := (List.range 8).filter (psPresent z.cfg o)
  match firstFail (fun t => match psCheck z o t with
      | some f => some f
      | none => firstFail (cbCheckOne z o t) (List.range (psNchan z.cfg o t))) sets with
  | some f => some f
  | none =>
    if 0 < fsSize z.cfg o ∧ !check11 z.cfg o then some ⟨11, 0, 0, 0⟩
    else if !check12 z.cfg running o then some ⟨12, 0, 0, 0⟩
    else if 0 < fsSize z.cfg o ∧ !check13 z.cfg o then some ⟨13, 0, 0, 0⟩
    else none

/-- GAP_MAX over the codebooks of an output: of every set that is present, also where the check list stopped before it (DESIGN CHOICE,
notes/assumptions/107.md). -/
def planeGap (z : Snapshot) (o : Nat) : Nat :=
  ((List.range 8).filter (psPresent z.cfg o)).foldl (fun g t =>
    (List.range (psNchan z.cfg o t)).foldl (fun g c => max g (cbGapOf z o t c)) g) 0

end Sys2Proof.Machine
end

