-- ==== Sys2Proof/Machine/Pixel.lean ====
section
/-! DEFINITION. The pixel pipeline's arithmetic (R209 to R230): curves, matrices, the scaler, the 3D LUT, the warp, the
output LUTs, edge blend and uniformity, as functions of the settings of a frame. -/
namespace Sys2Proof.Machine

/-- A pixel of the working format: three components and alpha (R186). -/
structure Px where
  r : Nat := 0
  g : Nat := 0
  b : Nat := 0
  a : Nat := 0
  deriving DecidableEq, Repr

def Px.map3 (p : Px) (f : Nat → Nat → Nat) : Px := { p with r := f 0 p.r, g := f 1 p.g, b := f 2 p.b }
def Px.comp (p : Px) (i : Nat) : Nat := [p.r, p.g, p.b, p.a].getD i 0

/-- The base of an output's PIXEL tables (R212). -/
def aPix (o : Nat) : Nat := 0x09000000 + o * 0x400000
def aPixCtrl (o : Nat) : Nat := 0x80000 + 0x4000 * o
def aPixChan (o : Nat) : Nat := 0x80004 + 0x4000 * o
def aPixLR (o : Nat) : Nat := 0x80008 + 0x4000 * o
def aPixTB (o : Nat) : Nat := 0x8000C + 0x4000 * o

/-! ### Curves and matrices -/

def aSlot (o sl : Nat) : Nat := aPix o + sl * 0x8000
def slotCurve (m : WordMap) (o sl : Nat) : Nat := m.byte (aSlot o sl + 2)

/-- The curves of R214. -/
def curveFn (m : WordMap) (o sl : Nat) (x : Rat) : Rat :=
  match slotCurve m o sl with
  | 1 =>
    let w : Rat := m.half (aSlot o sl + 8)
    let e := ratPow x (1 / (7884375 / 100000))
    let num := max (e - 8359375 / 10000000) 0
    let y := ratPow (num / (188515625 / 10000000 - 186875 / 10000 * e)) (1 / (1593017578125 / 10000000000000))
    if w = 0 then 1 else 10000 * y / w
  | 2 => if x ≤ 1 / 2 then x * x / 3
    else (ratExp ((x - 55991073 / 100000000) / (17883277 / 100000000)) + 28466892 / 100000000) / 12
  | 3 => (m.half (aSlot o sl + 6) : Rat) / 16384 * ratPow x ((m.half (aSlot o sl + 4) : Rat) / 4096)
  | _ => x

/-- Entry `i` of an input slot's table for component `c` (R213, R214). -/
def slotEntry (m : WordMap) (o sl c i : Nat) : Nat :=
  if slotCurve m o sl = 0 then m.half (aSlot o sl + 64 + 8192 * c + 2 * i)
  else clamp16 (roundAway (65535 * min 1 (curveFn m o sl ((16 * i : Nat) / 65535))))

/-- A 4,096-entry table evaluated at a 16-bit input (R215). -/
def evalTable (t : Nat → Nat) (v : Nat) : Nat :=
  let i := v / 16
  if i ≥ 4095 then t 4095 else (divAway ((t i : Int) * 16 + ((t (i + 1) : Int) - t i) * (v % 16 : Nat)) 16).toNat

/-- A matrix coefficient in units of 2^-16 (R216). -/
def matCoef (m : WordMap) (a k : Nat) : Int := signedOf 20 (m.nat (a + 4 * k))
/-- A matrix applied to three components (R216). -/
def applyMatrix (m : WordMap) (a : Nat) (p : Px) : Px :=
  p.map3 fun r _ => clamp16 (divAway (matCoef m a (3 * r) * p.r + matCoef m a (3 * r + 1) * p.g + matCoef m a (3 * r + 2) * p.b) 65536)

/-- Stage 2: input curve and slot matrix (R209, R214, R216). -/
def stageCurve (m : WordMap) (o inLut : Nat) (p : Px) : Px :=
  if inLut = 0 then p
  else
    let sl := inLut - 1
    let q := p.map3 fun c v => evalTable (slotEntry m o sl c) v
    if nbit (m.byte (aSlot o sl + 3)) 0 then applyMatrix m (aSlot o sl + 16) q else q

/-! ### Scaler -/

/-- The coefficient set of a ratio (R217). -/
def coefSet (sw dw : Nat) : Nat := if sw ≤ dw then 0 else if 2 * sw ≤ 3 * dw then 1 else if 2 * sw ≤ 5 * dw then 2 else 3
def coefH (m : WordMap) (o k p j : Nat) : Int := signedOf 16 (m.half (aPix o + 0x80000 + k * 0x800 + 2 * (8 * p + j)))
def coefV (m : WordMap) (o k p j : Nat) : Int := signedOf 16 (m.half (aPix o + 0x80000 + k * 0x800 + 0x400 + 2 * (6 * p + j)))
/-- Integer part and phase of a 16.16 source position (R218). -/
def tapPhase (s : Int) : Int × Nat :=
  let p := ((s % 65536).toNat + 512) / 1024
  if p = 64 then (s / 65536 + 1, 0) else (s / 65536, p)
/-- The sum of integers over indices below `n`. -/
def sumInt (n : Nat) (f : Nat → Int) : Int := (List.range n).foldl (fun a i => a + f i) 0

/-- Stage 3: the vertical pass, then the horizontal pass, from source positions `sx`, `sy` in 16.16 (R218, R219). `src`
fetches a component of a source pixel inside the rectangle of `sw` × `sh`. -/
def scalePixel (m : WordMap) (o kH kV sw sh : Nat) (src : Nat → Nat → Nat → Nat) (sx sy : Int) : Px :=
  let (qx, px) := tapPhase sx
  let (qy, py) := tapPhase sy
  let near := fun (n : Nat) (q : Int) => clampNat (n - 1) q
  let vert := fun c x => divAway (sumInt 6 fun j => coefV m o kV py j * src c x (near sh (qy - 2 + j))) 4096
  let out := fun c => clamp16 (divAway (sumInt 8 fun j => coefH m o kH px j * vert c (near sw (qx - 3 + j))) 65536)
  { r := out 0, g := out 1, b := out 2, a := out 3 }

/-- The stripes of a scaled layer: the smallest n with ceil(SW / n) + 8 ≤ 4,096, none beyond 4 (R220). -/
def stripesOf (sw : Nat) : Option Nat := [1, 2, 3, 4].find? fun n => ceilDiv sw n + 8 ≤ 4096

/-! ### 3D LUT -/

def lutNode (m : WordMap) (o : Nat) (iR iG iB c : Nat) : Nat :=
  m.half (aPix o + 0x100000 + 8 * ((33 * iB + iG) * 33 + iR) + 2 * c)
/-- Node index and fraction in 1/65,536 of a component (R222). -/
def lutPos (v : Nat) : Nat × Nat :=
  let i := min 31 (32 * v / 65535)
  (i, (32 * v - 65535 * i) * 65536 / 65535)
/-- Stage 6: tetrahedral interpolation (R222). -/
def apply3dLut (m : WordMap) (o : Nat) (p : Px) : Px :=
  let (iR, fR) := lutPos p.r
  let (iG, fG) := lutPos p.g
  let (iB, fB) := lutPos p.b
  let n := fun a b c k => (lutNode m o (iR + a) (iG + b) (iB + c) k : Int)
  let mix := fun (k f1 f2 f3 : Nat) (n1 n2 : Int) =>
    clamp16 (divAway ((65536 - (f1 : Int)) * n 0 0 0 k + ((f1 : Int) - f2) * n1 + ((f2 : Int) - f3) * n2 + f3 * n 1 1 1 k) 65536)
  p.map3 fun k _ =>
    if fR ≥ fG ∧ fG ≥ fB then mix k fR fG fB (n 1 0 0 k) (n 1 1 0 k)
    else if fR ≥ fB ∧ fB ≥ fG then mix k fR fB fG (n 1 0 0 k) (n 1 0 1 k)
    else if fB ≥ fR ∧ fR ≥ fG then mix k fB fR fG (n 0 0 1 k) (n 1 0 1 k)
    else if fG ≥ fR ∧ fR ≥ fB then mix k fG fR fB (n 0 1 0 k) (n 1 1 0 k)
    else if fG ≥ fB ∧ fB ≥ fR then mix k fG fB fR (n 0 1 0 k) (n 0 1 1 k)
    else mix k fB fG fR (n 0 0 1 k) (n 0 1 1 k)

/-- Stages 5 and 6: the colour half (R209). -/
def colourHalf (m : WordMap) (o : Nat) (p : Px) : Px :=
  let q := if m.bit (aPixCtrl o) 0 then applyMatrix m (aPix o + 0x1F0000) p else p
  if m.bit (aPixCtrl o) 1 then apply3dLut m o q else q

/-! ### Mesh warp -/

/-- The cell size a code selects (PIX_CTRL_n CW, CH); 0 when reserved. -/
def cellSize (code : Nat) : Nat := [8, 16, 32, 64, 128].getD code 0
def meshCW (m : WordMap) (o : Nat) : Nat := cellSize (m.fld (aPixCtrl o) 10 8)
def meshCH (m : WordMap) (o : Nat) : Nat := cellSize (m.fld (aPixCtrl o) 14 12)
def meshSX (m : WordMap) (o i j : Nat) : Int := signedOf 32 (m.nat (aPix o + 0x1C0000 + 8 * (129 * j + i)))
def meshSY (m : WordMap) (o i j : Nat) : Int := signedOf 32 (m.nat (aPix o + 0x1C0000 + 8 * (129 * j + i) + 4))

/-- The canvas position of an output pixel, in 16.16 (R224). -/
def meshPos (m : WordMap) (o x y : Nat) : Int × Int :=
  let cw := meshCW m o
  let ch := meshCH m o
  let i := x / cw
  let j := y / ch
  let fx : Int := (x % cw : Nat)
  let fy : Int := (y % ch : Nat)
  let bil := fun (g : Nat → Nat → Int) =>
    divAway ((cw - fx) * (ch - fy) * g i j + fx * (ch - fy) * g (i + 1) j + (cw - fx) * fy * g i (j + 1) + fx * fy * g (i + 1) (j + 1)) (cw * ch)
  (bil (meshSX m o), bil (meshSY m o))

/-- The footprint of an output tile on the canvas: the pixel positions (x0, x1, y0, y1) in the box, inclusive; none when empty
(R223). -/
def tileFootprint (m : WordMap) (o x0 y0 w h : Nat) : Option (Nat × Nat × Nat × Nat) :=
  let cw := meshCW m o
  let ch := meshCH m o
  let cols := (List.range ((x0 + w - 1) / cw + 2 - x0 / cw)).map (· + x0 / cw)
  let rows := (List.range ((y0 + h - 1) / ch + 2 - y0 / ch)).map (· + y0 / ch)
  let nodes := rows.flatMap fun j => cols.map fun i => (meshSX m o i j, meshSY m o i j)
  match nodes with
  | [] => none
  | n0 :: r =>
    let lo := r.foldl (fun (a : Int × Int) n => (min a.1 n.1, min a.2 n.2)) n0
    let hi := r.foldl (fun (a : Int × Int) n => (max a.1 n.1, max a.2 n.2)) n0
    let wd : Int := fsWidth m o
    let hd : Int := fsHeight m o
    let xa := max 0 (-(-lo.1 / 65536) - 2)
    let xb := min (wd - 1) (hi.1 / 65536 + 2)
    let ya := max 0 (-(-lo.2 / 65536) - 2)
    let yb := min (hd - 1) (hi.2 / 65536 + 2)
    if xa ≤ xb ∧ ya ≤ yb then some (xa.toNat, xb.toNat, ya.toNat, yb.toNat) else none

/-- The Catmull-Rom weights of a phase of 1/64, 14 fractional bits, the largest adjusted to the sum 16,384 (R225). -/
def catmull (p : Nat) : List Int :=
  let f : Rat := (p : Rat) / 64
  let w := [(-f ^ 3 + 2 * f ^ 2 - f) / 2, (3 * f ^ 3 - 5 * f ^ 2 + 2) / 2, (-3 * f ^ 3 + 4 * f ^ 2 + f) / 2, (f ^ 3 - f ^ 2) / 2].map
    fun x => roundAway (x * 16384)
  let s := w.foldl (· + ·) 0
  let big := w.foldl max 0
  let k := (w.findIdx? (· == big)).getD 1
  w.set k (big + 16384 - s)

/-- Stage 7: the canvas sampled at a 16.16 position (R225). -/
def warpSample (canvas : Nat → Nat → Nat → Nat) (w h : Nat) (s : Int × Int) : Px :=
  if s.1 < -32768 ∨ (w : Int) * 65536 - 32768 < s.1 ∨ s.2 < -32768 ∨ (h : Int) * 65536 - 32768 < s.2 then {}
  else
    let (qx, px) := tapPhase s.1
    let (qy, py) := tapPhase s.2
    let near := fun (n : Nat) (q : Int) => clampNat (n - 1) q
    let wx := catmull px
    let wy := catmull py
    let out := fun c => clamp16 (divAway (sumInt 4 fun j => sumInt 4 fun i =>
      wx.getD i 0 * wy.getD j 0 * canvas c (near w (qx - 1 + i)) (near h (qy - 1 + j))) (2 ^ 28))
    { r := out 0, g := out 1, b := out 2 }

/-! ### Channels, edges and uniformity -/

/-- Stage 8: the value of light channel `c` (R226). -/
def chanValue (m : WordMap) (o c : Nat) (p : Px) : Nat :=
  let v := p.comp (m.fld (aPixChan o) (2 * c + 1) (2 * c))
  if m.bit (aPixCtrl o) 2 then evalTable (fun i => m.half (aPix o + 0x180000 + c * 0x2000 + 2 * i)) v else v

/-- The gain of an edge of width `wd` at a distance of (2d + 1) / 2 pixels, if it applies (R227). -/
def edgeGain (m : WordMap) (o e wd d : Nat) : Option Nat :=
  if wd = 0 ∨ 2 * wd ≤ 2 * d + 1 then none
  else
    let num := 1023 * (2 * d + 1)
    let k := num / (2 * wd)
    let ramp := fun i => m.half (aPix o + 0x200000 + e * 0x800 + 2 * i)
    some (divAway ((ramp k : Int) * (2 * wd : Nat) + ((ramp (min 1023 (k + 1)) : Int) - ramp k) * (num % (2 * wd) : Nat)) (2 * wd)).toNat

/-- The uniformity gain of channel `c` at a pixel (R228). -/
def uniGain (m : WordMap) (o c x y : Nat) : Nat :=
  if !m.bit (aPixCtrl o) 5 then 0x8000
  else
    let g := fun i j => (m.half (aPix o + 0x280000 + c * 0x12000 + 2 * (256 * j + i)) : Rat)
    let w : Rat := fsWidth m o
    let h : Rat := fsHeight m o
    let gx : Rat := max 0 (min 255 (((x : Rat) + 1 / 2) * 256 / w - 1 / 2))
    let gy : Rat := max 0 (min 143 (((y : Rat) + 1 / 2) * 144 / h - 1 / 2))
    let i := gx.floor.toNat
    let j := gy.floor.toNat
    let fx := gx - i
    let fy := gy - j
    let i1 := min 255 (i + 1)
    let j1 := min 143 (j + 1)
    (roundAway ((1 - fy) * ((1 - fx) * g i j + fx * g i1 j) + fy * ((1 - fx) * g i j1 + fx * g i1 j1))).toNat

/-- Stage 9: edge blend and uniformity (R227, R228). -/
def stageGain (m : WordMap) (o c x y v : Nat) : Nat :=
  let w := fsWidth m o
  let h := fsHeight m o
  let edges := if m.bit (aPixCtrl o) 4 then
      [edgeGain m o 0 (m.fld (aPixLR o) 12 0) x, edgeGain m o 1 (m.fld (aPixLR o) 28 16) (w - 1 - x),
       edgeGain m o 2 (m.fld (aPixTB o) 11 0) y, edgeGain m o 3 (m.fld (aPixTB o) 27 16) (h - 1 - y)]
    else []
  let gain := edges.foldl (fun g e => match e with | some k => roundDiv (g * k) 32768 | none => g) (uniGain m o c x y)
  min 65535 (roundDiv (v * gain) 32768)

/-- Stages 8 and 9 for one channel of one pixel. -/
def geometryChan (m : WordMap) (o c x y : Nat) (p : Px) : Nat := stageGain m o c x y (chanValue m o c p)

end Sys2Proof.Machine
end

