-- ==== Sys2Proof/Machine/Layers.lean ====
section
/-! DEFINITION. Layers, tiles, binning, blending, the composer load and the checks of R206, as functions of a word map
(R183 to R206). -/
namespace Sys2Proof.Machine

/-- The descriptor of layer `l` (R183). -/
def aLayer (l : Nat) : Nat := 0x08000000 + l * 0x40
def lyEnable (m : WordMap) (l : Nat) : Bool := m.bit (aLayer l) 0
def lyOutput (m : WordMap) (l : Nat) : Nat := m.fld (aLayer l) 2 1
def lyPolicy (m : WordMap) (l : Nat) : Nat := m.fld (aLayer l) 5 4
def lyBlend (m : WordMap) (l : Nat) : Nat := m.fld (aLayer l) 9 8
def lyPremul (m : WordMap) (l : Nat) : Bool := m.bit (aLayer l) 10
def lyAlphaEn (m : WordMap) (l : Nat) : Bool := m.bit (aLayer l) 11
def lyFormat (m : WordMap) (l : Nat) : Nat := m.fld (aLayer l) 15 12
def lyInLut (m : WordMap) (l : Nat) : Nat := m.fld (aLayer l) 19 16
def lyStale (m : WordMap) (l : Nat) : Nat := m.fld (aLayer l) 23 20
def lyFit (m : WordMap) (l : Nat) : Bool := m.bit (aLayer l) 24
def lyKind (m : WordMap) (l : Nat) : Nat := m.fld (aLayer l + 4) 1 0
def lyInput (m : WordMap) (l : Nat) : Nat := m.fld (aLayer l + 4) 7 4
def lySurface (m : WordMap) (l : Nat) : Nat := m.fld (aLayer l + 4) 27 16
def lySX0 (m : WordMap) (l : Nat) : Nat := m.fld (aLayer l + 8) 15 0
def lySY0 (m : WordMap) (l : Nat) : Nat := m.fld (aLayer l + 8) 31 16
def lySW (m : WordMap) (l : Nat) : Nat := m.fld (aLayer l + 12) 15 0
def lySH (m : WordMap) (l : Nat) : Nat := m.fld (aLayer l + 12) 31 16
def lyDX (m : WordMap) (l : Nat) : Int := signedOf 16 (m.fld (aLayer l + 16) 15 0)
def lyDY (m : WordMap) (l : Nat) : Int := signedOf 16 (m.fld (aLayer l + 16) 31 16)
def lyDW (m : WordMap) (l : Nat) : Nat := m.fld (aLayer l + 20) 15 0
def lyDH (m : WordMap) (l : Nat) : Nat := m.fld (aLayer l + 20) 31 16
def lyGalpha (m : WordMap) (l : Nat) : Nat := m.fld (aLayer l + 24) 15 0

/-- The enabled layers of an output, in increasing index. -/
def layersOf (m : WordMap) (o : Nat) : List Nat := (List.range 128).filter fun l => lyEnable m l && lyOutput m l == o

/-- The source rectangle of a layer: its own, or the whole captured frame under FIT (R183). -/
def srcRect (m : WordMap) (l : Nat) (src : Source) : Nat × Nat × Nat × Nat :=
  match src with
  | .capture _ _ _ w h _ => if lyFit m l then (0, 0, w, h) else (lySX0 m l, lySY0 m l, lySW m l, lySH m l)
  | .host _ _ => (lySX0 m l, lySY0 m l, lySW m l, lySH m l)

/-! ### Pixel formats -/

def bitsPerPixel (fmt : Nat) : Nat := match fmt with | 0 => 16 | 1 => 24 | 9 => 48 | _ => 32
def formatDefined (fmt : Nat) : Bool := fmt == 0 || fmt == 1 || fmt == 2 || fmt == 3 || fmt == 8 || fmt == 9
/-- Whether a format carries a pixel alpha (R186). -/
def formatAlpha (fmt : Nat) : Bool := fmt == 2 || fmt == 3
/-- Widen an n-bit component to 16 bits by bit replication (R186). -/
def widen (n v : Nat) : Nat :=
  if n = 0 then 0 else ((List.range 16).map fun i => if nbit v (n - 1 - i % n) then 2 ^ (15 - i) else 0).sum
/-- Stage 1: unpack a pixel word (R186, R187). -/
def unpackPixel (fmt w : Nat) : Px :=
  match fmt with
  | 0 => { r := widen 5 (nbits w 15 11), g := widen 6 (nbits w 10 5), b := widen 5 (nbits w 4 0), a := 0xFFFF }
  | 1 => { r := widen 8 (nbits w 23 16), g := widen 8 (nbits w 15 8), b := widen 8 (nbits w 7 0), a := 0xFFFF }
  | 2 => { r := widen 8 (nbits w 23 16), g := widen 8 (nbits w 15 8), b := widen 8 (nbits w 7 0), a := widen 8 (nbits w 31 24) }
  | 3 => { r := widen 10 (nbits w 31 22), g := widen 10 (nbits w 21 12), b := widen 10 (nbits w 11 2), a := widen 2 (nbits w 1 0) }
  | 8 => { r := widen 10 (nbits w 29 20), g := widen 10 (nbits w 19 10), b := widen 10 (nbits w 9 0), a := 0xFFFF }
  | _ => { r := nbits w 15 0, g := nbits w 31 16, b := nbits w 47 32, a := 0xFFFF }

/-! ### Tiles -/

def aCompCtrl (o : Nat) : Nat := 0x70100 + 0x40 * o
/-- The tile size, width first (R188). -/
def tileSize (m : WordMap) (o : Nat) : Nat × Nat := match m.fld (aCompCtrl o) 1 0 with | 0 => (32, 32) | 1 => (64, 64) | _ => (128, 64)
def tilesAcross (m : WordMap) (o : Nat) : Nat := ceilDiv (fsWidth m o) (tileSize m o).1
/-- NTILES_n (R188). -/
def ntilesOf (m : WordMap) (o : Nat) : Nat := tilesAcross m o * ceilDiv (fsHeight m o) (tileSize m o).2
/-- The canvas rectangle of a tile, clipped: x0, y0, width, height (R188). -/
def tileRect (m : WordMap) (o t : Nat) : Nat × Nat × Nat × Nat :=
  let (tw, th) := tileSize m o
  let nx := tilesAcross m o
  let x := t % nx * tw
  let y := t / nx * th
  (x, y, min tw (fsWidth m o - x), min th (fsHeight m o - y))

/-- The source position of canvas column `dx`, signed 16.16 (R184). -/
def srcPos (s0 : Nat) (d0 : Int) (sw dw : Nat) (d : Nat) : Int :=
  divAway (65536 * (2 * dw * s0 + (2 * ((d : Int) - d0) + 1) * sw - dw)) (2 * dw)

/-- A layer's entry in a tile, without its rank: the intersection of the layer with the tile (R184, R190). -/
def entryIn (m : WordMap) (o t l : Nat) (src : Source) : Option Entry :=
  let (tx, ty, w, h) := tileRect m o t
  let x0 := max (tx : Int) (lyDX m l)
  let y0 := max (ty : Int) (lyDY m l)
  let x1 := min ((tx + w : Nat) : Int) (lyDX m l + lyDW m l)
  let y1 := min ((ty + h : Nat) : Int) (lyDY m l + lyDH m l)
  if x0 < x1 ∧ y0 < y1 then
    let (sx0, sy0, sw, sh) := srcRect m l src
    let op := lyBlend m l == 2 || (lyBlend m l == 0 && lyGalpha m l == 0xFFFF && (!lyAlphaEn m l || !formatAlpha (lyFormat m l)))
    some { layer := l, rank := 0, opaque_ := op, x0 := (x0 - tx).toNat, y0 := (y0 - ty).toNat,
           x1 := (x1 - tx).toNat - 1, y1 := (y1 - ty).toNat - 1,
           sx := srcPos sx0 (lyDX m l) sw (lyDW m l) x0.toNat, sy := srcPos sy0 (lyDY m l) sh (lyDH m l) y0.toNat }
  else none

/-- The 128 bits of a queue entry (R192). -/
def entryWord (e : Entry) : Nat :=
  e.layer % 128 + e.rank % 32 * 2 ^ 7 + (if e.opaque_ then 2 ^ 12 else 0) + e.x0 % 128 * 2 ^ 14 + e.y0 % 128 * 2 ^ 21
    + e.x1 % 128 * 2 ^ 28 + e.y1 % 128 * 2 ^ 35 + wrapInt 32 e.sx * 2 ^ 64 + wrapInt 32 e.sy * 2 ^ 96
/-- The entry that 128 bits hold (R192). -/
def entryOf (w : Nat) : Entry :=
  { layer := nbits w 6 0, rank := nbits w 11 7, opaque_ := nbit w 12, x0 := nbits w 20 14, y0 := nbits w 27 21
    x1 := nbits w 34 28, y1 := nbits w 41 35, sx := signedOf 32 (nbits w 95 64), sy := signedOf 32 (nbits w 127 96) }

/-- The 128 bytes of a Sprue record with the next record's index, none as 0xFFFF_FFFF (R193). -/
def sprueBytes (r : SprueRec) (next : Nat) : List Byte :=
  leBytes 2 r.queue ++ leBytes 1 r.entries.length ++ leBytes 1 0 ++ leBytes 4 next ++ leBytes 4 r.frame ++ leBytes 4 0
    ++ ((r.entries.flatMap fun e => leBytes 16 (entryWord e)) ++ List.replicate 112 0).take 112
/-- No next record. -/
def sprueEnd : Nat := 0xFFFFFFFF
/-- The HBM3 address of a Sprue record: the pool follows the 64 MB of tables (DESIGN CHOICE, notes/assumptions/16.md). -/
def sprueAddr (idx : Nat) : Nat := 2 ^ 26 + 128 * idx

/-- The order list of a tile, back to front (R195). -/
def orderList (m : WordMap) (o t : Nat) : List Nat :=
  let l := m.byte (0x08004000 + o * 0x4000 + t) % 16
  let bs := (List.range 32).map fun i => m.byte (0x08020000 + o * 0x200 + l * 32 + i)
  (bs.takeWhile (· != 0xFF)).map (· % 128)
/-- The binned layers of a tile in blend order (R195). -/
def blendOrder (m : WordMap) (o t : Nat) (binned : List Nat) : List Nat :=
  if m.bit (aCompCtrl o) 4 then
    let listed := (orderList m o t).filter fun l => binned.contains l
    listed ++ binned.filter fun l => !listed.contains l
  else binned

/-- Whether an entry's sub-rectangle lies within another's. -/
def Entry.within (a b : Entry) : Bool := b.x0 ≤ a.x0 && a.x1 ≤ b.x1 && b.y0 ≤ a.y0 && a.y1 ≤ b.y1
/-- Remove the entries an opaque entry of higher rank covers (R191). -/
def cull (l : List Entry) : List Entry := l.filter fun a => !(l.any fun b => b.opaque_ && decide (a.rank < b.rank) && a.within b)

/-- The entries of a tile before culling, in increasing layer index, ranked by the blend order (R190, R195). -/
def tileEntries (m : WordMap) (o t : Nat) (sources : List (Nat × Source)) : List Entry :=
  let order := blendOrder m o t (sources.map (·.1))
  sources.filterMap fun s => (entryIn m o t s.1 s.2).map fun e => { e with rank := (order.findIdx? (· == s.1)).getD 0 }

/-! ### Blending -/

/-- mul(x, y) of R196. -/
def mul16 (x y : Nat) : Nat := (x * y + 32767) / 65535
/-- One component of a fragment blended onto the accumulator (R196). -/
def blendComp (blend : Nat) (premul : Bool) (ap g c d : Nat) : Nat :=
  let alpha := mul16 ap g
  let s := if premul then mul16 c g else mul16 c alpha
  match blend with
  | 0 => min 65535 (s + mul16 d (65535 - alpha))
  | 1 => min 65535 (d + s)
  | _ => c
/-- One fragment (R196). -/
def blendFrag (m : WordMap) (l : Nat) (p d : Px) : Px :=
  let ap := if lyAlphaEn m l then p.a else 0xFFFF
  d.map3 fun c v => blendComp (lyBlend m l) (lyPremul m l) ap (lyGalpha m l) (p.comp c) v

/-- The background colour of an output (R196). -/
def background (m : WordMap) (o : Nat) : Px :=
  { r := m.fld (0x70104 + 0x40 * o) 31 16, g := m.fld (0x70104 + 0x40 * o) 15 0, b := m.fld (0x70108 + 0x40 * o) 15 0 }

/-- A layer pixel at a canvas position: fetch, curve, scaler (R187). `fetch` gives the raw pixel word of a source column and row. -/
def layerPixel (m : WordMap) (o l : Nat) (src : Source) (fetch : Nat → Nat → Nat) (dx dy : Nat) : Px :=
  let (sx0, sy0, sw, sh) := srcRect m l src
  let fmt := match src with | .capture _ _ _ _ _ f => f | .host _ _ => lyFormat m l
  let px := fun x y => stageCurve m o (lyInLut m l) (unpackPixel fmt (fetch (sx0 + x) (sy0 + y)))
  if sw = lyDW m l ∧ sh = lyDH m l then
    px ((dx : Int) - lyDX m l).toNat ((dy : Int) - lyDY m l).toNat
  else
    scalePixel m o (coefSet sw (lyDW m l)) (coefSet sh (lyDH m l)) sw sh (fun c x y => (px x y).comp c)
      (srcPos 0 (lyDX m l) sw (lyDW m l) dx) (srcPos 0 (lyDY m l) sh (lyDH m l) dy)

/-- The Runner through which an engine fetches layers (R187). -/
def engineRunner (e : Nat) : Nat := 9 + e / 4

/-- Insert an entry in order of rank. -/
def insertRank (e : Entry) : List Entry → List Entry
  | [] => [e]
  | a :: r => if e.rank < a.rank then e :: a :: r else a :: insertRank e r
/-- Entries in increasing RANK, the order in which an engine blends them (R194). -/
def rankSorted (ents : List Entry) : List Entry := ents.foldl (fun l e => insertRank e l) []

/-- Entries in blend order blended onto the accumulator `d` of tile-relative pixel (x, y) (R196). -/
def blendEntries (m : WordMap) (es : List Entry) (pix : Nat → Px) (x y : Nat) (d : Px) : Px :=
  es.foldl (fun d e => if e.x0 ≤ x ∧ x ≤ e.x1 ∧ e.y0 ≤ y ∧ y ≤ e.y1 then blendFrag m e.layer (pix e.layer) d else d) d

/-- The entries in blend order that a context leaves done at fragment index `k` of the tile: those before its entry, and its entry
itself where the engine stopped behind fragment `k` (R201). -/
def entriesDone (c : TileCtx) (k : Nat) : Nat := c.entry + if k < c.frag then 1 else 0

/-! ### Load (R203) -/

/-- Whether a host layer's source rectangle lies within its surface, by the last pixel of the rectangle (R198, R206 check 3). -/
def surfaceHolds (m : WordMap) (l : Nat) (x : Surface) : Bool :=
  let bpp := bitsPerPixel (lyFormat m l)
  lyFit m l || decide (Config.hostPixelOffset (lySX0 m l + lySW m l - 1) (lySY0 m l + lySH m l - 1) x.size bpp + bpp / 8 ≤ x.size * 4096)

/-- The area of a key in the list of owned areas: inputs under their index, the warp canvas of OUT_n under 8 + n. -/
def ownedArea (x : SurfState) (key : Nat) : Option (Nat × Nat) := (x.owned.find? fun e => e.1 == key).map (·.2)

/-- C_n and c_max,n with every enabled layer ready, after culling (R203). `srcOf` gives the source rectangle's owner. -/
def composerCost (m : WordMap) (o : Nat) (srcOf : Nat → Source) : Nat × Nat :=
  let ls := (layersOf m o).map fun l => (l, srcOf l)
  let tile := fun t => ((cull (tileEntries m o t ls)).map fun e => (e.x1 + 1 - e.x0) * (e.y1 + 1 - e.y0) + 32).sum + 256
  let costs := (List.range (ntilesOf m o)).map tile
  (costs.sum, costs.foldl max 0)

/-- The nominal period in ticks, and the composition lead L_n (R232, R234). -/
def period (m : WordMap) (o : Nat) : Rat := (tgNumR m o) / (tgDenR m o)
where
  tgNumR (m : WordMap) (o : Nat) : Rat := m.nat (0x20100 + 0x40 * o)
  tgDenR (m : WordMap) (o : Nat) : Rat := m.fld (0x20104 + 0x40 * o) 7 0
def leadTicks (m : WordMap) (o : Nat) : Rat :=
  let l := m.fld (0x2010C + 0x40 * o) 25 0
  if l = 0 then period m o else l
def drainTicks (m : WordMap) (o : Nat) : Nat := m.fld (aCompCtrl o) 31 16 * 16
def waitTicks (m : WordMap) (o : Nat) : Nat := m.fld (aCompCtrl o) 15 8 * 4096

/-- C_n / (W_n,k × R_k), none when W is not positive; ticks of 2.5 ns (R203). -/
def loadShare (m : WordMap) (o k : Nat) (cost : Nat × Nat) : Option Rat :=
  let rk : Rat := 8000000000 * (8 - (k : Rat)) / 8
  let w := (leadTicks m o - drainTicks m o - waitTicks m o) * 25 / 10000000000 - 16 * cost.2 / rk
  if w ≤ 0 then none else some (cost.1 / (w * rk))
/-- U_k over outputs with their costs; none when unbounded (R203). -/
def utilAt (m : WordMap) (k : Nat) (costs : List (Nat × (Nat × Nat))) : Option Rat :=
  costs.foldl (fun a c => match a, loadShare m c.1 k c.2 with | some x, some y => some (x + y) | _, _ => none) (some 0)
/-- COMP_UTIL's U: U_0 with 0x1000 = 1.0, saturating (R203). -/
def utilField (u : Option Rat) : Nat := match u with | none => 0xFFFF | some x => clampNat 0xFFFF (x * 4096).floor
/-- GLEVEL: the highest k with U_k ≤ 1; 8 when none (R203). -/
def glevelOf (m : WordMap) (costs : List (Nat × (Nat × Nat))) : Nat :=
  (List.range 8).foldl (fun g k => match utilAt m k costs with | some u => if u ≤ 1 then k else g | none => g) 8

/-! ### Checks of R206 -/

/-- What a failed check of R206 reports in COMP_CHECK. -/
structure CompFail where
  check : Nat
  out : Nat
  layer : Nat
  deriving DecidableEq, Repr

/-- The layer that is the 17th to cover a canvas pixel, at the first such pixel in raster order (R185, R206 check 4).
Only pixels at the left and top edges of rectangles can be the first. -/
def crowdLayer (m : WordMap) (o : Nat) : Option Nat :=
  let ls := layersOf m o
  let edge := fun (d : Int) (n : Nat) => if 0 ≤ d ∧ d < n then some d.toNat else if d < 0 then some 0 else none
  let xs := ls.filterMap fun l => edge (lyDX m l) (fsWidth m o)
  let ys := ls.filterMap fun l => edge (lyDY m l) (fsHeight m o)
  let covers := fun (x y l : Nat) => decide (lyDX m l ≤ x ∧ (x : Int) < lyDX m l + lyDW m l ∧ lyDY m l ≤ y ∧ (y : Int) < lyDY m l + lyDH m l)
  let pts := (ys.flatMap fun y => xs.map fun x => (y, x)).filter fun p => 16 < (ls.filter (covers p.2 p.1)).length
  match pts with
  | [] => none
  | p :: r =>
    let first := r.foldl (fun a b => if b.1 < a.1 ∨ (b.1 = a.1 ∧ b.2 < a.2) then b else a) p
    (ls.filter (covers first.2 first.1))[16]?

/-- The reserved bits of a layer descriptor are 0 (R183). -/
def layerReservedOk (m : WordMap) (l : Nat) : Bool :=
  let w0 := m.nat (aLayer l)
  let w1 := m.nat (aLayer l + 4)
  !nbit w0 3 && nbits w0 7 6 == 0 && nbits w0 31 25 == 0 && nbits w1 3 2 == 0 && nbits w1 15 8 == 0 && nbits w1 31 28 == 0 &&
  m.fld (aLayer l + 24) 31 16 == 0 && (List.range 9).all fun i => m.nat (aLayer l + 28 + 4 * i) == 0

/-- The bytes of an order list before the ending 0xFF (R205). -/
def listBytes (m : WordMap) (o k : Nat) : List Nat :=
  ((List.range 32).map fun i => m.byte (0x08020000 + o * 0x200 + k * 32 + i)).takeWhile (· != 0xFF)
/-- The layer that one list names wrongly: an enabled layer of the output not named exactly once, or another layer named; 0 where a
byte is out of form. -/
def listFault (m : WordMap) (o k : Nat) : Option Nat :=
  let bs := listBytes m o k
  let ls := layersOf m o
  if bs.any fun l => 128 ≤ l then some 0
  else (List.range 128).find? fun l => bs.count l != (if ls.contains l then 1 else 0)
/-- The tile order map and lists of an output (R206, check 6): none, or the layer at fault. -/
def orderFault (m : WordMap) (o : Nat) : Option Nat :=
  if !m.bit (aCompCtrl o) 4 then none
  else if (List.range 16384).any fun t => 16 ≤ m.byte (0x08004000 + o * 0x4000 + t) then some 0
  else
    let used := (List.range (ntilesOf m o)).map fun t => m.byte (0x08004000 + o * 0x4000 + t)
    ((List.range 16).filter used.contains).findSome? (listFault m o)

/-- The lowest run of `n` queues that overlaps none of the taken ranges (R189). -/
def placeRange (taken : List (Nat × Nat)) (n : Nat) : Option Nat :=
  let free := fun q => taken.all fun r => q + n ≤ r.1 || r.1 + r.2 ≤ q || r.2 == 0
  let cands := 0 :: taken.map fun r => r.1 + r.2
  let ok := cands.filter fun q => free q && decide (q + n ≤ 16384)
  match ok with
  | [] => none
  | q :: r => some (r.foldl min q)

/-- One output's new range, among the kept ranges, those placed before and those in force of the others (R189): `given` are the ranges
last placed, of which an output whose NTILES stays keeps its own. -/
def placeNext (m : WordMap) (given inForce rs : List (Nat × Nat)) (o : Nat) : Option (Nat × Nat) :=
  let want := fun (p : Nat) => if fsSize m p = 0 then 0 else ntilesOf m p
  let keep := fun (p : Nat) => want p == (nth given p (0, 0)).2
  if keep o then some (nth given o (0, 0))
  else if want o = 0 then some (0, 0)
  else
    let kept := (List.range 4).filterMap fun p => if keep p then given[p]? else none
    let placed := (List.range rs.length).filterMap fun p => if keep p then none else rs[p]?
    let others := (List.range 4).filterMap fun p => if p = o then none else inForce[p]?
    (placeRange (kept ++ placed ++ others) (want o)).map fun q => (q, want o)
/-- The queue ranges after a Pour: (QBASE, NTILES) per output in increasing index, as far as they can be placed (R189). -/
def placeAll (m : WordMap) (given inForce : List (Nat × Nat)) : List (Nat × Nat) :=
  (List.range 4).foldl (fun rs o => if rs.length = o then (match placeNext m given inForce rs o with | some r => rs ++ [r] | none => rs) else rs) []

end Sys2Proof.Machine
end

