-- ==== Sys2Proof/Machine/Convert.lean ====
section
/-! DEFINITION. Conversion at ingest (R268 to R270) and the INPUT check list (R288). -/
namespace Sys2Proof.Machine

/-- K_R and K_B in ten-thousandths, by colorimetry: 1 = BT.601, 2 = BT.709, 3 = BT.2020 (R269). -/
def lumaCoefs (color : Nat) : Rat × Rat :=
  match color with
  | 1 => (299 / 1000, 114 / 1000)
  | 3 => (2627 / 10000, 593 / 10000)
  | _ => (2126 / 10000, 722 / 10000)
/-- A coefficient rounded to 16 fractional bits (R269). -/
def coef16 (q : Rat) : Rat := (roundAway (q * 65536) : Rat) / 65536
/-- A value clamped to 0..1, multiplied by 4,095 and rounded once, in bits 15:4 (R268, R269). -/
def quant12 (q : Rat) : Nat := (roundAway (max 0 (min 1 q) * 4095)).toNat * 16

/-- One pixel of raw components (Y, Cb, Cr) or (R, G, B) as it is stored: the 48-bit word of FORMAT 0x9 or the 32-bit
word of FORMAT 0x8 (R268, R269). Each output is a sum of the raw inputs with coefficients rounded to 16 fractional bits
(the coefficients of the whole linear map, DEDUCED, notes/assumptions/22.md). -/
def convertPixel (f : CapFormat) (fmtOut : Nat) (p : Nat × Nat × Nat) : Nat :=
  let n := f.depth
  if fmtOut = 8 then
    let up := fun v => if n < 10 then widen n v / 64 else v
    up p.2.2 + up p.2.1 * 2 ^ 10 + up p.1 * 2 ^ 20
  else
    let s : Rat := 2 ^ (n - 8)
    let full := fun (v : Nat) => (v : Rat) / (2 ^ n - 1)
    let lum := fun (v : Nat) => if f.full then full v else ((v : Rat) - 16 * s) / (219 * s)
    let chr := fun (v : Nat) => if f.full then ((v : Rat) - 2 ^ (n - 1)) / (2 ^ n - 1) else ((v : Rat) - 2 ^ (n - 1)) / (224 * s)
    let out := fun r g b => quant12 r + quant12 g * 2 ^ 16 + quant12 b * 2 ^ 32
    if f.sampling = 0 then out (lum p.1) (lum p.2.1) (lum p.2.2)
    else
      let (kr, kb) := lumaCoefs f.color
      let y := lum p.1
      let cb := chr p.2.1
      let cr := chr p.2.2
      let kg := 1 - kr - kb
      out (y + coef16 (2 * (1 - kr)) * cr)
          (y - coef16 (kb * 2 * (1 - kb) / kg) * cb - coef16 (kr * 2 * (1 - kr) / kg) * cr)
          (y + coef16 (2 * (1 - kb)) * cb)

/-- FORMAT a capture is stored in (R268). -/
def storeFormat (f : CapFormat) : Nat := if f.full && f.sampling == 0 && decide (f.depth ≤ 10) then 8 else 9

/-- The chroma of column `x` of a 4:2:2 row: as received at even columns, the rounded mean of its neighbours at odd ones,
the left neighbour at the last column (R270). -/
def upChroma (w : Nat) (row : Nat → Nat) (x : Nat) : Nat :=
  if x % 2 = 0 then row x else if x + 1 < w then (row (x - 1) + row (x + 1) + 1) / 2 else row (x - 1)

/-- The stored pixels of a frame of raw components in raster order (R269, R270). -/
def convertFrame (f : CapFormat) (fmtOut : Nat) (raw : List (Nat × Nat × Nat)) : List (Nat × Nat) :=
  let at_ := fun x y => raw.getD (y * f.w + x) (0, 0, 0)
  (List.range f.h).flatMap fun y => (List.range f.w).map fun x =>
    let p := at_ x y
    let q := if f.sampling = 2 then (p.1, upChroma f.w (fun i => (at_ i y).2.1) x, upChroma f.w (fun i => (at_ i y).2.2) x) else p
    (y * f.w + x, convertPixel f fmtOut q)

/-- Byte 19 of a frame record (R266). -/
def signalByte (f : CapFormat) : Nat :=
  (if f.interlaced then 1 else 0) + f.sampling % 4 * 2 + f.color % 8 * 8 + (if f.full then 64 else 0)

/-! ### INPUT registers and checks -/

def aInCfg (i : Nat) : Nat := 0x30100 + 0x40 * i
def aInMax (i : Nat) : Nat := 0x30104 + 0x40 * i
def inEnable (m : WordMap) (i : Nat) : Bool := m.bit (aInCfg i) 31
def inSealed (m : WordMap) (i : Nat) : Bool := m.bit (aInCfg i) 30
def inLink (m : WordMap) (i : Nat) : Nat := if i < 4 then m.fld (aInCfg i) 29 28 else 0
def inNbuf (m : WordMap) (i : Nat) : Nat := if m.bit (aInCfg i) 8 then 4 else 3
def inMaxW (m : WordMap) (i : Nat) : Nat := m.fld (aInMax i) 15 0
def inMaxH (m : WordMap) (i : Nat) : Nat := m.fld (aInMax i) 31 16
/-- The inputs of the group that input `i` leads (R272). -/
def groupOf (m : WordMap) (i : Nat) : List Nat := match inLink m i with | 1 => [i, i + 1] | 2 => [0, 1, 2, 3] | _ => [i]
/-- The leader of the group an SDI input belongs to (R272). -/
def groupLead (m : WordMap) (i : Nat) : Nat :=
  if 4 ≤ i then i else match inLink m i with | 1 => i / 2 * 2 | 2 => 0 | _ => i
/-- The descriptor address of an Ethernet port and of an ST 2110 stream (R277, R278). -/
def aEthPhy (p : Nat) : Nat := 0x04000000 + 0x40 * p
def aStream (s : Nat) : Nat := 0x04000100 + 0x40 * s
def phyRate (m : WordMap) (p : Nat) : Nat := m.byte (aEthPhy p + 6)

def inputCheck1 (m : WordMap) : Bool :=
  (List.range 4).all fun i => !inEnable m i ||
    (match inLink m i with
     | 0 => true
     | 1 => let l := i / 2 * 2; m.nat (aInCfg l) == m.nat (aInCfg (l + 1)) && (i == l || !((List.range 128).any fun y => lyEnable m y && lyKind m y == 1 && lyInput m y == i))
     | 2 => (List.range 4).all (fun j => m.nat (aInCfg j) == m.nat (aInCfg 0)) && (i == 0 || !((List.range 128).any fun y => lyEnable m y && lyKind m y == 1 && lyInput m y == i))
     | _ => false)
/-- Bytes of capture buffers that the enabled inputs need (R264). -/
def captureBytes (m : WordMap) : Nat :=
  ((List.range 8).map fun i => if inEnable m i && groupLead m i == i then inNbuf m i * inMaxW m i * inMaxH m i * 6 else 0).sum
def inputCheck2 (m : WordMap) (poolBytes : Nat) : Bool :=
  (List.range 8).all (fun i => decide (1 ≤ inMaxW m i ∧ inMaxW m i ≤ 8192 ∧ 1 ≤ inMaxH m i ∧ inMaxH m i ≤ 4320)) &&
  decide (captureBytes m ≤ poolBytes)
def inputCheck3 (m : WordMap) : Bool :=
  [6, 7].all fun i => !inEnable m i ||
    (let a := aStream (i - 6)
     let paths := m.byte (a + 10)
     let mul := if nbit (m.byte (a + 31)) 0 then 2 else 1
     paths % 4 != 0 && (!nbit paths 0 || (phyRate m 0 != 0 && m.half (a + 8) != 0)) && (!nbit paths 1 || (phyRate m 1 != 0 && m.half (a + 20) != 0)) &&
     decide (m.half (a + 24) ≤ inMaxW m i ∧ m.half (a + 26) * mul ≤ inMaxH m i) && decide (m.byte (a + 28) ≤ 2) &&
     (m.byte (a + 29) == 8 || m.byte (a + 29) == 10 || m.byte (a + 29) == 12) && decide (1 ≤ m.byte (a + 30) ∧ m.byte (a + 30) ≤ 3) &&
     decide (1 ≤ m.half (a + 22) ∧ m.half (a + 22) ≤ 100))
def inputCheck4 (m : WordMap) : Bool := !m.bit 0x30010 31 || phyRate m (m.fld 0x30010 8 8) != 0
/-- The nominal payload rate of the sealed inputs in Mbit/s (R19, R288 check 5). -/
def sealedRate (m : WordMap) : Nat :=
  ((List.range 8).map fun i =>
    if !(inEnable m i && inSealed m i && groupLead m i == i) then 0
    else if i < 4 then 11880 * (groupOf m i).length
    else if i < 6 then [1, 2, 4, 4].getD (m.fld (aInCfg i) 13 12) 0 * [1620, 2700, 5400, 8100, 10000, 13500, 20000, 0].getD (m.fld (aInCfg i) 18 16) 0
    else
      let paths := m.byte (aStream (i - 6) + 10)
      let r := fun p => if nbit paths p then [0, 10000, 25000].getD (phyRate m p) 0 else 0
      max (r 0) (r 1)).sum
/-- The first failed check of R288. -/
def inputChecks (m : WordMap) (poolBytes : Nat) : Option Nat :=
  let cs := [inputCheck1 m, inputCheck2 m poolBytes, inputCheck3 m, inputCheck4 m, decide (sealedRate m ≤ 240000)]
  (cs.findIdx? (! ·)).map (· + 1)

/-- The EDID of a DisplayPort input passes every block's checksum and the extension count (R276). -/
def edidOk (m : WordMap) (i : Nat) : Bool :=
  let a := 0x04002000 + 0x800 * (i - 4)
  let blocks := m.byte (a + 126) + 1
  decide (blocks ≤ 16) &&
  (List.range blocks).all fun b => ((List.range 128).map fun k => m.byte (a + 128 * b + k)).sum % 256 == 0
/-- The EDID byte served to a source: the held EDID, or the built-in one, a free value of the ROM (R276). -/
def servedEdid (m : WordMap) (i : Nat) (deflt : Bool) (k : Nat) : Byte :=
  if deflt then Config.edidRom k else BitVec.ofNat 8 (m.byte (0x04002000 + 0x800 * (i - 4) + k))

end Sys2Proof.Machine
end

