-- ==== Sys2Proof/Machine/Programs.lean ====
section
/-! DEFINITION. Light sequence programs (R72 to R85): instructions, the events they post, the light they give, the load
schedule and the checks of R80, as functions of a word map. -/
namespace Sys2Proof.Machine

/-- One instruction word with its fields (R74). -/
structure ProgInstr where
  op : Nat
  t : Nat
  slot : Nat
  blocks : Nat
  bal : Bool
  probe : Bool
  len : Nat
  markEn : Bool
  mark : Nat
  word : Nat
  deriving DecidableEq, Repr

/-- Split an instruction word into its fields (R74). -/
def ProgInstr.ofWord (w : Nat) : ProgInstr :=
  { op := nbits w 63 60, t := nbits w 59 34, slot := nbits w 33 27, blocks := nbits w 15 0, bal := nbit w 26,
    probe := nbit w 25, len := nbits w 24 0, markEn := nbit w 8, mark := nbits w 7 0, word := w }

/-- The operand bits an opcode leaves reserved are 0 and the opcode is defined (R74). -/
def ProgInstr.wellFormed (i : ProgInstr) : Bool :=
  let r := i.word % 2 ^ 34
  match i.op with
  | 1 => nbits r 26 16 == 0
  | 2 => r / 2 ^ 16 == 0
  | 3 => r % 2 ^ 27 == 0
  | 4 => i.bal || i.slot == 0
  | 5 => r % 2 ^ 27 == 0
  | 6 => r / 2 ^ 9 == 0
  | 15 => r == 0
  | _ => false

/-- The instruction words of program `p` of output `o`. -/
def progInstrs (m : WordMap) (o p : Nat) : List ProgInstr :=
  (List.range (progNinstr m o p)).map fun k =>
    ProgInstr.ofWord (m.nat (aProg o p + 32 + 8 * k) + 2 ^ 32 * m.nat (aProg o p + 36 + 8 * k))

def aSeqTiming (o : Nat) : Nat := 0xA0104 + 0x40 * o
def seamDark (m : WordMap) (o : Nat) : Nat := m.fld (aSeqTiming o) 15 0
def chanDark (m : WordMap) (o : Nat) : Nat := m.fld (aSeqTiming o) 31 16
def aSeqLoad (o : Nat) : Nat := 0xA0108 + 0x40 * o
def loadRelease (m : WordMap) (o : Nat) : Nat := m.fld (aSeqLoad o) 15 0
def loadGuard (m : WordMap) (o : Nat) : Nat := m.fld (aSeqLoad o) 31 16
def aSeqSkew (o : Nat) : Nat := 0xA010C + 0x40 * o
def ampFine (m : WordMap) (o : Nat) : Nat := m.fld (aSeqSkew o) 12 8
def strobeFine (m : WordMap) (o : Nat) : Nat := m.fld (aSeqSkew o) 4 0

/-- An event of a program before its frame start is known: class, index, time from frame start, payload. -/
structure ProgEvent where
  cls : Nat
  idx : Nat
  t : Nat
  payload : Nat
  deriving DecidableEq, Repr

/-- The strobe payload of R71: KIND 0 show, 1 clear, 2 complement. -/
def strobePayload (blocks kind slot : Nat) : Nat := blocks + kind * 2 ^ 16 + slot * 2 ^ 24
def strobeKind (payload : Nat) : Nat := nbits payload 17 16
def strobeBlocks (payload : Nat) : Nat := nbits payload 15 0

/-- The first row of reset block `b` (R73). -/
def blockRow (h nb b : Nat) : Nat := b * h / nb

/-- The events one instruction posts and the channel that is current after it (R75, R79). -/
def instrEvents (m : WordMap) (o t nb : Nat) (cur : Option Nat) (i : ProgInstr) : List ProgEvent × Option Nat :=
  let all := 2 ^ nb - 1
  let chan := psChanOf m o t i.slot
  let ampJ := psAmp m o t i.slot
  let off := match cur with | some c => [(⟨1, c, i.t, 0⟩ : ProgEvent)] | none => []
  match i.op with
  | 1 => ([⟨0, 0, i.t, strobePayload i.blocks 0 i.slot⟩], cur)
  | 2 => ([⟨0, 0, i.t, strobePayload i.blocks 1 0⟩], cur)
  | 3 => ([⟨1, cur.getD chan, i.t, 0⟩, ⟨0, 0, i.t, strobePayload all 0 i.slot⟩, ⟨1, cur.getD chan, i.t + seamDark m o, ampJ⟩],
          some (cur.getD chan))
  | 5 => ([⟨1, cur.getD chan, i.t, 0⟩, ⟨0, 0, i.t, strobePayload all 0 i.slot⟩, ⟨1, chan, i.t + chanDark m o, ampJ⟩], some chan)
  | 4 => (off ++ [⟨0, 0, i.t, if i.bal then strobePayload all 2 i.slot else strobePayload all 1 0⟩], cur)
  | 6 => (if i.markEn then [⟨5, 0, i.t, i.mark⟩] else [], cur)
  | _ => (off ++ [⟨0, 0, i.t, strobePayload all 1 0⟩], none)

/-- The events of a list of instructions, in posting order (R75, R86). -/
def eventsOf (m : WordMap) (o t nb : Nat) : Option Nat → List ProgInstr → List ProgEvent
  | _, [] => []
  | cur, i :: r => let e := instrEvents m o t nb cur i; e.1 ++ eventsOf m o t nb e.2 r

/-- The events of a PLANE program (R75). -/
def planeEvents (m : WordMap) (o p : Nat) : List ProgEvent :=
  eventsOf m o (progPlaneSet m o p) (progNblocks m o p) none (progInstrs m o p)

/-- The events of a KIND 2 program on an output with `chans` light channels: forced blanks at DARK, forced blank and
envelope off at END, and marks (R85, R174). -/
def scanProgEvents (m : WordMap) (o p : Nat) : List ProgEvent :=
  (progInstrs m o p).flatMap fun i =>
    match i.op with
    | 4 => [⟨3, 0xFF, i.t, 1⟩, ⟨3, 0xFF, i.t + i.len, 0⟩]
    | 6 => if i.markEn then [⟨5, 0, i.t, i.mark⟩] else []
    | 15 => ⟨3, 0xFF, i.t, 1⟩ :: (List.range (fsChannels m o)).map fun c => ⟨1, c, i.t + 1 + c / 4, 0⟩
    | _ => []
/-- The frame-head events of a SCAN frame: the slow-axis event and the envelope (R161, R174). -/
def scanHeadEvents (m : WordMap) (o : Nat) : List ProgEvent :=
  ⟨4, 1, 0, 0⟩ :: (List.range (fsChannels m o)).map fun c => ⟨1, c, (c + 1) / 4, 0xFFFF⟩

/-! ### Light and loads -/

/-- Per block, the slot shown and the tick from which it is lit. -/
abbrev Shown := List (Option (Nat × Nat))

/-- Close the light of the blocks in `bs` at `t`: the (block, slot, ticks) pieces that end (R75, R76). -/
def closeLight (sh : Shown) (bs t : Nat) : List (Nat × Nat × Nat) :=
  (List.range sh.length).filterMap fun b =>
    if nbit bs b then match sh.getD b none with | some (j, t0) => some (b, j, t - t0) | none => none else none

/-- Set what the blocks in `bs` show. -/
def showBlocks (sh : Shown) (bs : Nat) (v : Option (Nat × Nat)) : Shown :=
  (List.range sh.length).map fun b => if nbit bs b then v else sh.getD b none

/-- The pieces of light a list of instructions gives (R75, R76). -/
def lightPieces (m : WordMap) (o nb : Nat) : Shown → List ProgInstr → List (Nat × Nat × Nat)
  | _, [] => []
  | sh, i :: r =>
    let all := 2 ^ nb - 1
    let step := fun bs v => closeLight sh bs i.t ++ lightPieces m o nb (showBlocks sh bs v) r
    match i.op with
    | 1 => step i.blocks (some (i.slot, i.t))
    | 2 => step i.blocks none
    | 3 => step all (some (i.slot, i.t + seamDark m o))
    | 5 => step all (some (i.slot, i.t + chanDark m o))
    | 4 => step all none
    | 15 => step all none
    | _ => lightPieces m o nb sh r

/-- The light of slot `j` in block `b` (R76). -/
def lightOf (pieces : List (Nat × Nat × Nat)) (b j : Nat) : Nat :=
  (pieces.map fun x => if x.1 = b ∧ x.2.1 = j then x.2.2 else 0).sum

/-- One load of the schedule of R81. -/
structure LoadSlot where
  block : Nat
  slot : Nat
  comp : Bool
  start : Nat
  done : Nat
  deadline : Nat
  strobe : Nat
  deriving DecidableEq, Repr

/-- The state of the schedule: when the link and each block are free, the strobes judged and the loads so far, and the first failure,
as the number of its strobe and its block. -/
structure Sched where
  linkFree : Nat
  release : List Nat
  strobes : Nat
  loads : List LoadSlot
  fail : Option (Nat × Nat)
  deriving DecidableEq, Repr

/-- One block's load for a strobe at `T_r` (R81). -/
def schedLoad (m : WordMap) (o nb : Nat) (e : ProgEvent) (s : Sched) (b : Nat) : Sched :=
  match s.fail with
  | some _ => s
  | none =>
    let h := fsHeight m o
    let rows := blockRow h nb (b + 1) - blockRow h nb b
    let start := max s.linkFree (nth s.release b 0)
    match loadTicks m o (rows * rowBytes m o * 8) with
    | none => { s with fail := some (s.strobes, b) }
    | some x =>
      let done := start + x + 64
      if e.t < done + loadGuard m o then { s with fail := some (s.strobes, b) }
      else { s with linkFree := done, loads := s.loads ++ [⟨b, nbits e.payload 30 24, strobeKind e.payload == 2, start, done, e.t - loadGuard m o, e.t⟩] }

/-- One strobe of the schedule (R81). -/
def schedStrobe (m : WordMap) (o nb : Nat) (s : Sched) (e : ProgEvent) : Sched :=
  let bs := (List.range nb).filter fun b => nbit e.payload b
  let s1 := if strobeKind e.payload = 1 then s else bs.foldl (schedLoad m o nb e) s
  { s1 with strobes := s1.strobes + 1, release := (List.range nb).map fun b => if nbit e.payload b then e.t + loadRelease m o else nth s1.release b 0 }

/-- Insert an event in order of time, after those of the same time. -/
def insertEvent (e : ProgEvent) : List ProgEvent → List ProgEvent
  | [] => [e]
  | a :: r => if e.t < a.t then e :: a :: r else a :: insertEvent e r

/-- The load schedule of a frame's strobes, in order of fire time, then of posting (R81). -/
def loadSchedule (m : WordMap) (o p : Nat) : Sched :=
  let nb := progNblocks m o p
  let strobes := ((planeEvents m o p).filter fun e => e.cls == 0).foldl (fun l e => insertEvent e l) []
  strobes.foldl (schedStrobe m o nb) { linkFree := 64, release := List.replicate nb 0, strobes := 0, loads := [], fail := none }

/-! ### The checks of R80 -/

/-- What a failed check of R80 reports in SEQ_CHECK_n. -/
structure SeqFail where
  check : Nat
  prog : Nat
  instr : Nat
  block : Nat
  deriving DecidableEq, Repr

/-- TG_NUM_n and TG_CFG_n. -/
def aTgNum (o : Nat) : Nat := 0x20100 + 0x40 * o
def aTgCfg (o : Nat) : Nat := 0x20104 + 0x40 * o
def tgNum (m : WordMap) (o : Nat) : Nat := m.nat (aTgNum o)
def tgDen (m : WordMap) (o : Nat) : Nat := m.fld (aTgCfg o) 7 0
/-- GEN_SRC and SRC_IDX of an output. -/
def genSrc (m : WordMap) (o : Nat) : Nat := m.fld (aTgCfg o) 10 8
def srcIdx (m : WordMap) (o : Nat) : Nat := m.fld (aTgCfg o) 14 12
/-- P_min = floor(0.9995 × NUM / DEN) (R80, check 11). -/
def pMin (m : WordMap) (o : Nat) : Nat := tgNum m o * 9995 / (tgDen m o * 10000)

/-- Checks 1 of R80 that concern the output's own registers. -/
def seqRegsOk (m : WordMap) (o : Nat) : Bool :=
  let sel := m.nat (aSeqSelect o)
  let skew := m.nat (aSeqSkew o)
  decide (120 ≤ chanDark m o ∧ chanDark m o ≤ 40000 ∧ 120 ≤ seamDark m o ∧ seamDark m o ≤ 8000) &&
  decide (ampFine m o ≤ 24 ∧ strobeFine m o ≤ 24) &&
  nbits sel 31 16 == 0 && !nbit sel 7 && !nbit sel 3 && nbits skew 31 13 == 0 && nbits skew 7 5 == 0 &&
  ((residents m o).isEmpty || seqResident m o (seqProg m o))

/-- The header of a program (R80, check 1); a KIND 2 program's PLANE_SET is ignored (R179). -/
def headerOk (m : WordMap) (o p : Nat) : Bool :=
  m.half (aProg o p) == 2 && decide (1 ≤ progNinstr m o p ∧ progNinstr m o p ≤ 2044) &&
  decide (1 ≤ progNblocks m o p ∧ progNblocks m o p ≤ 16) && (progKind m o p == 2 || decide (progPlaneSet m o p ≤ 7)) &&
  crc32c (m.bytes (aProg o p + 32) (8 * progNinstr m o p)) == m.nat (aProg o p + 28)

/-- Check 2 of R80: the index of the first instruction at fault. -/
def orderFail : Nat → Option Nat → List ProgInstr → Option Nat
  | _, _, [] => none
  | k, prev, i :: r =>
    let early := match prev with | none => decide (i.t < 1024) | some t => decide (i.t < t)
    if !i.wellFormed || early || ((i.op == 15) != r.isEmpty) then some k else orderFail (k + 1) (some i.t) r

/-- Check 3 of R80 on one instruction. -/
def slotsOk (m : WordMap) (o t nb : Nat) (i : ProgInstr) : Bool :=
  let slotOk := decide (i.slot < psSlots m o t)
  let blocksOk := i.blocks != 0 && decide (i.blocks < 2 ^ nb)
  match i.op with
  | 1 => slotOk && blocksOk
  | 2 => blocksOk
  | 3 => slotOk
  | 5 => slotOk
  | 4 => !i.bal || slotOk
  | _ => true

/-- Check 4 of R80: (in a group, current channel) is carried along; the index of the first failure. -/
def groupFail (m : WordMap) (o t : Nat) : Nat → Bool → Option Nat → List ProgInstr → Option Nat
  | _, _, _, [] => none
  | k, grp, cur, i :: r =>
    let c := psChanOf m o t i.slot
    match i.op with
    | 1 => if grp then groupFail m o t (k + 1) grp cur r else some k
    | 2 => if grp then groupFail m o t (k + 1) grp cur r else some k
    | 3 => if cur = none ∨ cur = some c then groupFail m o t (k + 1) true (some c) r else some k
    | 5 => if cur = some c then some k else groupFail m o t (k + 1) true (some c) r
    | 4 => groupFail m o t (k + 1) false cur r
    | 15 => groupFail m o t (k + 1) false none r
    | _ => groupFail m o t (k + 1) grp cur r

/-- Check 5 of R80: the slots of a group share the opener's amplitude and channel (R77). -/
def amplitudeFail (m : WordMap) (o t : Nat) : Nat → Option Nat → List ProgInstr → Option Nat
  | _, _, [] => none
  | k, opener, i :: r =>
    match i.op with
    | 3 => amplitudeFail m o t (k + 1) (some i.slot) r
    | 5 => amplitudeFail m o t (k + 1) (some i.slot) r
    | 4 => amplitudeFail m o t (k + 1) none r
    | 15 => amplitudeFail m o t (k + 1) none r
    | 1 =>
      match opener with
      | some j =>
        if psAmp m o t i.slot = psAmp m o t j ∧ psChanOf m o t i.slot = psChanOf m o t j then amplitudeFail m o t (k + 1) opener r
        else some k
      | none => amplitudeFail m o t (k + 1) opener r
    | _ => amplitudeFail m o t (k + 1) opener r

/-- Check 6 of R80: the first block with a slot whose light is not its DURATION (R76). -/
def lightFail (m : WordMap) (o t nb : Nat) (l : List ProgInstr) : Option Nat :=
  let pieces := lightPieces m o nb (List.replicate nb none) l
  (List.range nb).find? fun b => (List.range (psSlots m o t)).any fun j => lightOf pieces b j != psDuration m o t j

/-- Check 7 of R80: the darks after SEAM, CHAN and DARK are respected; of several DARKs, the SEAM or CHAN that follows lies past the
end of each. -/
def darkFail (m : WordMap) (o : Nat) : Nat → Nat → Nat → List ProgInstr → Option Nat
  | _, _, _, [] => none
  | k, next, lit, i :: r =>
    let opens := i.op == 3 || i.op == 5
    if i.t < next ∨ (opens ∧ i.t < lit) then some k
    else
      let next' := if i.op = 3 then i.t + seamDark m o else if i.op = 5 then i.t + chanDark m o else 0
      let lit' := if i.op = 4 then max lit (i.t + i.len) else if opens then 0 else lit
      darkFail m o (k + 1) next' lit' r

/-- Check 10 of R80: at every fine offset of the frame start, no tick carries more than 4 events. -/
def crowdFail (m : WordMap) (o : Nat) (l : List ProgEvent) : Bool :=
  let tick := fun f (e : ProgEvent) =>
    e.t + (if e.cls = 0 ∧ 25 ≤ f + strobeFine m o then 1 else if e.cls = 1 ∧ 25 ≤ f + ampFine m o then 1 else 0)
  (List.range 25).any fun f => l.any fun e => 4 < (l.filter fun e' => tick f e' == tick f e).length

/-- Check 12 of R80: KIND agrees with the mode; R84 and R85. -/
def kindOk (m : WordMap) (o p : Nat) (l : List ProgInstr) : Bool :=
  let nb := progNblocks m o p
  let t := progPlaneSet m o p
  match progKind m o p with
  | 0 => !isScan m o
  | 1 => !isScan m o && l.all (fun i => !(i.op == 1 || i.op == 2) || i.blocks == 2 ^ nb - 1) &&
    (match loadTicks m o (fsHeight m o * rowBytes m o * 8) with
     | none => false
     | some x => (List.range (psSlots m o t)).all fun j => 4 * (loadRelease m o + (x + 64) + loadGuard m o) ≤ psDuration m o t j)
  | 2 => isScan m o && l.all fun i => (i.op == 4 && !i.bal) || i.op == 6 || i.op == 15
  | _ => false

/-- The instruction that posts the n-th strobe of a program: every instruction but WAIT posts one (R75). -/
def strobeInstr (l : List ProgInstr) (n : Nat) : Nat :=
  nth ((List.range l.length).filter fun k => (l[k]?).any fun i => i.op != 6) n 0

/-- Checks 1 to 12 of R80 on resident program `p`; a KIND 2 program meets 3 to 6 and 9 as they stand (R179). -/
def programFail (m : WordMap) (o p : Nat) : Option SeqFail :=
  if !seqRegsOk m o || !headerOk m o p then some ⟨1, p, 0, 0⟩
  else
    let l := progInstrs m o p
    let t := progPlaneSet m o p
    let nb := progNblocks m o p
    let plane := progKind m o p != 2
    match orderFail 0 none l with
    | some k => some ⟨2, p, k, 0⟩
    | none =>
    match (if plane then l.findIdx? fun i => !slotsOk m o t nb i else none) with
    | some k => some ⟨3, p, k, 0⟩
    | none =>
    match (if plane then groupFail m o t 0 false none l else none) with
    | some k => some ⟨4, p, k, 0⟩
    | none =>
    match (if plane then amplitudeFail m o t 0 none l else none) with
    | some k => some ⟨5, p, k, 0⟩
    | none =>
    match (if plane then lightFail m o t nb l else none) with
    | some b => some ⟨6, p, 0, b⟩
    | none =>
    match darkFail m o 0 0 0 l with
    | some k => some ⟨7, p, k, 0⟩
    | none =>
    match l.findIdx? fun i => i.op == 4 && i.probe && decide (i.len < 1760) with
    | some k => some ⟨8, p, k, 0⟩
    | none =>
    match (if plane then (loadSchedule m o p).fail else none) with
    | some (n, b) => some ⟨9, p, strobeInstr l n, b⟩
    | none =>
    if crowdFail m o (if plane then planeEvents m o p else scanProgEvents m o p) then some ⟨10, p, 0, 0⟩
    else if (match l.getLast? with | some e => decide (pMin m o < e.t + 400) | none => true) then some ⟨11, p, l.length - 1, 0⟩
    else if !kindOk m o p l then some ⟨12, p, 0, 0⟩
    else none

/-- The checks of R80 on an output: its registers, then every resident program in increasing index. For a fault of the registers
themselves, which are no program's, PROG reports the program that SEQ_SELECT_n selects (DESIGN CHOICE,
notes/assumptions/120.md). -/
def seqChecks (m : WordMap) (o : Nat) : Option SeqFail :=
  if !seqRegsOk m o then some ⟨1, seqProg m o, 0, 0⟩ else firstFail (programFail m o) (residents m o)

end Sys2Proof.Machine
end

