-- ==== Sys2Proof/Machine/Link.lean ====
section
/-! DEFINITION. The mirror link's words and frames (R130 to R148): strobe words, control blocks, back-channel bodies, the
array's acceptance and PORT checks 11 to 13. -/
namespace Sys2Proof.Machine

/-- CRC-6 over bits 1 to 23 of a strobe word, bit 1 first (R140). -/
def strobeCrc (w : Nat) : Nat := crcMsb 6 0x03 0x3F ((List.range 23).map fun i => if nbit w (i + 1) then 1 else 0)
/-- The 32-bit strobe word of a kind, a block set and a sequence number (R140). -/
def strobeWord (kind blocks seq : Nat) : Nat :=
  let body := 1 + kind % 4 * 2 + blocks % 65536 * 8 + seq % 32 * 2 ^ 19
  body + strobeCrc body * 2 ^ 24 + 2 ^ 31

/-- The payload of a LOAD_START block (R133). -/
def loadStartBlock (block firstRow nrows rowWords seq : Nat) (comp : Bool) : Nat :=
  0x66 + block * 2 ^ 8 + firstRow * 2 ^ 12 + nrows * 2 ^ 24 + rowWords * 2 ^ 36 + seq % 256 * 2 ^ 44 + (if comp then 2 ^ 52 else 0)
/-- The payload of a LOAD_END block (R133). -/
def loadEndBlock (seq crc : Nat) : Nat := 0x87 + seq % 256 * 2 ^ 8 + crc * 2 ^ 16
/-- The payload of a COMMAND block (R137). -/
def commandBlock (opcode seq arg : Nat) : Nat :=
  0x33 + opcode * 2 ^ 8 + seq % 256 * 2 ^ 16 + arg * 2 ^ 24
/-- The payload of a TRAIN block (R132). -/
def trainBlock (lane nlanes rate seq : Nat) : Nat := 0x2D + lane * 2 ^ 8 + nlanes * 2 ^ 13 + rate * 2 ^ 16 + seq % 256 * 2 ^ 24
/-- The payload of an ALIGN block (R132). -/
def alignBlock (seq : Nat) : Nat := 0x4B + seq % 65536 * 2 ^ 8
/-- The payload of an IDLE block (R132). -/
def idleBlock : Nat := 0x1E

/-! ### Blocks and columns (R130, R131) -/

/-- The scrambler 1 + x^39 + x^58 over one payload bit: the register, its newest bit lowest, and the bit sent. -/
def scrambleBit (st d : Nat) : Nat × Nat :=
  let b := (d + nbits st 38 38 + nbits st 57 57) % 2
  ((st * 2 + b) % 2 ^ 58, b)
/-- A lane's scrambler over a 64-bit payload, bit 0 first (R130): the register after it and the scrambled payload. -/
def scramble (st payload : Nat) : Nat × Nat :=
  (List.range 64).foldl (fun r i =>
    let x := scrambleBit r.1 (nbits payload i i)
    (x.1, r.2 + x.2 * 2 ^ i)) (st, 0)
/-- 64 bits of PRBS31 from a register, its newest bit lowest: the register after them and the bits, the first lowest (R137).
The generator is x^31 + x^28 + 1 (PRESUMED, notes/assumptions/98.md). -/
def prbsWord (st : Nat) : Nat × Nat :=
  (List.range 64).foldl (fun r i =>
    let b := (nbits r.1 30 30 + nbits r.1 27 27) % 2
    ((r.1 * 2 + b) % 2 ^ 31, r.2 + b * 2 ^ i)) (st, 0)

/-- A column lasts 66 bits at the lane rate (R131), in 1/1000 tick. -/
def columnMilli (m : WordMap) (o : Nat) : Nat := [2112, 2640, 4224, 8448].getD (m.fld (aPortCfg o) 1 0) 2112
/-- PORT_POL_n (R154): the lanes transmitted with inverted polarity. -/
def portPol (m : WordMap) (o : Nat) : Nat := m.nat (0xB0104 + 0x40 * o)

/-- A port sends one column (R130, R131): each active lane's payload scrambled behind the sync header, 1 for data and 2 for
control, and inverted where PORT_POL_n says so. -/
def sendColumn (m : WordMap) (o header : Nat) (payload : Nat → Nat) (p : PortState) : PortState :=
  let lanes := (List.range (portLanes m o)).map fun l => (l, scramble (nth p.scram l 0) (payload l))
  { p with
    scram := lanes.foldl (fun r e => listSet r e.1 e.2.1) p.scram
    colAt := p.colAt + columnMilli m o
    wire := (lanes.map fun e =>
      let b := header + e.2.2 * 4
      if nbit (portPol m o) e.1 then 2 ^ 66 - 1 - b else b) :: p.wire }
/-- A control column: the same payload on every lane (R131). -/
def sendControl (m : WordMap) (o payload : Nat) (p : PortState) : PortState := sendColumn m o 2 (fun _ => payload) p

/-- The TRAIN payload of a lane of a port (R132). TRAIN_SEQ counts the port's bring-ups (DESIGN CHOICE,
notes/assumptions/98.md). -/
def trainPayload (m : WordMap) (o : Nat) (p : PortState) (l : Nat) : Nat :=
  trainBlock l (m.fld (aPortCfg o) 5 4) (m.fld (aPortCfg o) 1 0) p.trainSeq

/-- `n` columns that fill the link pass (R131, R137, R147): TRAIN columns at bring-up steps 1 and 2, PRBS31 data columns during
the lane test, IDLE columns otherwise. -/
def fillLanes (m : WordMap) (o n : Nat) (p : PortState) : PortState :=
  let lanes := List.range (portLanes m o)
  let p1 :=
    if p.link = 1 ∨ p.link = 2 then
      { p with scram := lanes.foldl (fun r l => listSet r l (affineIter 58 (fun st => (scramble st (trainPayload m o p l)).1) n (nth r l 0))) p.scram }
    else if p.link = 5 ∧ p.pattern = 1 then
      let f := affineIter 89 (fun x =>
        let w := prbsWord (x / 2 ^ 58)
        (scramble (x % 2 ^ 58) w.2).1 + w.1 * 2 ^ 58) n
      let both := lanes.map fun l => (l, f (nth p.scram l 0 + nth p.prbs l 0 * 2 ^ 58))
      { p with scram := both.foldl (fun r e => listSet r e.1 (e.2 % 2 ^ 58)) p.scram,
               prbs := both.foldl (fun r e => listSet r e.1 (e.2 / 2 ^ 58)) p.prbs }
    else
      let f := affineIter 58 (fun st => (scramble st idleBlock).1) n
      { p with scram := lanes.foldl (fun r l => listSet r l (f (nth r l 0))) p.scram }
  { p1 with colAt := p.colAt + n * columnMilli m o }
/-- The columns that fill the link up to a tick pass; a port whose link is down sends none. -/
def fillTo (m : WordMap) (o now : Nat) (p : PortState) : PortState :=
  if p.link = 0 ∨ portLanes m o = 0 then { p with colAt := max p.colAt (now * 1000) }
  else fillLanes m o (ceilDiv (now * 1000 - p.colAt) (columnMilli m o)) p

/-- An ALIGN column with the next ALIGN_SEQ (R132, R133, R147). -/
def sendAlign (m : WordMap) (o : Nat) (p : PortState) : PortState :=
  { sendControl m o (alignBlock p.alignSeq) p with alignSeq := (p.alignSeq + 1) % 65536 }

/-- Bring-up begins at step 1 (R147): the port sends TRAIN columns; commands that waited for an echo are given up. -/
def startTraining (m : WordMap) (o now : Nat) (p : PortState) : PortState :=
  let q := { fillTo m o now p with link := 1, validStatus := 0, trainSeq := (p.trainSeq + 1) % 256, wire := [],
                                   cmd := none, cmdQueue := [], resend := false }
  sendColumn m o 2 (trainPayload m o q) q
/-- Step 3 of the bring-up begins (R147): 16 ALIGN columns, then IDLE. -/
def startAlign (m : WordMap) (o now : Nat) (p : PortState) : PortState :=
  (List.range 16).foldl (fun p _ => sendAlign m o p) { fillTo m o now p with link := 3, wire := [] }

/-- The words of bytes, eight to a word, byte i in bits 8i + 7 to 8i (R134). -/
def loadWords : List Byte → List Nat
  | a :: b :: c :: d :: e :: f :: g :: h :: r => leNat [a, b, c, d, e, f, g, h] :: loadWords r
  | [] => []
  | l => [leNat l]
/-- Data columns (R134): word k on lane k mod N of column floor(k / N), the last column padded with zero words. -/
def sendData (m : WordMap) (o : Nat) : Nat → List Nat → PortState → PortState
  | 0, _, p => p
  | k + 1, words, p =>
    let n := max 1 (portLanes m o)
    sendData m o k (words.drop n) (sendColumn m o 1 (fun l => (words.take n).getD l 0) p)
/-- The data columns of a number of words. -/
def dataColumns (m : WordMap) (o words : Nat) : Nat := ceilDiv words (max 1 (portLanes m o))

/-- The bytes of a load, complemented for a balanced dark slot (R91, R134): `fs` reads a frame-store byte. -/
def loadBytes (m : WordMap) (o t b slot block nb : Nat) (comp : Bool) (fs : Nat → Byte) : List Byte :=
  let h := fsHeight m o
  let r0 := blockRow h nb block
  let n := (blockRow h nb (block + 1) - r0) * rowBytes m o
  let a := planeAddr m o t b slot r0 0
  (List.range n).map fun i => if comp then ~~~ fs (a + i) else fs (a + i)

/-- Two-byte little-endian field of a frame body. -/
def body2 (l : List Byte) (i : Nat) : Nat := (l.getD i 0).toNat + 256 * (l.getD (i + 1) 0).toNat
def body4 (l : List Byte) (i : Nat) : Nat := body2 l i + 65536 * body2 l (i + 2)

/-- A status body, bytes 2 to 29 of the frame (R146). -/
def parseStatus (l : List Byte) : ArrayStatus :=
  { state := (l.getD 0 0).toNat, flags := (l.getD 1 0).toNat, cmdSeq := (l.getD 2 0).toNat, loadSeq := (l.getD 3 0).toNat,
    stbSeq := (l.getD 4 0).toNat, temp := signedOf 16 (body2 l 6), loadErrs := body2 l 8, laneLock := body4 l 10, laneErr := body4 l 14 }
/-- An identity body, bytes 2 to 29 of the frame (R146). -/
def parseIdent (l : List Byte) : Ident :=
  { width := body2 l 0, height := body2 l 2, maxBlocks := (l.getD 4 0).toNat, maxLanes := (l.getD 5 0).toNat,
    rates := (l.getD 6 0).toNat, releaseMin := body2 l 7, tArst := (l.getD 9 0).toNat, parkTime := body2 l 10,
    unparkTime := body2 l 12, arrayId := body4 l 14 }
/-- The IDENT view's bytes of an accepted array (R149). -/
def identBytes (i : Ident) : List Byte :=
  leBytes 2 i.width ++ leBytes 2 i.height ++ leBytes 1 i.maxBlocks ++ leBytes 1 i.maxLanes ++ leBytes 1 i.rates ++
  leBytes 2 i.releaseMin ++ leBytes 1 i.tArst ++ leBytes 2 i.parkTime ++ leBytes 2 i.unparkTime ++ leBytes 4 i.arrayId ++ List.replicate 10 0

/-- Whether the check word of a 32-character back-channel frame holds: TYPE and body, then the CRC-16 low byte first (R146). -/
def bchCrcOk (l : List Byte) : Bool := l.length == 31 && crc16 (l.take 29) == body2 l 29

/-- The port's acceptance of an array (R148). -/
def acceptsArray (m : WordMap) (o : Nat) (i : Ident) : Bool :=
  i.width == fsWidth m o && i.height == fsHeight m o &&
  (residents m o).all (fun p => decide (progNblocks m o p ≤ i.maxBlocks)) &&
  decide (m.fld (aPortCfg o) 5 4 ≤ i.maxLanes) && nbit i.rates (m.fld (aPortCfg o) 1 0) && decide (i.releaseMin ≤ loadRelease m o)

/-- ADVANCE of PORT_CFG_n. -/
def portAdvance (m : WordMap) (o : Nat) : Nat := m.fld (aPortCfg o) 12 8
/-- PORT checks 11 to 13 of an output with MODE 0 (R148): the first that fails. -/
def portChecks (m : WordMap) (o : Nat) (ident : Option Ident) : Option Nat :=
  let w := m.nat (aPortCfg o)
  if m.fld (aPortCfg o) 5 4 = 3 ∨ nbits w 30 29 ≠ 0 ∨ nbits w 15 13 ≠ 0 ∨ nbits w 7 6 ≠ 0 ∨ nbits w 3 2 ≠ 0 then some 11
  else if (match ident with | some i => !acceptsArray m o i | none => false) then some 12
  else if loadGuard m o < portAdvance m o + 32 then some 13
  else none

end Sys2Proof.Machine
end

