-- ==== Sys2Proof/Machine/Light.lean ====
section
/-! DEFINITION. Light targets (R103 to R109): the light of a string, its inverse, the targets and caps of an amplitude
event, the domain scale, the wavelength tables and the optical loop, as functions of settings and drive state; the
checks of R523. -/
namespace Sys2Proof.Machine

def strGroup (m : WordMap) (nn : Nat) : Nat := m.fld (aStrMap nn) 18 16
def strBoard (m : WordMap) (nn : Nat) : Nat := m.fld (aStrMap nn) 14 12
def strOut (m : WordMap) (nn : Nat) : Nat := m.fld (aStrMap nn) 25 24
def strChan (m : WordMap) (nn : Nat) : Nat := m.fld (aStrMap nn) 22 20
def strEnabled (m : WordMap) (nn : Nat) : Bool := m.bit (aStrMap nn) 31
def aStrLimit (nn : Nat) : Nat := 0xC0104 + 0x20 * nn
def aStrSw (nn : Nat) : Nat := 0xC0108 + 0x20 * nn
def strFsMa (m : WordMap) (nn : Nat) : Nat := m.fld (aStrLimit nn) 31 16
def strRampMa (m : WordMap) (nn : Nat) : Nat := m.fld (aStrLimit nn) 15 0
/-- The policy of a light group: 0 ALL_OR_NONE, 1 COMPENSATE, 2 IGNORE (R117). -/
def groupPolicy (m : WordMap) (g : Nat) : Nat := m.fld 0xC0600 (2 * g + 1) (2 * g)

/-- Y_s(a) for a current fraction `a` (R103). -/
def lightOfString (m : WordMap) (nn : Nat) (a : Rat) : Rat := a * stringEff m nn (a * 65535)

/-- The first of `n` commands from `a` on whose light reaches `y`; the one behind them where none does. -/
def firstCommand (m : WordMap) (nn : Nat) (y : Rat) : Nat → Nat → Nat
  | 0, a => a
  | n + 1, a => if y ≤ lightOfString m nn ((a : Rat) / 65535) then a else firstCommand m nn y n (a + 1)
/-- Y_s⁻¹(y): the smallest 16-bit command whose light is at least `y` (R103); full scale where none is. -/
def invLight (m : WordMap) (nn : Nat) (y : Rat) : Nat := firstCommand m nn y 65535 0

/-- A string is live: enabled and usable, READY, neither failed nor darkened by its group (R98, R126). -/
def liveString (m : WordMap) (d : DriveState) (nn : Nat) : Bool :=
  let s := nth d.strings nn {}
  strEnabled m nn && strFsMa m nn != 0 && s.st == 3 && !s.failed && s.cause != 6

/-! ### The switching stage (R95) -/

/-- PERIOD and DEADTIME of a string in steps of 100 ps. -/
def stagePeriod (m : WordMap) (nn : Nat) : Nat := 25 * m.fld (aStrSw nn) 10 0
def stageDead (m : WordMap) (nn : Nat) : Nat := 25 * m.fld (aStrSw nn) 15 11
/-- The offset of a string's periods: nn × PERIOD / 24, rounded to a step of 100 ps. -/
def stageOffset (m : WordMap) (nn : Nat) : Nat := roundDiv (nn * stagePeriod m nn) 24
/-- Where an instant, in steps of 100 ps, lies in its period. -/
def stagePhase (m : WordMap) (nn t : Nat) : Nat := (t + stagePeriod m nn - stageOffset m nn) % stagePeriod m nn
/-- The duty that leaves both dead times room. -/
def dutyRoom (m : WordMap) (nn : Nat) : Nat := stagePeriod m nn - 2 * stageDead m nn
/-- SW_A_nn and SW_B_nn at an instant: SW_A is high for the duty from the period's start on, SW_B from a dead time after that to a dead
time before the next period. -/
def swA (m : WordMap) (nn : Nat) (x : StringState) (t : Nat) : Bool := x.stageOn && decide (stagePhase m nn t < min x.duty (dutyRoom m nn))
def swB (m : WordMap) (nn : Nat) (x : StringState) (t : Nat) : Bool :=
  x.stageOn && decide (min x.duty (dutyRoom m nn) + stageDead m nn ≤ stagePhase m nn t ∧ stagePhase m nn t + stageDead m nn < stagePeriod m nn)

/-! ### Targets (R104, R105) -/

/-- Q_g (R104). -/
def compFactor (m : WordMap) (d : DriveState) (g : Nat) : Rat :=
  let en := (List.range 24).filter fun nn => strEnabled m nn && strGroup m nn == g
  let lv := en.filter (liveString m d)
  let f := fun nn => (nth d.strings nn {}).flux
  if groupPolicy m g = 1 ∧ !lv.isEmpty ∧ sumRat f lv ≠ 0 then sumRat f en / sumRat f lv else 1

/-- The derating cap of a string's board as a fraction (R107). -/
def boardCap (m : WordMap) (d : DriveState) (nn : Nat) : Rat := ((nth d.boards (strBoard m nn) {}).d : Rat) / 0x8000

def chanIdx (o c : Nat) : Nat := 6 * o + c
def chanOf (d : DriveState) (o c : Nat) : ChanState := nth d.chans (chanIdx o c) {}

/-- S × WF_c × Q_g of a string, with the ramp frame's factor of one half (R104, R255). -/
def targetGain (m : WordMap) (d : DriveState) (o c nn : Nat) : Rat :=
  (nth d.scale o 0x8000 : Rat) / 0x8000 * ((chanOf d o c).wf : Rat) / 0x8000 * compFactor m d (strGroup m nn) *
  (if nth d.half o false then 1 / 2 else 1)

/-- The command of a live string for amplitude `A` and whether it is capped (R104). -/
def stringCommand (m : WordMap) (d : DriveState) (o c nn A : Nat) : Nat × Bool :=
  let y := lightOfString m nn ((A : Rat) / 65535) * targetGain m d o c nn * (chanOf d o c).k
  let cap := lightOfString m nn (boardCap m d nn)
  if cap < y then (invLight m nn cap, true) else (invLight m nn y, false)

/-- PHI(k, c), in codes (R108). -/
def phiOf (m : WordMap) (k c : Nat) : Rat := (m.nat (0x0D003000 + 0x20 * k + 4 * c) : Rat) / 256

/-- The expected reading e_p of a photodiode at amplitude `A` (R104). -/
def expectedReading (m : WordMap) (d : DriveState) (o c k A : Nat) : Rat :=
  let en := chanStrings m o c
  let f := fun nn => (nth d.strings nn {}).flux
  let tot := sumRat f en
  if tot = 0 then 0
  else
    let lit := sumRat (fun nn => f nn * lightOfString m nn ((A : Rat) / 65535) * targetGain m d o c nn) (en.filter (liveString m d))
    phiOf m k c * (((chanOf d o c).rp : Rat) / 0x8000) * lit / tot

/-- The loop bin of an amplitude (R109). -/
def ampBin (A : Nat) : Nat := ((List.range 7).find? fun b => 0x8000 / 2 ^ b ≤ A).getD 7

def aPdMap (k : Nat) : Nat := 0xC0400 + 0x10 * k
/-- Whether photodiode `k` sees channel `c` of output `o` (R108). -/
def pdSees (m : WordMap) (o c k : Nat) : Bool := m.bit (aPdMap k) 31 && m.fld (aPdMap k) 25 24 == o && m.bit (aPdMap k) c
/-- The non-faulted photodiodes mapped to a channel (R108). -/
def chanPds (m : WordMap) (d : DriveState) (o c : Nat) : List Nat :=
  (List.range 8).filter fun k => pdSees m o c k && !(nth d.pds k {}).faulted
def aLoop (o : Nat) : Nat := 0xC0500 + 0x20 * o

/-- One update of k_c from the error and the previous error, with its clamp (R109). -/
def loopStep (m : WordMap) (o : Nat) (c : ChanState) (eps : Rat) : ChanState × Bool :=
  let kp : Rat := m.fld (aLoop o) 31 24
  let ki : Rat := m.fld (aLoop o) 23 16
  let span : Rat := (m.fld (aLoop o) 15 8 : Rat) / 256
  let k := c.k + kp / 256 * (eps - c.eps) + ki / 1024 * eps
  let k' := max (1 - span) (min (1 + span) k)
  ({ c with k := k', eps := eps }, k' ≠ k)

/-- a_max,c as a fraction: the largest AMPLITUDE of the channel over the resident programs' plane sets; 1 on SCAN (R105). -/
def ampMax (m : WordMap) (o c : Nat) : Rat :=
  if isScan m o then 1
  else
    let as := (residents m o).flatMap fun p =>
      let t := progPlaneSet m o p
      (List.range (psCount m o t c)).map fun i => psAmp m o t (psBase m o t c + i)
    ((as.foldl max 0 : Nat) : Rat) / 65535

/-- Whether an enabled string is lost under an IGNORE or ALL_OR_NONE group (R105, R117). -/
def lostString (m : WordMap) (d : DriveState) (nn : Nat) : Bool :=
  let s := nth d.strings nn {}
  (s.failed || s.cause == 6) && groupPolicy m (strGroup m nn) != 1

/-- The limit one channel sets on its domain (R105); none for a channel that needs nothing. -/
def chanLimit (m : WordMap) (d : DriveState) (o c : Nat) : Option Rat :=
  let en := chanStrings m o c
  let f := fun nn => (nth d.strings nn {}).flux
  let wf : Rat := ((chanOf d o c).wf : Rat) / 0x8000
  let have_ := sumRat (fun nn => f nn * lightOfString m nn (boardCap m d nn)) (en.filter (liveString m d))
  let need := wf * sumRat (fun nn => f nn * lightOfString m nn (ampMax m o c)) (en.filter fun nn => !lostString m d nn)
  let byWf := if 0 < wf then some (1 / wf) else none
  if need = 0 then byWf else match byWf with | some x => some (min x (have_ / need)) | none => some (have_ / need)

/-- DOMAIN of an output. -/
def domainOf (m : WordMap) (o : Nat) : Nat := m.fld (aLoop o) 7 6
/-- S_dom of a domain in units of 1/0x8000, rounded down (R105), with the output and channel that set it. -/
def domainLimit (ms : Nat → WordMap) (d : DriveState) (dom : Nat) : Nat × Option (Nat × Nat) :=
  let cands := (List.range 4).flatMap fun o =>
    if domainOf (ms o) o = dom then
      (List.range 6).filterMap fun c =>
        if (chanStrings (ms o) o c).isEmpty then none else (chanLimit (ms o) d o c).map fun x => (o, c, x)
    else []
  let best := cands.foldl (fun (a : Rat × Option (Nat × Nat)) x => if x.2.2 < a.1 then (x.2.2, some (x.1, x.2.1)) else a) (1, none)
  ((best.1 * 0x8000).floor.toNat, best.2)

/-- The adoption of S at a frame boundary (R105). -/
def adoptScale (s sDom : Nat) : Nat := if sDom < s then sDom else min sDom (s + 0x40)

/-- WF_c and RP_c at a wavelength offset Δ in nm (R106). -/
def waveGain (m : WordMap) (o c : Nat) (delta : Rat) : Nat × Nat :=
  let a := 0x0D001000 + chanIdx o c * 0x100
  let x := max 0 (min 32 ((delta + 8) * 2))
  let j := min 31 x.floor.toNat
  let f := x - j
  let lin := fun hi lo =>
    let v0 : Rat := m.fld (a + 4 * j) hi lo
    let v1 : Rat := m.fld (a + 4 * j + 4) hi lo
    (roundRat (v0 + (v1 - v0) * f)).toNat
  (lin 15 0, lin 31 16)

/-- The wavelength of a string in nm at a board temperature in 0.125 °C (R100). -/
def stringWave (s : StringState) (temp : Int) : Rat :=
  300 + s.wl0 / 100 + s.wlTc / 10000 * ((temp : Rat) / 8 - (s.tRef : Rat) / 100)
/-- The wavelength offset of a channel from its wavelength at calibration (R106). -/
def chanDelta (m : WordMap) (d : DriveState) (o c : Nat) : Rat :=
  let en := chanStrings m o c
  let f := fun nn => (nth d.strings nn {}).flux
  let tot := sumRat f en
  if tot = 0 then 0
  else sumRat (fun nn => f nn * (stringWave (nth d.strings nn {}) (nth d.boards (strBoard m nn) {}).temp - (nth d.strings nn {}).calWl)) en / tot

def aLbCfg (b : Nat) : Nat := 0xC0700 + 0x10 * b
def aLbDerate (b : Nat) : Nat := 0xC0704 + 0x10 * b
/-- D_b at a board temperature in 0.125 °C, in units of 1/0x8000 (R107), rounded down (DESIGN CHOICE, notes/assumptions/115.md). -/
def derateOf (m : WordMap) (b : Nat) (temp : Int) : Nat :=
  let start : Rat := m.fld (aLbDerate b) 31 24
  let stop : Rat := m.fld (aLbDerate b) 23 16
  let dmin : Rat := (m.fld (aLbDerate b) 15 8 : Rat) / 256
  let t : Rat := (temp : Rat) / 8
  if t ≤ start then 0x8000
  else if stop < t ∨ stop ≤ start then (dmin * 0x8000).floor.toNat
  else ((1 - (1 - dmin) * (t - start) / (stop - start)) * 0x8000).floor.toNat

/-! ### The checks of R523 -/

/-- Check 1 of R523: none when met, or the string or output at fault. -/
def driveCheck1 (m : WordMap) (showing : Nat → Bool) : Option Nat :=
  match (List.range 24).find? fun nn => strEnabled m nn && (residents m (strOut m nn)).any fun p =>
      progKind m (strOut m nn) p != 2 && psNchan m (strOut m nn) (progPlaneSet m (strOut m nn) p) ≤ strChan m nn with
  | some nn => some nn
  | none => (List.range 4).find? fun o => showing o &&
      (List.range (if isScan m o then fsChannels m o else (residents m o).foldl (fun a p => max a (psNchan m o (progPlaneSet m o p))) 0)).any
        fun c => (chanStrings m o c).isEmpty
/-- Check 2 of R523. -/
def driveCheck2 (m : WordMap) : Option Nat :=
  (List.range 24).find? fun nn => strEnabled m nn &&
    (effEntry m nn 63 != 0x8000 || (List.range 63).any fun k => effEntry m nn (k + 1) == 0)
/-- Check 3 of R523. -/
def driveCheck3 (m : WordMap) : Option Nat :=
  (List.range 24).find? fun nn => strEnabled m nn && (List.range 62).any fun i =>
    effAmp (i + 2) * effEntry m nn (i + 2) ≤ effAmp (i + 1) * effEntry m nn (i + 1)
/-- The first failed check of R523, with the string or output. -/
def driveChecks (m : WordMap) (showing : Nat → Bool) : Option (Nat × Nat) :=
  match driveCheck1 m showing with
  | some x => some (1, x)
  | none => match driveCheck2 m with
    | some x => some (2, x)
    | none => (driveCheck3 m).map fun x => (3, x)

/-! ### Lamp boards -/

/-- The record of a lamp board's EEPROM (R99), none when the check word or a field is out of range (R101): the manual gives the fields no
ranges beyond FORMAT, NLAMPS and STRING; a lamp with I_RATED at or below I_TH, for which R100 has no value, is refused too (DESIGN
CHOICE, notes/assumptions/116.md). -/
def parseBoard (l : List Byte) : Option BoardState :=
  let at_ := fun i => (l.getD i 0).toNat
  let le2 := fun i => at_ i + 256 * at_ (i + 1)
  let n := at_ 2
  let stop := 16 + 16 * n
  if le2 0 ≠ 1 ∨ n < 1 ∨ 96 < n then none
  else if crc32c (l.take stop) ≠ leNat ((l.drop stop).take 4) then none
  else
    let lamps := (List.range n).map fun i =>
      let a := 16 + 16 * i
      ({ string := at_ a, position := at_ (a + 1), wl0 := le2 (a + 2), wlTc := signedOf 16 (le2 (a + 4)), flux := le2 (a + 6),
         iRated := le2 (a + 8), vf := le2 (a + 10), iTh := le2 (a + 12) } : Lamp)
    if lamps.any fun x => decide (23 < x.string) || decide (x.iRated ≤ x.iTh) then none
    else some { eeprom := 1, serial := leNat ((l.drop 4).take 8), tRef := signedOf 16 (le2 12), lamps := lamps }

/-- The derived values of a string from its board's lamps (R100). -/
def deriveString (m : WordMap) (b : BoardState) (nn : Nat) (s : StringState) : StringState :=
  let ls := b.lamps.filter fun x => x.string == nn
  let fs : Rat := strFsMa m nn
  let tot := sumRat (fun x : Lamp => (x.flux : Rat)) ls
  let mean := fun (f : Lamp → Rat) => if tot = 0 then 0 else sumRat (fun x => x.flux * f x) ls / tot
  let fl := sumRat (fun x : Lamp => (x.flux : Rat) * (fs - x.iTh) / ((x.iRated : Rat) - x.iTh)) ls
  { s with flux := fl, weightFlux := fl, wl0 := mean fun x => x.wl0, wlTc := mean fun x => x.wlTc, tRef := b.tRef, binRef := b.tRef,
           volts := (ls.map (·.vf)).sum, lamps := ls.length }

end Sys2Proof.Machine
end

