-- ==== Sys2Proof/Machine/ScanMath.lean ====
section
/-! DEFINITION. The arithmetic of SCAN outputs (R158 to R179): the tracker, the slow axis, the resampling of one link
sample, the linearisation and the checks of R179. -/
namespace Sys2Proof.Machine

def aFax (o : Nat) : Nat := 0xB0118 + 0x40 * o
def faxTol (m : WordMap) (o : Nat) : Nat := m.fld (aFax o) 31 28
def faxAmp (m : WordMap) (o : Nat) : Nat := m.fld (aFax o) 27 16
def faxFreq (m : WordMap) (o : Nat) : Nat := m.fld (aFax o) 15 0
def aUact (o : Nat) : Nat := 0xB011C + 0x40 * o
def aVact (o : Nat) : Nat := 0xB0120 + 0x40 * o
def aVtime (o : Nat) : Nat := 0xB0124 + 0x40 * o
def aVcode (o : Nat) : Nat := 0xB0128 + 0x40 * o
def aJlat (o : Nat) : Nat := 0xB012C + 0x40 * o
def aScanBw (o : Nat) : Nat := 0xB0130 + 0x40 * o
def scanBidir (m : WordMap) (o : Nat) : Bool := m.bit (aVact o) 31
def scanTact (m : WordMap) (o : Nat) : Nat := m.fld (aVact o) 25 0
def scanLag (m : WordMap) (o : Nat) : Nat := m.fld (aVtime o) 15 0
def scanTfb (m : WordMap) (o : Nat) : Nat := m.fld (aVtime o) 31 16
def uActive (m : WordMap) (o : Nat) : Rat := (m.fld (aUact o) 15 0 : Rat) / 65536

/-- The sample rate in MS/s that FS_SEL selects; 0 when reserved (R168). -/
def sampleRate (m : WordMap) (o : Nat) : Nat := [200, 250, 400, 500, 800, 1000].getD (m.fld (aPortCfg o) 22 20) 0
/-- A JESD204 parameter set (R168): lanes L, converters M, octets F and samples S of a frame, frames K of a multiframe or extended
multiblock, high density, the lane rate per GS/s times 4, and the highest FS_SEL. -/
structure JesdSet where
  l : Nat
  m : Nat
  f : Nat
  s : Nat
  k : Nat
  hd : Bool
  rate4 : Nat
  limit : Nat
  deriving DecidableEq, Repr

/-- The parameter sets of R168. -/
def jmode? (j : Nat) : Option JesdSet :=
  match j with
  | 0 => some ⟨4, 2, 1, 1, 32, true, 40, 5⟩
  | 1 => some ⟨8, 4, 1, 1, 32, true, 40, 5⟩
  | 2 => some ⟨8, 8, 2, 1, 32, false, 80, 3⟩
  | 3 => some ⟨16, 8, 1, 1, 32, true, 40, 5⟩
  | 4 => some ⟨32, 16, 1, 1, 32, true, 40, 5⟩
  | 8 => some ⟨4, 2, 1, 1, 256, true, 33, 5⟩
  | 9 => some ⟨8, 4, 1, 1, 256, true, 33, 5⟩
  | 10 => some ⟨8, 8, 2, 1, 128, false, 66, 3⟩
  | 11 => some ⟨16, 8, 1, 1, 256, true, 33, 5⟩
  | 12 => some ⟨32, 16, 1, 1, 256, true, 33, 5⟩
  | _ => none
def jesdMode (m : WordMap) (o : Nat) : Nat := m.fld (aPortCfg o) 28 24
/-- Whether the parameter set in force is JESD204B. -/
def isJesdB (m : WordMap) (o : Nat) : Bool := decide (jesdMode m o < 8)
/-- The number of converters M in force. -/
def converters (m : WordMap) (o : Nat) : Nat := match jmode? (jesdMode m o) with | some j => j.m | none => 0
/-- Samples of a multiframe or extended multiblock, K × S (R168, R170). -/
def multiframe (m : WordMap) (o : Nat) : Nat := match jmode? (jesdMode m o) with | some j => j.k * j.s | none => 0
/-- SYSREF_DIV. -/
def sysrefDiv (m : WordMap) (o : Nat) : Nat := m.fld (aPortCfg o) 19 16
/-- The samples that the elastic buffer of a port holds: 256 KB of 16-bit codes (R27, R167). -/
def elasticSamples (m : WordMap) (o : Nat) : Nat := 131072 / max 1 (converters m o)
/-- The converter map entry (R172). -/
def convEntry (m : WordMap) (o k : Nat) : Nat := m.nat (0x0C001000 + o * 0x40 + 4 * k)
def convRole (m : WordMap) (o k : Nat) : Nat := nbits (convEntry m o k) 31 30
def convChan (m : WordMap) (o k : Nat) : Nat := nbits (convEntry m o k) 26 24

/-- LIN_i of a channel (R164). -/
def linEntry (m : WordMap) (o c i : Nat) : Int := signedOf 16 (m.half (0x0C010000 + chanIdx o c * 0x2000 + 2 * i))
/-- LIN_c(p) (R164). -/
def linCode (m : WordMap) (o c p : Nat) : Int :=
  let i := p / 16
  if i ≥ 4095 then linEntry m o c 4095
  else divAway (linEntry m o c i * 16 + (linEntry m o c (i + 1) - linEntry m o c i) * (p % 16 : Nat)) 16

/-- The code of point `k` of SCAN_LIN (R379): 257 codes from the blank code to the pass code in force. -/
def linPoint (m : WordMap) (o c k : Nat) : Int :=
  divAway (linCode m o c 0 * 256 + (linCode m o c 65535 - linCode m o c 0) * k) 256

/-- One rising crossing of the tracker: the error and the new phase and period (R159), all in 1/256 tick. -/
def trackStep (t0 pHat z : Int) : Int × Int × Int :=
  let e := z - (t0 + pHat)
  (e, t0 + pHat + e / 8, pHat + e / 64)
/-- Whether P̂ is inside the range of R160. -/
def periodInRange (m : WordMap) (o : Nat) (pHat : Int) : Bool :=
  let f : Rat := faxFreq m o
  let t : Rat := (faxTol m o : Rat) / 200
  let p : Rat := (pHat : Rat) / 256
  f != 0 && decide (400000000 / (f * (1 + t)) ≤ p ∧ p ≤ 400000000 / (f * (1 - t)))

/-- The slow-axis code at τ ticks after the frame's index 1 event (R161). -/
def slowCode (m : WordMap) (o : Nat) (tau : Rat) : Int :=
  let lo : Rat := (signedOf 16 (m.fld (aVcode o) 15 0) : Int)
  let hi : Rat := (signedOf 16 (m.fld (aVcode o) 31 16) : Int)
  let ta : Rat := scanTact m o
  let fb : Rat := 64 * (scanTfb m o : Rat)
  if tau < 0 then roundAway lo
  else if tau ≤ ta ∧ 0 < ta then roundAway (lo + (hi - lo) * tau / ta)
  else if tau ≤ ta + fb ∧ 0 < fb then
    let ang := fxMul fxPi (fxOf ((tau - ta) / fb))
    let c := fxRat (fxSin (fxPi / 2 - ang))
    roundAway (lo + (hi - lo) * (1 + c) / 2)
  else roundAway lo

/-- The drive's period during the start sweep, in 1/256 tick (R158): the frequency falls evenly from the upper to the lower end of
the tolerance in 200 ms (DESIGN CHOICE, notes/assumptions/123.md). -/
def sweepPeriod (m : WordMap) (o : Nat) (ticks : Nat) : Int :=
  let tol := faxTol m o
  let f : Rat := (faxFreq m o : Rat) * (1 + (tol : Rat) / 200 - (tol : Rat) / 100 * (min ticks 80000000 : Nat) / 80000000)
  if f ≤ 0 then 0 else (400000000 * 256 / f).floor

/-- Where the beam of a link sample stands in the image (R163): the point between pixels and the dwell factor. -/
structure ScanPoint where
  x : Rat
  y : Rat
  dwell : Rat
  deriving DecidableEq, Repr

/-- The place of a link sample, none when the sample is blank (R163); times in ticks. -/
def scanPoint (m : WordMap) (o w h : Nat) (t t0 pHat frameStart : Rat) : Option ScanPoint :=
  let off : Rat := (signedOf 16 (m.fld (aUact o) 31 16) : Int) / 25
  let turns := (t - t0 + off) / pHat
  let frac := turns - turns.floor
  let ang := fxMul (2 * fxPi) (fxOf (if frac ≤ 1 / 2 then frac else frac - 1))
  let u := fxRat (fxSin ang)
  let forward := decide (frac ≤ 1 / 4 ∨ 3 / 4 ≤ frac)
  let ta : Rat := scanTact m o
  let v := (t - frameStart - scanLag m o) / ta
  if ta = 0 ∨ uActive m o < |u| ∨ v < 0 ∨ 1 ≤ v ∨ (!forward ∧ !scanBidir m o) ∨ w = 0 ∨ h = 0 then none
  else
    some {
      x := max 0 (min ((w : Rat) - 1) ((w : Rat) / 2 * (1 + u / uActive m o) - 1 / 2))
      y := max 0 (min ((h : Rat) - 1) (v * h - 1 / 2))
      dwell := fxRat (fxSqrt (fxOne - fxMul (fxOf u) (fxOf u))) }

/-- What a link sample asks of a light channel at its point: the value after dwell and zone cap (R163). `pix` reads the front
buffer and `zone` the zone limit by column and row. -/
def pointValue (m : WordMap) (o w h : Nat) (q : ScanPoint) (pix zone : Nat → Nat → Nat) : Nat :=
  let xi := q.x.floor.toNat
  let yi := q.y.floor.toNat
  let x1 := min (w - 1) (xi + 1)
  let y1 := min (h - 1) (yi + 1)
  let fx := q.x - xi
  let fy := q.y - yi
  let g := if m.bit (aVact o) 30 then q.dwell else 1
  let bil := (1 - fy) * ((1 - fx) * pix xi yi + fx * pix x1 yi) + fy * ((1 - fx) * pix xi y1 + fx * pix x1 y1)
  let p := (roundAway (bil * g)).toNat
  let z := min (min (zone xi yi) (zone x1 yi)) (min (zone xi y1) (zone x1 y1))
  min p ((z : Rat) * q.dwell).floor.toNat

/-! ### The checks of R179 -/

/-- f_hi and f_lo in Hz (R179). -/
def faxHi (m : WordMap) (o : Nat) : Rat := (faxFreq m o : Rat) * (1 + (faxTol m o : Rat) / 200)
def faxLo (m : WordMap) (o : Nat) : Rat := (faxFreq m o : Rat) * (1 - (faxTol m o : Rat) / 200)
/-- The tick of the END of every resident program, the largest and smallest. -/
def endTimes (m : WordMap) (o : Nat) : List Nat :=
  (residents m o).filterMap fun p => (progInstrs m o p).getLast?.map fun i => i.t
/-- π as a rational. -/
def piRat : Rat := fxRat fxPi

def scanCheck1 (m : WordMap) (o : Nat) : Bool :=
  let w := m.nat (aPortCfg o)
  (match jmode? (jesdMode m o) with
   | some j => decide (m.fld (aPortCfg o) 22 20 ≤ j.limit) && decide (j.rate4 * sampleRate m o ≤ 50000) && sampleRate m o != 0
   | none => false) && nbits w 30 29 == 0 && nbits w 15 13 == 0 && nbits w 7 6 == 0 && nbits w 3 2 == 0
def scanCheck2 (m : WordMap) (o : Nat) : Bool :=
  let ks := List.range (converters m o)
  let light := ks.filter fun k => convRole m o k == 1
  let en := (List.range 24).filter fun nn => strEnabled m nn && strOut m nn == o
  (ks.filter fun k => convRole m o k == 2).length == 1 &&
  en.all (fun nn => match light.filter fun k => nbit (convEntry m o k) nn with
    | [k] => convChan m o k == strChan m nn
    | _ => false) &&
  (List.range (fsChannels m o)).all (fun c => light.any fun k => convChan m o k == c) &&
  light.all fun k => decide (convChan m o k < fsChannels m o)
def scanCheck3 (m : WordMap) (o : Nat) : Bool :=
  (List.range 6).all fun c =>
    (List.range 4095).all (fun i => linEntry m o c i ≤ linEntry m o c (i + 1)) ||
    (List.range 4095).all fun i => linEntry m o c (i + 1) ≤ linEntry m o c i
def scanDirs (m : WordMap) (o : Nat) : Rat := if scanBidir m o then 2 else 1
def scanCheck4 (m : WordMap) (o : Nat) : Bool :=
  decide (5000 ≤ faxFreq m o ∧ faxFreq m o ≤ 40000 ∧ 1 ≤ faxTol m o ∧ faxTol m o ≤ 15) && decide (scanDirs m o * faxHi m o ≤ 80000)
def scanCheck5 (m : WordMap) (o : Nat) : Bool :=
  let u := m.fld (aUact o) 15 0
  decide (0x8000 ≤ u ∧ u ≤ 0xFAE1) &&
  decide (400 ≤ 400000000 / (2 * faxHi m o) * (1 - 2 * fxRat (fxAsin (fxOf (uActive m o))) / piRat))
def scanCheck6 (m : WordMap) (o : Nat) : Bool := decide ((fsHeight m o : Rat) ≤ scanTact m o * faxLo m o * scanDirs m o / 400000000)
def scanCheck7 (m : WordMap) (o : Nat) : Bool :=
  decide ((400 : Rat) / sampleRate m o ≤ uActive m o * 400000000 / (piRat * faxHi m o * fsWidth m o))
def scanCheck8 (m : WordMap) (o : Nat) : Bool :=
  (endTimes m o).all (fun e => decide (scanLag m o + scanTact m o ≤ e ∧ e + 400 ≤ pMin m o)) &&
  decide (scanTact m o + 64 * scanTfb m o + 400 ≤ pMin m o) && decide (1 ≤ scanTfb m o)
def scanCheck9 (m : WordMap) (o : Nat) : Bool :=
  decide (fsWidth m o * fsHeight m o * 400000000 * tgDen m o ≤ 141557760 * tgNum m o)
def scanCheck10 (m : WordMap) (o : Nat) : Bool :=
  (List.range 8).all fun k => !(m.bit (aPdMap k) 31 && m.fld (aPdMap k) 25 24 == o) ||
    ((List.range 6).filter fun c => m.bit (aPdMap k) c).length == 1
/-- The first failed check of R179. -/
def scanChecks (m : WordMap) (o : Nat) : Option Nat :=
  let cs := [scanCheck1 m o, scanCheck2 m o, scanCheck3 m o, scanCheck4 m o, scanCheck5 m o, scanCheck6 m o, scanCheck7 m o,
             scanCheck8 m o, scanCheck9 m o, scanCheck10 m o]
  (cs.findIdx? (! ·)).map (· + 1)

end Sys2Proof.Machine
end

