-- ==== Sys2Proof/Machine/Ops.lean ====
section
/-! DEFINITION. The named operations over the state that several commands share: access to the parts of each output,
time, events and the event log, the journal and its queue, recoveries, the Quench latch, hold-and-darken, the response to
HALT, the start of an exit and of Dusk, and the cancellation of a Pour. -/
namespace Sys2Proof.Machine

/-- A list with one element changed. -/
def upd {α : Type} (l : List α) (i : Nat) (f : α → α) : List α := l.modify i f

/-! ### The parts of the state that exist once per output, input or string -/

def State.seqAt (s : State) (o : Nat) : SeqState := nth s.seq o {}
def State.modSeq (s : State) (o : Nat) (f : SeqState → SeqState) : State := { s with seq := upd s.seq o f }
def State.encAt (s : State) (o : Nat) : EncState := nth s.enc o {}
def State.modEnc (s : State) (o : Nat) (f : EncState → EncState) : State := { s with enc := upd s.enc o f }
def State.tgAt (s : State) (o : Nat) : TgState := nth s.tg o {}
def State.modTg (s : State) (o : Nat) (f : TgState → TgState) : State := { s with tg := upd s.tg o f }
def State.compAt (s : State) (o : Nat) : CompState := nth s.comp o {}
def State.modComp (s : State) (o : Nat) (f : CompState → CompState) : State := { s with comp := upd s.comp o f }
def State.portAt (s : State) (o : Nat) : PortState := nth s.port o {}
def State.modPort (s : State) (o : Nat) (f : PortState → PortState) : State := { s with port := upd s.port o f }
def State.scanAt (s : State) (o : Nat) : ScanState := nth s.scan o {}
def State.modScan (s : State) (o : Nat) (f : ScanState → ScanState) : State := { s with scan := upd s.scan o f }
def State.inAt (s : State) (i : Nat) : InputState := nth s.input i {}
def State.modIn (s : State) (i : Nat) (f : InputState → InputState) : State := { s with input := upd s.input i f }
def State.outAt (s : State) (o : Nat) : OutMode := nth s.mode.outs o {}
def State.modOut (s : State) (o : Nat) (f : OutMode → OutMode) : State :=
  { s with mode := { s.mode with outs := upd s.mode.outs o f } }
def State.strAt (s : State) (nn : Nat) : StringState := nth s.drive.strings nn {}
def State.modStr (s : State) (nn : Nat) (f : StringState → StringState) : State :=
  { s with drive := { s.drive with strings := upd s.drive.strings nn f } }
def State.modChan (s : State) (o c : Nat) (f : ChanState → ChanState) : State :=
  { s with drive := { s.drive with chans := upd s.drive.chans (chanIdx o c) f } }
def State.modPd (s : State) (k : Nat) (f : PdState → PdState) : State :=
  { s with drive := { s.drive with pds := upd s.drive.pds k f } }
def State.modDrive (s : State) (f : DriveState → DriveState) : State := { s with drive := f s.drive }
def State.modComposer (s : State) (f : ComposerState → ComposerState) : State := { s with composer := f s.composer }
def State.modLadle (s : State) (f : LadleState → LadleState) : State := { s with ladle := f s.ladle }
def State.modAod (s : State) (f : AodState → AodState) : State := { s with aod := f s.aod }
def State.modMgmt (s : State) (f : MgmtState → MgmtState) : State := { s with mgmt := f s.mgmt }
def State.modHbm (s : State) (f : HbmState → HbmState) : State := { s with hbm := f s.hbm }
def State.modRun (s : State) (f : RunnerState → RunnerState) : State := { s with run := f s.run }
def State.modSurf (s : State) (f : SurfState → SurfState) : State := { s with surf := f s.surf }
def State.modTherm (s : State) (f : ThermState → ThermState) : State := { s with therm := f s.therm }
def State.modAnn (s : State) (f : AnnealState → AnnealState) : State := { s with ann := f s.ann }
def State.modGuard (s : State) (f : GuardState → GuardState) : State := { s with guard := f s.guard }
def State.modCruc (s : State) (f : CrucState → CrucState) : State := { s with cruc := f s.cruc }
def State.modJrn (s : State) (f : JournalState → JournalState) : State := { s with jrn := f s.jrn }
def State.modMode (s : State) (f : ModeState → ModeState) : State := { s with mode := f s.mode }

/-- The settings in force. -/
def State.act (s : State) : WordMap := s.ladle.act
/-- The settings in force for the real-time engines of an output (R252); index 4 is the device. -/
def State.rt (s : State) (o : Nat) : WordMap := nth s.ladle.rt o []

/-- The next free value of a kind, and the state with the model's counter advanced (notes/assumptions/7.md). -/
def State.draw (s : State) (kind : Nat) : Nat × State := (Config.freeNat kind s.free, { s with free := s.free + 1 })

/-! ### Time (R5, R65, R431) -/

/-- Local time in nanoseconds: 2.5 ns per tick (R5). -/
def localNs (s : State) : Nat := s.tb.tick * 5 / 2
/-- PTP time in nanoseconds: local time plus the PTP offset (R280). -/
def ptpNs (s : State) : Nat := ((localNs s : Int) + s.ptp.offset).toNat
/-- The timestamp of an event and its domain (R498, R519). -/
def stamp (s : State) : Nat × Bool :=
  if !s.tb.running then (0, false) else if s.ptp.valid then (ptpNs s, true) else (localNs s, false)
/-- Secure time, while established (R431): PTP time when trusted and valid, otherwise the time last set, advanced by
local time; never below the floor. -/
def secureNow (s : State) : Option Nat :=
  let raw := if (s.act).bit 0x100020 31 && s.ptp.valid then some (ptpNs s)
    else match s.cruc.time with
      | some (b, t) => some (b + (localNs s - t))
      | none => none
  raw.map (max s.cruc.timeFloor)
/-- Secure time never runs backward (R431): what it has reached is its floor. -/
def holdSecure (s : State) : State := s.modCruc fun c => { c with timeFloor := (secureNow s).getD c.timeFloor }
/-- The low word of OUT_0's frame counter, 0 before TICK runs (R498, R519). -/
def frameStamp (s : State) : Nat := if s.tb.running then (s.tgAt 0).counter % 2 ^ 32 else 0

/-- The PATH code of a path (R437). -/
def pathNum : PathId → Nat
  | .internal => 0 | .spi => 1 | .bar0 => 2 | .eth _ => 3 | .ingot => 4
/-- The SESSION code of a path (R437). -/
def sessionNum : PathId → Nat
  | .eth k => k | _ => 0xFF
/-- The place of a path's own registers: SPI, BAR0, the four sessions. -/
def pathIdx : PathId → Nat
  | .spi => 0 | .bar0 => 1 | .eth k => 2 + k | _ => 6

/-- Whether a held key is valid now (R431): one without bounds always, one with a bound only within it in secure time. -/
def keyValid (s : State) (k : KeySlot) : Bool :=
  (k.notBefore == 0 && k.notAfter == 0xFFFFFFFFFFFFFFFF)
    || (match secureNow s with | some t => decide (k.notBefore ≤ t) && decide (t ≤ k.notAfter) | none => false)
/-- The first valid key that is held for a target (R429). -/
def heldKey (s : State) (target : Nat) : Option KeySlot :=
  (s.cruc.keys.find? fun e => match e with | some k => k.target == target && keyValid s k | none => false).join

/-! ### The journal (R367, R437) -/

/-- The 128 bytes of a journal record with a given number and the hash of its predecessor (R437). -/
def recordBytes (r : JrnRec) (seq : Nat) (prev : List Byte) : List Byte :=
  let b := leBytes 2 0x1A01 ++ leBytes 1 r.kind ++ leBytes 1 r.flags ++ leBytes 4 seq ++ leBytes 8 r.tLocal
    ++ leBytes 8 r.tSecure ++ leBytes 2 r.code ++ leBytes 1 r.path ++ leBytes 1 r.session
    ++ ((r.data ++ List.replicate 36 0).take 36) ++ prev ++ leBytes 12 0
  b ++ leBytes 4 (crc32c b)

/-- A journal record of a kind as produced now (R437). -/
def newRecord (s : State) (kind code : Nat) (path : PathId) (data : List Byte) (sev : Nat) : JrnRec :=
  { kind := kind, flags := if s.cruc.closed then 2 else 0, tLocal := if s.tb.running then localNs s else 0,
    tSecure := if s.tb.running then (secureNow s).getD 0 else 0, code := code, path := pathNum path,
    session := sessionNum path, data := data, sev := sev }

/-- Records of a slot class in the deferred queue. -/
def slotCount (q : List (SlotCls × JrnRec)) (c : SlotCls) : Nat := (q.filter fun e => e.1 == c).length

/-- The queue without its first record that meets a condition. -/
def dropFirst (p : SlotCls × JrnRec → Bool) : List (SlotCls × JrnRec) → List (SlotCls × JrnRec)
  | [] => []
  | e :: r => if p e then r else e :: dropFirst p r

/-- A record enters the deferred queue (R367): the queue after it, and whether a record was dropped for room. A severe
record takes a general slot while one is free and a reserved slot otherwise (DEDUCED, notes/assumptions/11.md). -/
def deferRecord (q : List (SlotCls × JrnRec)) (r : JrnRec) (shutdown : Bool) : List (SlotCls × JrnRec) × Bool :=
  let r := { r with flags := if r.flags % 2 = 1 then r.flags else r.flags + 1 }
  if shutdown then (dropFirst (fun e => e.1 == .shutdown) q ++ [(.shutdown, r)], decide (0 < slotCount q .shutdown))
  else if slotCount q .general < 55 then (q ++ [(.general, r)], false)
  else if 2 ≤ r.sev then
    (if slotCount q .reserved < 8 then (q ++ [(.reserved, r)], false)
     else (dropFirst (fun e => e.1 == .reserved) q ++ [(.reserved, r)], true))
  else
    let info := fun (e : SlotCls × JrnRec) => e.1 == .general && e.2.sev == 0
    if q.any info then (dropFirst info q ++ [(.general, r)], true)
    else (dropFirst (fun e => e.1 == .general) q ++ [(.general, r)], true)

/-- Begin writing a record: its bytes with the next number and the chain's hash (R437). -/
def startRecord (s : State) (r : JrnRec) : State :=
  s.modJrn fun j => { j with writing := some (r, recordBytes r (j.seq + 1) j.prev) }

/-- Whether records are written at once: the window is open, nothing waits, and the Crucible's chain is free (R367). -/
def journalFree (s : State) : Bool := s.therm.flashOpen && s.aod.queue.isEmpty && s.jrn.writing.isNone && !s.jrn.sigDue

/-- Hand a record to flash or to the deferred queue (R437, R367); the events that this raises, as code and data. The first record
deferred in a closure is a fault recovered at once (R414); while another recovery is in progress it is a second fault (R39), whose
HALT the next tick brings (`secondFault`; DESIGN CHOICE, notes/assumptions/103.md). -/
def journalPut (s : State) (r : JrnRec) (shutdown : Bool) : State × List (Nat × Nat) :=
  if journalFree s then (startRecord s r, [])
  else
    let (q, d) := deferRecord s.aod.queue r shutdown
    let s1 := s.modAod fun a => { a with queue := q, lost := if d then a.lost + 1 else a.lost,
                                         dropped := if d then satAdd 0xFFFF a.dropped 1 else a.dropped }
    let closed := !s.therm.flashOpen && !s.therm.deferRaised
    let s2 := if closed then
        { s1.modTherm (fun t => { t with deferRaised := true }) with
          log := { s1.log with second := s1.log.second.or (s1.log.recovering.head?.map (·.1)) } }
      else s1
    (s2, (if closed then [(0x0D0B, 0), (0x0F23, 0x0D0B)] else []) ++ (if d then [(0x0D0C, 0)] else []))

/-- SIGN_INTERVAL (R438). -/
def signInterval (s : State) : Nat := (s.act).fld 0x100200 15 0

/-- The journal area: its first flash byte and its size (R437, R448). -/
def journalArea (s : State) : Nat × Nat := (s.mgmt.layout.getD 4 0, s.mgmt.layout.getD 5 0)

/-- Begin writing a signature record: bytes 0 to 15, the device's signature over them and the previous record's hash
(R437, R438). -/
def startSignature (s : State) : State :=
  let r := newRecord s 1 0 .internal [] 0
  let head := (recordBytes r (s.jrn.seq + 1) s.jrn.prev).take 16
  let sig := (Config.ecdsaSign (head ++ s.jrn.prev) ++ List.replicate 96 0).take 96
  let b := head ++ sig ++ leBytes 12 0
  s.modJrn fun j => { j with writing := some (r, b ++ leBytes 4 (crc32c b)) }

/-- The next record is written when none is: a signature record that is due, then the records-lost record after a drop,
then the oldest queued record (R367, R438); a session-close record follows a signature record (R489 step 4). -/
def journalKick (s : State) : State :=
  if !s.therm.flashOpen || s.jrn.writing.isSome then s
  else if s.jrn.sigDue && !s.cruc.closed then startSignature s
  else if 0 < s.aod.lost then
    startRecord (s.modAod fun a => { a with lost := 0 }) (newRecord s 0x0A 0 .internal (leBytes 4 s.aod.lost) 0)
  else match s.aod.queue with
    | [] => s
    | e :: r =>
      if e.2.kind = 8 ∧ s.jrn.sinceSig ≠ 0 ∧ ¬ s.cruc.closed then startSignature s
      else startRecord (s.modAod fun a => { a with queue := r }) e.2

/-- The journal moves to the next record location; entering an erase unit erases it, and a signature record is due as its
first record (R438). -/
def journalAdvance (s : State) : State :=
  let (base, size) := journalArea s
  let pos := (s.jrn.pos + 128) % max 128 size
  let u := max 128 s.jrn.eraseUnit
  if pos % u = 0 then
    { s.modJrn fun j => { j with pos := pos, sigDue := true } with flash := Sparse.clear s.flash (base + pos) (base + pos + u) }
  else s.modJrn fun j => { j with pos := pos }

/-! ### Events (R13, R498 to R502, R520) -/

/-- Event codes of severity DEGRADE (R502). -/
def degradeCodes : List Nat := [
   0x0002, 0x0007, 0x0008, 0x0011, 0x0201, 0x0210, 0x0221, 0x0222, 0x0223, 0x0224, 0x0231, 0x0232, 0x0302, 
   0x0304, 0x0306, 0x0308, 0x030A, 0x0405, 0x0502, 0x0604, 0x0606, 0x0607, 0x0703, 0x0704, 0x0705, 0x0708, 
   0x0709, 0x0802, 0x0A03, 0x0A05, 0x0B02, 0x0B03, 0x0B04, 0x0B05, 0x0B07, 0x0B08, 0x0B11, 0x0B13, 0x0B14, 
   0x0C01, 0x0C02, 0x0C03, 0x0C04, 0x0C07, 0x0C08, 0x0C0A, 0x0C0F, 0x0D02, 0x0D06, 0x0D0A, 0x0D0C, 0x0D0D, 
   0x0E06, 0x1001, 0x1002, 0x1005, 0x1008, 0x1009]
/-- Event codes of severity QUENCH (R502). -/
def quenchCodes : List Nat := [0x0F02, 0x0F03, 0x0F10, 0x0F11, 0x0F12, 0x0F13, 0x0F20, 0x0F21]
/-- Event codes of severity HALT (R502). -/
def haltCodes : List Nat := [0x0504, 0x060A, 0x0A04, 0x0D04, 0x0D07, 0x0D09, 0x0F14, 0x0F17, 0x0F18]
/-- The severity of an event code (R502): 0 INFO, 1 DEGRADE, 2 QUENCH, 3 HALT. -/
def evtSev (code : Nat) : Nat :=
  if haltCodes.contains code then 3 else if quenchCodes.contains code then 2 else if degradeCodes.contains code then 1 else 0

/-- The 32 bytes of an event record (R498). -/
def evtBytes (r : EvtRec) : List Byte :=
  let b := leBytes 8 r.ts ++ leBytes 4 r.frame ++ leBytes 2 r.code ++ leBytes 2 (r.path % 16 + 16 * (r.seq % 4096))
    ++ leBytes 8 r.data ++ leBytes 1 r.sev ++ leBytes 1 (if r.tdom then 1 else 0) ++ leBytes 4 0
  b ++ leBytes 2 (crc16 b)

/-- Signal an MSI-X vector, at most once per 10 µs (R284). -/
def msix (s : State) (v : Nat) : State :=
  let due := match nth s.pcie.msixLast v none with | none => true | some t => decide (t + 10000 ≤ localNs s)
  if due && !(nth s.pcie.msixMask v false) then
    { s with pcie := { s.pcie with msixLast := listSet s.pcie.msixLast v (some (localNs s)),
                                   msixSent := (v :: s.pcie.msixSent).take 64 } }
  else s

/-- The vectors an event signals (R284). -/
def evtVectors (code sev : Nat) : List Nat :=
  (if 2 ≤ sev then [0] else if sev = 1 then [1] else [2])
    ++ (if code = 0x0101 ∨ code = 0x0102 ∨ code = 0x0103 ∨ code = 0x0105 then [3] else [])

/-- A new record takes its place in the log, newest first: after the records of the same instant with lower codes
(R499); its number rises past none of a later instant. Journal copies already made keep their number
(notes/assumptions/12.md). -/
def insertRecord (r : EvtRec) : List EvtRec → List EvtRec
  | [] => [r]
  | e :: rest =>
    if e.at_ = r.at_ ∧ r.code < e.code then
      { e with seq := (e.seq + 1) % 4096 } :: insertRecord { r with seq := (r.seq + 4095) % 4096 } rest
    else r :: e :: rest

/-- Log one event and deliver it to MSI-X and IRQ (R499, R501); the record, when the core runs. -/
def logOne (s : State) (code sev data : Nat) (path : PathId) : State × Option EvtRec :=
  if !s.mode.core then (s, none)
  else
    let (ts, td) := stamp s
    let r : EvtRec := { ts := ts, frame := frameStamp s, code := code, path := pathNum path, seq := s.log.head % 4096,
                        data := data % 2 ^ 64, sev := sev, tdom := td, at_ := s.tb.tick }
    let s1 := { s with log := { s.log with records := (insertRecord r s.log.records).take 1024, head := (s.log.head + 1) % 2 ^ 32 } }
    let s2 := (evtVectors code sev).foldl msix s1
    let s3 := if (s.act).bit 0x80C sev then s2.modMgmt fun m => { m with irq := true } else s2
    (s3, some r)

/-- AUDIT_MIN (R438). -/
def auditMin (s : State) : Nat := (s.act).fld 0x100200 17 16

/-- The journal copy of an event record, when its severity asks for one (R438, R501). -/
def copyRecord (s : State) (r : EvtRec) (path : PathId) : Option JrnRec :=
  if auditMin s ≤ r.sev then some (newRecord s 0 r.code path (evtBytes r) r.sev) else none

/-- Log the events that handing a record to flash raised, with their own journal copies one level deep; deeper ones raise
nothing more (DESIGN CHOICE, notes/assumptions/10.md). -/
def journalCascade (s : State) (evs : List (Nat × Nat)) : State :=
  evs.foldl (fun s e =>
    match logOne s e.1 (evtSev e.1) e.2 .internal with
    | (s1, none) => s1
    | (s1, some r) => match copyRecord s1 r .internal with | none => s1 | some j => (journalPut s1 j false).1) s

/-- Produce a journal record (R437). -/
def journal (s : State) (r : JrnRec) : State :=
  let (s1, evs) := journalPut s r false
  journalCascade s1 evs

/-- Produce a journal record of a kind from its DATA bytes. -/
def journalKind (s : State) (kind : Nat) (path : PathId) (data : List Byte) (sev : Nat) : State :=
  journal s (newRecord s kind 0 path data sev)

/-- Raise an event with a stated severity: log it, deliver it and copy it into the journal (R498 to R501). -/
def raiseSev (s : State) (code sev data : Nat) (path : PathId) : State :=
  match logOne s code sev data path with
  | (s1, none) => s1
  | (s1, some r) => match copyRecord s1 r path with | none => s1 | some j => journal s1 j

/-- Raise an event on behalf of a path. -/
def raiseP (s : State) (code data : Nat) (path : PathId) : State := raiseSev s code (evtSev code) data path
/-- Raise an event of the part's own. -/
def raise (s : State) (code data : Nat) : State := raiseP s code data .internal

/-- The last record of an event with a key, for R520. -/
def lastRaised (s : State) (code key : Nat) : Option Nat :=
  (s.log.limits.find? fun e => e.1 == code && e.2.1 == key).map (·.2.2)

/-- A record of an event with a key is noted for R520, also one that the limit does not govern. -/
def noteRaised (s : State) (code key : Nat) : State :=
  { s with log := { s.log with limits := (code, key, localNs s) :: s.log.limits.filter fun e => !(e.1 == code && e.2.1 == key) } }

/-- Raise an event at most once per interval for its key (R520): a suppressed occurrence leaves no record. -/
def raiseLimited (s : State) (code key data interval : Nat) (path : PathId) : State :=
  let due := match lastRaised s code key with | none => true | some t => decide (t + interval ≤ localNs s)
  if due then raiseP (noteRaised s code key) code data path else s

/-- One second in nanoseconds. -/
def oneSecond : Nat := 1000000000

/-- A settings-change record with a frame counter of its own (R467). -/
def changeRecord (frame seq mask result paths : Nat) (sealed_ : Bool) (digest : List Byte) : List Byte :=
  leBytes 2 seq ++ leBytes 1 mask ++ leBytes 1 result ++ leBytes 4 frame ++ leBytes 1 paths
    ++ leBytes 1 (if sealed_ then 1 else 0) ++ leBytes 2 0 ++ digest.take 24

/-- A settings-change record (R467): SEQ, MASK, RESULT, paths, sealed flag and digest bytes. -/
def changeData (s : State) (seq mask result paths : Nat) (sealed_ : Bool) (digest : List Byte) : List Byte :=
  changeRecord (frameStamp s) seq mask result paths sealed_ digest

/-- Journal a refused request (R458, R467): the role bit and the address. -/
def journalRefusal (s : State) (result role addr : Nat) (path : PathId) : State :=
  journalKind s 2 path (changeData s role 0 result 0 false (leBytes 4 addr)) 0

/-! ### The outputs' strings, modes and frames -/

/-- Outputs 0 to 3. -/
def outputs : List Nat := [0, 1, 2, 3]

/-- Strings mapped to an output and enabled. -/
def outStrings (m : WordMap) (o : Nat) : List Nat := (List.range 24).filter fun nn => strEnabled m nn && strOut m nn == o

/-- The output whose settings in force map and enable a string, if any. -/
def strHome (s : State) (nn : Nat) : Option Nat := outputs.find? fun o => strEnabled (s.rt o) nn && strOut (s.rt o) nn == o
/-- The settings in force for a string. -/
def strCfg (s : State) (nn : Nat) : WordMap := s.rt ((strHome s nn).getD 4)
/-- The amplitude of a light channel. -/
def chanAmp (s : State) (o c : Nat) : Nat := nth (s.seqAt o).amp c 0

/-- The loop of a channel is held for 120 ticks (R110). -/
def holdLoop (s : State) (o c : Nat) : State := s.modChan o c fun x => { x with heldUntil := s.tb.tick + 120 }

/-- Whether an Anneal step takes the loop of an output (R110, R378). -/
def annealTakes (s : State) (o : Nat) : Bool :=
  match s.ann.run with
  | some r => r.st == 2 && (match r.todo with
    | (step, p) :: _ => p == o && (step == 2 || step == 3 || step == 4 || step == 7) && (r.kind != 1 || r.stolen)
    | [] => false)
  | none => false

/-- The mean expected value and the mean dark-corrected reading of a channel's photodiodes (R108); none without one. -/
def loopReading (s : State) (o c : Nat) : Option (Rat × Rat) :=
  let m := s.rt o
  let ks := chanPds m s.drive o c
  if ks.isEmpty then none
  else
    let e := sumRat (fun k => expectedReading m s.drive o c k (chanAmp s o c)) ks / ks.length
    let p := sumRat (fun k => let x := nth s.drive.pds k {}; ((x.recent.headD 0 : Rat) - x.dark)) ks / ks.length
    some (e, p)

/-- The cases of R110 in which k_c is held. -/
def loopHeld (s : State) (o c : Nat) : Bool :=
  let m := s.rt o
  chanAmp s o c == 0 || decide (s.tb.tick < (chanOf s.drive o c).heldUntil)
    || (match loopReading s o c with | some (e, _) => decide (e < 256) | none => true)
    || (List.range 8).any (fun k => pdSees m o c k && decide (65280 ≤ (nth s.drive.pds k {}).recent.headD 0))
    || (chanStrings m o c).any (fun nn => liveString m s.drive nn && (s.strAt nn).clamped)
    || annealTakes s o

/-- The amplitude group of a channel closes: k_c is stored back into its bin unless it is held (R109, R110). -/
def closeGroup (s : State) (o c : Nat) : State :=
  if chanAmp s o c = 0 ∨ loopHeld s o c then s
  else s.modChan o c fun x => { x with bins := listSet x.bins x.bin x.k }

/-- A string at command 0: its trim DAC at 0 V (R97). -/
def stringDark (x : StringState) : StringState := { x with cmd := 0, clamped := false, trim := 0 }

/-- A string stops at once: command 0, its stage off, its probe dropped (R97, R407). -/
def stringOff (x : StringState) : StringState := { stringDark x with st := 0, stageOn := false, holdCur := none, probe := none }

/-- A string stops; a live one leaves its channel's live set, whose loop is held (R110). -/
def offString (s : State) (nn : Nat) : State :=
  let m := strCfg s nn
  (if liveString m s.drive nn then holdLoop s (strOut m nn) (strChan m nn) else s).modStr nn stringOff

/-- A string in OFF that has not failed and is usable enters the queue (R122, R126). -/
def enqueue (m : WordMap) (s : State) (nn : Nat) : State :=
  s.modStr nn fun x => if x.st == 0 && !x.failed && strFsMa m nn != 0 then { x with st := 1 } else x

/-- Every string of an output leaves OFF for the queue, unless failed or disabled (R122). -/
def queueStrings (s : State) (o : Nat) : State := (outStrings (s.rt o) o).foldl (enqueue (s.rt o)) s

/-- Every string of an output stops (R483). -/
def stopStrings (s : State) (o : Nat) : State := (outStrings (s.rt o) o).foldl offString s

/-- The feed-forward codes of a string in the calibration block in force (R94, R390). -/
def feedForward (s : State) (nn : Nat) : List Nat :=
  let b := s.ann.block
  if b.length ≠ 0 ∧ nbit (leNat ((b.drop 20).take 2)) 2 then
    (List.range 64).map fun k => leNat ((b.drop (192 + 272 * nn + 20 + 2 * k)).take 2) % 2 ^ 14
  else []

/-- A string takes a command (R94, R104): its trim DAC starts the step from a feed-forward code, at 0 V for command 0 (R97). -/
def commandString (s : State) (nn cmd : Nat) (clamped : Bool) : State :=
  s.modStr nn fun x => { x with
    cmd := cmd, clamped := clamped, clampFrame := x.clampFrame || clamped
    trim := if cmd = 0 then 0 else if cmd = x.cmd then x.trim else (Config.trimStart (feedForward s nn) cmd).toNat
    cmdAt := if cmd = x.cmd ∧ clamped = x.clamped then x.cmdAt else s.tb.tick }

/-- The dark interval of an output goes on or ends (R112): every channel at amplitude 0 and no string held by a single-string
event. When it ends, its photodiodes start their dark sums afresh. -/
def noteDark (s : State) (o : Nat) : State :=
  let m := s.rt o
  let dark := (s.seqAt o).amp.all (· == 0) && (outStrings m o).all fun nn => (s.strAt nn).holdCur.isNone
  if dark then s.modDrive fun d => { d with darkSince := listSet d.darkSince o (some ((nth d.darkSince o none).getD s.tb.tick)) }
  else s.modDrive fun d => { d with
    darkSince := listSet d.darkSince o none
    pds := (List.range 8).map fun k =>
      if m.fld (aPdMap k) 25 24 = o then { nth d.pds k {} with darkSum := 0, darkN := 0 } else nth d.pds k {} }

/-- Every light channel of an output at amplitude 0 and its strings at command 0 (R88, R97); the amplitude groups close (R109). -/
def darken (s : State) (o : Nat) : State :=
  let s1 := ((List.range 6).foldl (fun s c => closeGroup s o c) s).modSeq o fun q => { q with amp := List.replicate 6 0, curChan := none }
  noteDark ((outStrings (s.rt o) o).foldl (fun s nn => s.modStr nn fun x => { stringDark x with holdCur := none, probe := none }) s1) o

/-- Raise MODE_CHANGE (R494). -/
def modeChange (s : State) (who old new_ : Nat) : State := raise s 0x0003 (who + old * 2 ^ 8 + new_ * 2 ^ 16)

/-- The device mode changes, with MODE_CHANGE (R485). -/
def setDevice (s : State) (m : Nat) : State :=
  if s.mode.dev = m then s else modeChange (s.modMode fun x => { x with dev := m }) 4 s.mode.dev m

/-- The mode an output shows in: SCAN or PLANE by PORT_CFG_n (R471). -/
def showMode (s : State) (o : Nat) : Nat := if isScan (s.rt o) o then 3 else 2

/-- Whether an output is in PLANE, SCAN or STILL. -/
def isLit (s : State) (o : Nat) : Bool := let m := (s.outAt o).mode; m == 2 || m == 3 || m == 4

/-- Whether a queue lies in the range in force of an output (R189). -/
def State.ownsQueue (s : State) (o q : Nat) : Bool := decide ((s.compAt o).qbase ≤ q) && decide (q < (s.compAt o).qbase + (s.compAt o).ntiles)

/-- The entries, records, spill pointers, engines, contexts and held faults of an output's frame under construction are released
(R38, R202, R345). -/
def releaseFrame (s : State) (o : Nat) (phase : FramePhase) : State :=
  let other := fun (c : Option TileCtx) => match c with | some x => if x.out = o then none else some x | none => none
  let s1 := s.modComp o fun c => { c with fuc := c.fuc.map fun f => { f with phase := phase, entries := [], canvas := [] } }
  let s2 := s1.modComposer fun x => { x with
    engines := x.engines.map fun e => match e with | some (a, t) => if a = o then none else some (a, t) | none => none
    contexts := x.contexts.map other, resumed := x.resumed.map other
    sprue := x.sprue.filter fun r => !s.ownsQueue o r.queue, spill := x.spill.filter fun e => !s.ownsQueue o e.1 }
  s2.modSurf fun m => { m with heldFaults := m.heldFaults.filter fun w => !s.ownsQueue o w.1.queue }

/-- Return an extent to a pool in address order, merging neighbours. -/
def giveBack (e : Nat × Nat) : List (Nat × Nat) → List (Nat × Nat)
  | [] => [e]
  | x :: r =>
    if e.1 + e.2 < x.1 then e :: x :: r
    else if e.1 + e.2 = x.1 then (e.1, e.2 + x.2) :: r
    else if x.1 + x.2 = e.1 then giveBack (x.1, x.2 + e.2) r
    else x :: giveBack e r

/-- The buffer in which an input holds a complete frame (R265, R287). -/
def InputState.holds (x : InputState) (count : Nat) : Option CapBuf :=
  (x.bufs ++ x.oldBufs).find? fun b => b.fence && b.frame.count == count

/-- Zeros written to extents of HBM3 (R332 step 3, R337). -/
def zeroExtents (mem : Memory) (l : List (Nat × Nat)) : Memory := l.foldl (fun m e => Sparse.clear m e.1 (e.1 + e.2)) mem

/-- Replaced buffers of an input that no fence holds any longer are given up; with the last of them their area returns to the
pool (R287). -/
def pruneOld (s : State) (i : Nat) : State :=
  let x := s.inAt i
  let keep := x.oldBufs.filter fun b => !b.refs.isEmpty || x.newest == some b.frame.count
  if x.oldBufs.isEmpty then s
  else
    let s1 := s.modIn i fun x => { x with oldBufs := keep }
    if !keep.isEmpty then s1
    else
      let gone := (s1.surf.owned.filter fun e => e.1 == 16 + i).map (·.2)
      let s2 := if s1.surf.sealedAreas.contains (16 + i) then s1.modHbm fun h => { h with mem := zeroExtents h.mem gone } else s1
      s2.modSurf fun m => { m with
      owned := m.owned.filter fun e => e.1 != 16 + i
      sealedAreas := m.sealedAreas.filter (· != 16 + i)
      pool := (m.owned.filter fun e => e.1 == 16 + i).foldl (fun p e => giveBack e.2 p) m.pool }

/-- The fences lose the references of an output that bins afresh or stops binning (R339). -/
def dropRefs (s : State) (o : Nat) : State :=
  let s1 := s.modSurf fun m => { m with
    surfs := (m.surfs.map fun e => (e.1, { e.2 with refs := listSet e.2.refs o none })).filter fun e => e.2 != {} }
  let drop := fun (b : CapBuf) => { b with refs := b.refs.filter fun r => r.1 != o }
  { s1 with input := s1.input.map fun i => { i with bufs := i.bufs.map drop, oldBufs := i.oldBufs.map drop } }

/-- The inputs' replaced buffers are reclaimed as far as their fences allow: at every binning and every boundary
(notes/assumptions/126.md). -/
def pruneAll (s : State) : State := (List.range 8).foldl pruneOld s

/-- Composition of an output stops: the frame in flight is discarded with a cause for its repeat (R38, R254). -/
def stopComposition (s : State) (o cause : Nat) : State :=
  match (s.compAt o).fuc with
  | none => s
  | some _ => (releaseFrame s o .abandoned).modComp o fun c => { c with lastCause := cause }

/-! ### Frame starts, the mirror link's commands and the sequencer's own posts -/

/-- The period of an output in units of 1/(25 × DEN) tick (R232). -/
def periodUnits (s : State) (o : Nat) : Nat := 25 * tgNum (s.rt o) o
/-- The instant of a position of the generator: tick and fine offset (R232). -/
def posInstant (t : TgState) (pos : Nat) : Nat × Nat := (pos / (25 * t.den), pos % (25 * t.den) / t.den)
/-- The first frame start at or after a tick, as position, and the counter of its frame; `pos` of the generator is its next
boundary. -/
def frameStartFrom (s : State) (o tick : Nat) : Nat × Nat :=
  let t := s.tgAt o
  let n := ceilDiv (tick * 25 * t.den - t.pos) (max 1 (periodUnits s o))
  (t.pos + n * periodUnits s o, (if t.started then t.counter + 1 else t.counter) + n)

/-- A class 0x4 event with index 0, which starts or stops the fast axis (R158), at the first frame start from a tick. -/
def runPost (s : State) (o tick run : Nat) : Post :=
  let (pos, k) := frameStartFrom s o tick
  let (tk, fine) := posInstant (s.tgAt o) pos
  { cls := 4, idx := 0, fire := tk, fine := fine, payload := run, slack := 0, frame := k }

/-- The sequencer has an event to post. -/
def postSeq (s : State) (o : Nat) (p : Post) : State := s.modSeq o fun q => { q with unposted := q.unposted ++ [p] }

/-- A port sends a command column (R137): the columns that fill the link up to now, then the command's. -/
def commandColumn (m : WordMap) (o now op seq arg : Nat) (p : PortState) : PortState :=
  { sendControl m o (commandBlock op seq arg) (fillTo m o now p) with sent := ((op, seq, arg) :: p.sent).take 64 }

/-- A port sends its next command (R137, R138). -/
def sendCommand (m : WordMap) (o now op arg : Nat) (p : PortState) : PortState :=
  let seq := (p.cmdSeq + 1) % 256
  { commandColumn m o now op seq arg p with cmdSeq := seq, cmd := some { opcode := op, arg := arg, seq := seq, tries := 0 } }

/-- The next waiting command goes out when no echo is awaited and no load is being sent (R137). -/
def nextCommand (m : WordMap) (o now : Nat) (p : PortState) : PortState :=
  match p.cmd, p.current, p.cmdQueue with
  | none, none, (op, arg) :: rest => sendCommand m o now op arg { p with cmdQueue := rest }
  | _, _, _ => p

/-- A command of a port: sent now, or after the commands before it and the load being sent. -/
def portSend (s : State) (o op arg : Nat) : State :=
  s.modPort o fun p => nextCommand (s.rt o) o s.tb.tick { p with cmdQueue := p.cmdQueue ++ [(op, arg)] }

/-- A running lane test or mirror checkerboard ends (R139): the pattern stops, and a checkerboard's array is parked. -/
def endPattern (s : State) (o : Nat) : State :=
  let pat := (s.portAt o).pattern
  if pat = 0 then s
  else if isScan (s.rt o) o then s.modPort o fun p => { p with pattern := 0 }
  else
    let s1 := s.modPort o fun p => { p with pattern := 0, patWait := false, checker := false }
    if (s.portAt o).link ≠ 5 then s1 else if pat = 2 then portSend (if (s.portAt o).checker then portSend s1 o 0x30 0 else s1) o 0x10 0
    else portSend s1 o 0x30 0

/-! ### The buffers of an output (R60, R62, R83) -/

/-- The front buffer of an output. -/
def frontBuf (s : State) (o : Nat) : BufState := nth (s.encAt o).bufs (s.encAt o).frontIdx {}
/-- The back buffer's index and the back buffer. -/
def backIdx (s : State) (o : Nat) : Nat := 1 - (s.encAt o).frontIdx
def backBuf (s : State) (o : Nat) : BufState := nth (s.encAt o).bufs (backIdx s o) {}
/-- The SEQ and mirror-link settings recorded with the front buffer (R83, R252). -/
def frontCfg (s : State) (o : Nat) : WordMap := (frontBuf s o).snap.cfg
/-- The start of the present frame of an output: tick and fine offset. -/
def frameStart (s : State) (o : Nat) : Nat × Nat := let t := s.tgAt o; posInstant t (t.pos - t.len)

/-! ### Recoveries (R35, R39, R40, R414, R415) -/

/-- The completion event of a recovered fault, once (R415). -/
def recovered (s : State) (code key : Nat) : State :=
  if s.log.recovering.contains (code, key) then
    raise { s with log := { s.log with recovering := s.log.recovering.erase (code, key) } } 0x0F23 code
  else s

/-- Every recovery of an output that ends at its frame boundary (R414). -/
def recoveredAll (s : State) (codes : List Nat) (key : Nat) : State := codes.foldl (fun s c => recovered s c key) s

/-- A recovery begins that belongs to a fault already counted. -/
def recoveryAlso (s : State) (code key : Nat) : State :=
  { s with log := { s.log with recovering := s.log.recovering ++ [(code, key)] } }

/-! ### Cancelling a Pour and ending an Anneal run -/

/-- Staged words put back (R388, R456). -/
def restoreStaged (s : State) (saved : List (Nat × Option Word)) : State :=
  s.modLadle fun l =>
    let mine := fun (e : Nat × Nat) => saved.any fun x => x.1 == e.1
    let kept := l.touched.filter fun e => !mine e
    { l with
      stg := saved.foldl (fun m e => m.set e.1 (e.2.getD (l.act.get e.1))) l.stg
      touched := (l.touchedSave.filter mine).foldl (fun m e => Sparse.put m e.1 e.2) kept
      touchedSave := [] }

/-- ANNEAL's data field (R392). -/
def annData (outcome cause item : Nat) : Nat := outcome + cause * 2 ^ 8 + item * 2 ^ 16

/-- Temperatures of the last 10 s, and the one in force before them. -/
def recentTemps (now : Nat) : List (Nat × Int) → List (Nat × Int)
  | [] => []
  | e :: r => if now < e.1 + 4000000000 then e :: recentTemps now r else [e]

/-- A temperature is noted for the thermal-slope check (R386): a lamp board's, or T_die at 6. -/
def noteTemp (s : State) (k : Nat) (v : Int) : State :=
  let add : List (Nat × Int) → List (Nat × Int) := fun l =>
    recentTemps s.tb.tick (match l with | e :: _ => if e.2 = v then l else (s.tb.tick, v) :: l | [] => [(s.tb.tick, v)])
  s.modAnn fun a => { a with temps := upd a.temps k add }

/-- The strings and the fast axis that a run started for an output in STANDBY stop again (R381). -/
def annReturn (s : State) (r : AnnRun) (o : Nat) : State :=
  if nth r.prevModes o 1 = 1 ∧ nth r.started o false then
    (stopStrings s o).modScan o fun x => { x with driveOn := false, fast := 0 }
  else s

/-- Every string of an output is let go by the run: command 0, held by no event (R378). -/
def annRelease (s : State) (o : Nat) : State :=
  noteDark ((outStrings (s.rt o) o).foldl (fun s nn => s.modStr nn fun x => { stringDark x with holdCur := none }) s) o

/-- The measurement of a run is over (R380, R381): its outputs resume at their first boundary 1 ms later, and what it started for
outputs in STANDBY stops. -/
def endMeasure (s : State) (r : AnnRun) : State :=
  let s1 := s.modAnn fun a => { a with resume := outputs.map fun o => (s.outAt o).mode == 5, resumeAt := s.tb.tick + 400000 }
  outputs.foldl (fun s o => annReturn (if r.kind = 0 ∧ (s.outAt o).mode = 5 then annRelease s o else s) r o) s1

/-- An Anneal run ends: its outcome is recorded, and a device run returns the device to STANDBY (R387, R391). -/
def endRun (s : State) (r : AnnRun) (outcome cause : Nat) : State :=
  let s1 := s.modAnn fun a => { a with run := none, outcome := outcome, cause := cause, step := (r.todo.headD (0, 0)).1, item := r.items.headD 0 }
  let s2 := if r.ended then s1 else endMeasure s1 r
  if s2.mode.dev = 5 then setDevice s2 1 else s2

/-- The pending Pour is withdrawn (R247): its staged values stay, but those an Anneal run or an INGOT_APPLY wrote return
to what was staged before (R388, R456). -/
def withdrawPour (s : State) (st : Nat) : State :=
  match s.ladle.pending with
  | none => s
  | some p =>
    let s1 := s.modLadle fun l => { l with pending := none, armed := false, st := if p.seq = l.seq then st else l.st }
    match p.kind with
    | .anneal => match s1.ann.run with | none => s1 | some r => restoreStaged s1 r.staged
    | .ingotApply => (restoreStaged s1 s1.mgmt.applySaved).modMgmt fun m => { m with applying := none, applySaved := [], sealed := [] }
    | _ => s1

/-- MASK and SEQ in a Ladle event's data (R262). -/
def pourData (p : Pour) : Nat := p.mask + p.seq % 4096 * 2 ^ 16

/-- The pending Pour is cancelled, with POUR_CANCELLED and its journal record (R247, R467). -/
def cancelPour (s : State) (path : PathId) : State :=
  match s.ladle.pending with
  | none => s
  | some p =>
    let s1 := raiseP (withdrawPour s 5) 0x0105 (pourData p) path
    let s2 := journalKind s1 2 path (changeData s1 p.seq p.mask 3 0 false []) 0
    match p.kind, s2.ann.run with
    | .anneal, some r => raise (endRun s2 r 4 0) 0x0E04 (annData 4 0 0)
    | _, _ => s2

/-- The run in progress is aborted with a cause: nothing is written, its own Pour is cancelled (R386, R387). -/
def abortRun (s : State) (cause : Nat) : State :=
  match s.ann.run with
  | none => s
  | some r =>
    let own : Bool := match s.ladle.pending with | some p => p.kind == PourKind.anneal | none => false
    let s1 := if own then withdrawPour s 5 else s
    raise (endRun s1 r 2 cause) 0x0E03 (annData 2 cause (r.items.headD 0))

/-- A mode transition of an output, an entry to or exit from STILL included, interrupts the full or steal run that names it, while it
measures (R386, cause 7; DEDUCED, notes/assumptions/131.md). -/
def interruptRun (s : State) (o : Nat) : State :=
  match s.ann.run with
  | some r => if r.kind ≠ 2 ∧ nbit r.outputs o ∧ !r.ended then abortRun s 7 else s
  | none => s

/-! ### The Quench latch and HALT (R405 to R410) -/

/-- The event of a trip source (R413); none for those whose rule raises another. -/
def sourceEvent (src : Nat) : Option Nat :=
  [some 0x0F10, some 0x0F11, some 0x0F20, some 0x0F21, some 0x0F03, some 0x0F02, some 0x0F01, some 0x0F12, some 0x0F13,
   none, some 0x0F14, none].getD src none

/-- Whether a source is among SOURCES. -/
def hasSource (s : State) (src : Nat) : Bool := nbit s.aod.sources src

/-- Add a source to SOURCES. -/
def addSource (m src : Nat) : Nat := if nbit m src then m else m + 2 ^ src

/-- A trip (R405 to R408): an Anneal run is aborted with cause 7, the latch is set, the source recorded, every string
clamped and its stage stopped, probes dropped, and the device enters QUENCH from STANDBY or ANNEAL. -/
def trip (s : State) (src : Nat) : State :=
  let s1 := abortRun s 7
  let s2 := s1.modAod fun a => { a with latch := true, sources := addSource a.sources src,
                                        first := if a.latch then a.first else src, cls := max a.cls 1 }
  let s3 := (List.range 24).foldl offString s2
  if s3.mode.dev = 1 ∨ s3.mode.dev = 5 then setDevice s3 6 else s3

/-- A trip with its source's event, raised when the source was not yet among SOURCES (R408, "When trips coincide"). -/
def tripEvent (s : State) (src data : Nat) (path : PathId) : State :=
  let s1 := trip s src
  match hasSource s src, sourceEvent src with
  | false, some e => raiseSev s1 e (if e = 0x0F01 then 2 else evtSev e) data path
  | _, _ => s1

/-- Composition of every output stops for HALT (R409). -/
def haltComposition (s : State) : State := outputs.foldl (fun s o => stopComposition s o 12) s

/-- A training pass or run is aborted: partial data are discarded, the values in force stay (R304). -/
def abortTraining (s : State) : State :=
  if s.hbm.training then
    let s1 := s.modHbm fun h => { h with training := false, slots := 0, retry := false }
    recovered (raise (recoveryAlso s1 0x0605 0) 0x0605 (s.hbm.fspNow * 2 ^ 8)) 0x0605 0
  else s

/-- A session closes: both keys go, staged values and a pending Pour stay (R440); journalled as KIND 4 (R467). The manual lists no
cause codes: 0 on request, 1 after 60 s, 2 after 24 h, 3 at the message limit, 4 zeroisation, 5 Dusk (notes/assumptions/30.md). -/
def closeSession (s : State) (k cause : Nat) : State :=
  match nth s.cruc.sessions k none with
  | none => s
  | some x =>
    let s1 := s.modCruc fun c => { c with sessions := listSet c.sessions k none }
    journalKind s1 4 x.carrier (leBytes 1 x.op ++ leBytes 1 1 ++ leBytes 1 cause ++ leBytes 1 0 ++ leBytes 4 x.peer ++ leBytes 2 x.port) 0

/-- An ingot update stops, which leaves the target copy blank (R455, R489); a message that waited for it is given up. -/
def stopUpdate (s : State) : State :=
  let idle : PathId → Mailbox → Mailbox := fun p b => if s.mgmt.body.any fun x => x.path == p then { b with busy := false } else b
  s.modMgmt fun m => { m with update := none, body := none, spi := idle .spi m.spi, bar0 := idle .bar0 m.bar0 }

/-- Step 1 of Dusk (R489): the pending Pour cancelled, a run aborted with cause 7, an update stopped, sessions closed. -/
def duskStep1 (s : State) : State :=
  let s1 := cancelPour s .internal
  let s2 := stopUpdate (abortRun s1 7)
  [0, 1, 2, 3].foldl (fun s k => closeSession s k 5) s2

/-- Dusk's session-close record and the signature record before it are due (R438, R489 step 4). -/
def duskStep4 (s : State) : State :=
  let s1 := (s.modJrn fun j => { j with sigDue := j.sigDue || (!s.cruc.closed && s.aod.queue.isEmpty) }).modMode fun x => { x with duskStep := 4, duskAt := s.tb.tick }
  journalKick (journalKind s1 8 .internal (leBytes 1 s.mode.duskCause) 0)

/-- Step 3 of Dusk (R489): a trip with source SW, inputs disabled, generators stopped. -/
def duskStep3 (s : State) : State :=
  let s1 := tripEvent s 8 0x800 .internal
  let s2 := { s1 with input := s1.input.map (fun i => { i with st := 0, run := none }),
                      tg := s1.tg.map (fun t => { t with running := false, tm := .idle }) }
  duskStep4 s2

/-- Dusk goes on once every output is in STANDBY (R489 step 2). -/
def duskAdvance (s : State) : State :=
  if s.mode.dev = 7 ∧ s.mode.duskStep = 2 ∧ s.mode.outs.all (fun x => x.mode == 1 && !x.trans) then duskStep3 s else s

/-- A timing-mode change of an output that leaves: before its generator has stopped the change is given up with the exit; after
that the new generator still starts (R255 step 4). -/
def TmStep.left : TmStep → TmStep
  | .parked t => .parked t
  | .ready t => .ready t
  | .fixed t => .fixed t
  | _ => .idle

/-- The array is parked or the fast axis stopped (R483): the output reaches STANDBY, with MODE_CHANGE when it was shown, and
its disable can retire (R257). A link loss that led here is recovered (R414). -/
def reachStandby (s : State) (o : Nat) : State :=
  let old := (s.outAt o).mode
  let s1 := (s.modOut o fun x => { x with mode := 1, trans := false, exit := .none_, parked := true }).modTg o fun t =>
    { t with tm := t.tm.left, composeStopped := true }
  let s2 := if old = 1 then s1 else modeChange s1 o old 1
  let s2 := dropRefs (s2.modGuard fun g => { g with beam := listSet g.beam o 0 }) o
  let s3 := if old ≠ 1 ∧ s2.mode.dev ≠ 7 then s2.modLadle fun l => { l with disables := l.disables ++ [{ item := .output o, out := o }] } else s2
  duskAdvance (recovered s3 0x0B02 o)

/-- Step 3 of the exit (R483, R255, R257): the strings stop; a PLANE output sends PARK, a SCAN output is forced blank and
RUN = 0 is posted for the next frame start. With the link down the array has parked itself (R152; DEDUCED,
notes/assumptions/26.md). -/
def stopOutput (s : State) (o : Nat) : State :=
  let s1 := stopStrings s o
  let s2 := (s1.modDrive fun d => { d with half := listSet d.half o false }).modOut o fun x => { x with exit := .stopping }
  if isScan (s.rt o) o then
    let s3 := s2.modScan o fun x => { x with allForced := true }
    if (s3.scanAt o).fast = 0 then reachStandby s3 o
    else if (s3.tgAt o).running then postSeq s3 o (runPost s3 o s3.tb.tick 0)
    else reachStandby (s3.modScan o fun x => { x with driveOn := false, fast := 0 }) o
  else if (s2.portAt o).link = 5 then portSend s2 o 0x10 0
  else reachStandby s2 o

/-- The output starts its exit to STANDBY (R483): a run that names it is interrupted, an entry is abandoned; `auto` records why it left, for R487: 1 by a link
loss, 3 by a class C HALT. Without a running generator no ramp frame can be shown. -/
def startExit (s : State) (o auto : Nat) : State :=
  let x := s.outAt o
  if x.exit ≠ .none_ ∨ (x.mode = 1 ∧ x.entry.isNone) then s
  else
    let s0 := (interruptRun s o).modAnn fun a => { a with resume := listSet a.resume o false }
    let s1 := s0.modOut o fun x => { x with trans := true, entry := none, exit := .rampNext, leftAuto := auto, held := none }
    let s2 := (stopComposition s1 o 12).modTg o fun t => { t with composeStopped := true, tm := t.tm.left }
    if (s2.tgAt o).running then s2 else stopOutput s2 o

/-- Dusk begins (R488) with its cause; `dawn` says whether Dawn follows. -/
def startDusk (s : State) (cause : Nat) (dawn : Bool) : State :=
  if s.mode.dev = 7 then s
  else
    let s1 := raise s 0x0005 (cause * 2 ^ 8)
    let s2 := setDevice s1 7
    let s3 := duskStep1 (s2.modMode fun x => { x with duskStep := 1, duskCause := cause, dawnFollows := dawn })
    let s4 := outputs.foldl (fun s o => startExit (endPattern s o) o 0) (s3.modMode fun x => { x with duskStep := 2 })
    duskAdvance s4

/-- The release class of a HALT event (R413): 1 = R, 2 = C, 3 = D. -/
def haltClass (code : Nat) : Nat :=
  if code = 0x0A04 then 1 else if code = 0x0D04 ∨ code = 0x0D09 then 2 else 3

/-- The response to an event of severity HALT (R409, R486): trip with source HALT, HALT and the class recorded,
composition stopped, training aborted; class C outputs leave for STANDBY, class D starts Dusk, CORE_LOST apart. -/
def haltResponse (s : State) (code : Nat) : State :=
  let cls := haltClass code
  let s1 := trip (abortTraining s) 9
  let s2 := s1.modAod fun a => { a with halt := true, cls := max a.cls cls }
  let s3 := haltComposition s2
  if cls = 2 then outputs.foldl (fun s o => if isLit s o then startExit s o 3 else s) s3
  else if cls = 3 ∧ code ≠ 0x0F14 then startDusk s3 3 false
  else s3

/-- Raise an event of severity HALT and respond to it (R409). -/
def raiseHalt (s : State) (code data : Nat) : State := haltResponse (raise s code data) code

/-- Whether a recovery in progress belongs to the same fault as a new event (R415): LOAD_CRC followed by LINK_DOWN. -/
def linkedFault (s : State) (code key : Nat) : Bool := code == 0x0B02 && s.log.recovering.contains (0x0B03, key)

/-- A recovered fault is detected: its event, then its recovery begins; a second fault before the first has completed
enters HALT (R39, R40). -/
def fault (s : State) (code data key : Nat) : State :=
  let s1 := raise s code data
  match s.log.recovering with
  | [] => recoveryAlso s1 code key
  | (c, _) :: _ => if linkedFault s code key then recoveryAlso s1 code key else raiseHalt s1 0x0F17 (c * 2 ^ 16)

/-- A signed value saturated to 32 bits (R88). -/
def sat32 (x : Int) : Nat := wrapInt 32 (clampInt (-2147483648) 2147483647 x)

/-- HOLD_DARK's data field (R88): output, fire time bits 23:0, slack as a signed 32-bit count. -/
def holdData (o fire : Nat) (slack : Int) : Nat := o + fire % 2 ^ 24 * 2 ^ 8 + sat32 slack * 2 ^ 32

/-- A stolen frame is held and darkened (R384, R385): its points are discarded and measured again in a later stolen frame; the
sixteenth frame in a row that discards the same point aborts the run. -/
def discardStolen (s : State) (o frame : Nat) : State :=
  match s.ann.run with
  | none => s
  | some r =>
    if (s.seqAt o).steal = some frame ∧ r.stolen then
      let r1 : AnnRun := if r.frame then
          { r with items := r.mark.1, point := r.mark.2.1, readings := r.readings.take r.mark.2.2.1, first := r.mark.2.2.2 }
        else r
      let r2 : AnnRun := { r1 with frame := false, stolen := false, post := false, high := false, discards := r.discards + 1 }
      let s1 := s.modAnn fun a => { a with run := some r2 }
      if 16 ≤ r2.discards then abortRun s1 7 else s1
    else s

/-! ### Posts at the timebase and hold-and-darken (R20 to R25, R88, R90) -/

/-- The minimum lead of an event (R23, R173). -/
def minLead (m : WordMap) (o cls : Nat) : Nat := if cls = 3 then 64 + ceilDiv (m.fld (aJlat o) 23 0) 25 else 64

/-- A slack joins the minima of its output (R25); a negative one counts as 0. -/
def recordSlack (q : SeqState) (slack : Int) : SeqState :=
  { q with runningMin := min q.runningMin slack.toNat, slackRunMin := min q.slackRunMin slack.toNat }

/-- A late event is counted and its slack joins the minima (R24, R25). -/
def countLate (s : State) (o : Nat) (slack : Int) : State :=
  s.modSeq o fun q => recordSlack { q with lateCount := satAdd 0xFFFFFFFF q.lateCount 1 } slack

/-- The queue with a post in order of fire time and fine offset, after those of the same instant (R21). -/
def insertPost (p : Post) : List Post → List Post
  | [] => [p]
  | a :: r => if p.fire < a.fire ∨ (p.fire = a.fire ∧ p.fine < a.fine) then p :: a :: r else a :: insertPost p r

/-- Whether the events of a frame are discarded: held (R88), or dark by a lost link (R151). Marks fire all the same. -/
def discards (s : State) (o : Nat) (p : Post) : Bool :=
  p.cls != 5 && (((s.seqAt o).holding && decide (p.frame ≤ (s.seqAt o).holdUntil)) || (s.portAt o).darkByLink)

/-- Whether the queue of an output has room for a post (R20): events handed to the drive die no longer stand in it (R22). -/
def hasRoom (q : SeqState) : Bool := decide ((q.queue.filter fun p => !p.handed).length < 1024)

/-- What hold-and-darken does (R88), through a frame, for a missed fire time detected at a tick: the output's light at 0, no
further strobe, its posted events discarded except plane-phase marks, HOLD_DARK raised. On SCAN every light converter is
forced blank (R167). The fourth such action within 1 s raises SLACK_HALT (R90). A frame already held is not held again. -/
def holdCore (s : State) (o frame fire detected : Nat) : State :=
  if (s.seqAt o).holding ∧ frame ≤ (s.seqAt o).holdUntil then s
  else
    let keep := fun (p : Post) => p.cls == 5 || decide (frame < p.frame)
    let s1 := darken s o
    let s2 := s1.modSeq o fun q => { q with
      holding := true, heldThisFrame := true, holdUntil := frame, holdCount := satAdd 0xFFFF q.holdCount 1,
      holdTimes := (s.tb.tick :: q.holdTimes).take 4,
      queue := q.queue.filter keep, unposted := q.unposted.filter keep }
    let s3 := if isScan (s.rt o) o then s2.modScan o fun x => { x with allForced := true } else s2
    let s4 := raise (discardStolen s3 o frame) 0x0210 (holdData o fire ((fire : Int) - detected))
    let four : Bool := match (s4.seqAt o).holdTimes with | [_, _, _, t] => decide (s.tb.tick < t + 400000000) | _ => false
    if four then raiseHalt s4 0x0A04 o else s4

/-- Hold-and-darken as the fault itself (a late event): HOLD_DARK starts the recovery that ends at the output's next
boundary (R414). -/
def holdFaultCore (s : State) (o frame fire detected : Nat) : State :=
  if (s.seqAt o).holding ∧ frame ≤ (s.seqAt o).holdUntil then s
  else
    let s1 := holdCore s o frame fire detected
    match s.log.recovering with
    | [] => recoveryAlso s1 0x0210 o
    | (c, _) :: _ => raiseHalt s1 0x0F17 (c * 2 ^ 16)

/-- The post that waits for room is acknowledged once the queue has it (R20): its slack is set then; a late one is never fired,
and its output is held (R23, R24). -/
def ackWaiting (s : State) (o : Nat) : State :=
  match (s.seqAt o).waiting with
  | none => s
  | some p =>
    if !hasRoom (s.seqAt o) then s
    else
      let s1 := s.modSeq o fun q => { q with waiting := none }
      let slack : Int := (p.fire : Int) - s.tb.tick
      if discards s1 o p then s1
      else if slack < minLead (s.rt o) o p.cls then holdFaultCore (countLate s1 o slack) o p.frame p.fire s.tb.tick
      else s1.modSeq o fun q => { q with queue := insertPost { p with slack := slack } q.queue }

/-- Hold-and-darken on an output through a frame (R88); the entries it frees let a waiting post be acknowledged (R20). -/
def holdFrame (s : State) (o frame fire detected : Nat) : State := ackWaiting (holdCore s o frame fire detected) o

/-- Hold-and-darken for the present frame of an output (R88). -/
def holdDark (s : State) (o fire detected : Nat) : State := holdFrame s o (s.tgAt o).counter fire detected

/-- Hold-and-darken for a late event, with the waiting post that it lets in. -/
def holdFault (s : State) (o frame fire detected : Nat) : State := ackWaiting (holdFaultCore s o frame fire detected) o

/-- The events of an output for the drive die leave the core die 32 ticks before their fire time (R22), and the entries they free
let a waiting post be acknowledged. The replica counter stands within one fine step of TICK: a free value. -/
def handOver (s : State) (o : Nat) : State :=
  let due := fun (p : Post) => (p.cls == 1 || p.cls == 2) && !p.handed && decide (p.fire ≤ s.tb.tick + 32)
  if (s.seqAt o).queue.any due then
    let d := s.draw 6
    let s1 := d.2.modDrive fun x => { x with replicaFine := (d.1 % 3 : Nat) - 1 }
    ackWaiting (s1.modSeq o fun q => { q with queue := q.queue.map fun p => if due p then { p with handed := true } else p }) o
  else s

/-- A deferred record that was a second fault enters HALT (R39). -/
def secondFault (s : State) : State :=
  match s.log.second with
  | none => s
  | some c => raiseHalt { s with log := { s.log with second := none } } 0x0F17 (c * 2 ^ 16)

/-- A tick passes (R5, R65): TICK and the drive die's replica count, and events for the drive die are handed over (R22). -/
def tickPass (s : State) : State :=
  let t := s.tb.tick + 1
  secondFault (outputs.foldl handOver ({ s with tb := { s.tb with tick := t } }.modDrive fun x => { x with replica := t }))

/-- The Temper level in force (R89): the greater of the thermal level and the highest S_n. -/
def temperLevel (s : State) : Nat := s.seq.foldl (fun a q => max a q.sReq) s.therm.level

/-! ### Who may do what (R457 to R459) -/

/-- The roles a path holds (R458, R459); the part's own paths hold every one. -/
def pathRoles (s : State) : PathId → Nat
  | .spi => s.mgmt.spiRoles
  | .bar0 => s.mgmt.bar0Roles
  | .eth k => match nth s.cruc.sessions k none with
    | some x => (match nth s.mgmt.operators x.op none with
      | some op => (match x.carrier with
        | .spi => op.roles ||| s.mgmt.spiRoles
        | .bar0 => op.roles ||| s.mgmt.bar0Roles
        | _ => op.roles)
      | none => 0)
    | none => 0
  | _ => 0x3FF

/-- The OUT_MASK of a path (R458, R459). -/
def pathMask (s : State) : PathId → Nat
  | .spi => s.mgmt.spiMask
  | .bar0 => s.mgmt.bar0Mask
  | .eth k => match nth s.cruc.sessions k none with
    | some x => (match nth s.mgmt.operators x.op none with
      | some op => (match x.carrier with
        | .spi => op.outMask ||| s.mgmt.spiMask
        | .bar0 => op.outMask ||| s.mgmt.bar0Mask
        | _ => op.outMask)
      | none => 0)
    | none => 0
  | _ => 0x1F

/-- Whether a path holds a role bit. -/
def hasRole (s : State) (path : PathId) (role : Nat) : Bool := nbit (pathRoles s path) role

/-- Whether the management controller serves requests: the core runs and the device is not in DUSK (R489). -/
def serves (s : State) (path : PathId) : Bool :=
  s.mode.core && (decide (s.mode.dev ≠ 7) || path == .internal || path == .ingot)

/-- MGMT_REFUSED and its journal record (R458, R467, R469): the role bit and the address. -/
def refuseRole (s : State) (path : PathId) (role addr : Nat) : State :=
  journalRefusal (raiseP s 0x0015 (pathNum path + role * 2 ^ 8 + addr * 2 ^ 32) path) 4 role addr path

/-- Do what a request asks when its path holds the role it needs; refuse it otherwise; do nothing while nobody serves it. -/
def withRole (s : State) (path : PathId) (role addr : Nat) (f : State → State) : State :=
  if !serves s path then s else if hasRole s path role then f s else refuseRole s path role addr

end Sys2Proof.Machine
end

