-- ==== Sys2Proof/Machine/Tables.lean ====
section
/-! DEFINITION. Which table word lies at an address and its access class (R9, R449, R495), from the chapters that place
each table. -/
namespace Sys2Proof.Machine

/-- A table of `n` equal parts: base, stride, and the first and last byte of a part that holds something. -/
structure TabRow where
  base : Nat
  n : Nat
  stride : Nat
  lo : Nat
  hi : Nat
  cls : Cls
  deriving DecidableEq, Repr

/-- Whether an address lies in the table. -/
def TabRow.covers (r : TabRow) (a : Nat) : Bool :=
  decide (r.base ≤ a) && (let d := a - r.base; decide (d / r.stride < r.n) && decide (r.lo ≤ d % r.stride) && decide (d % r.stride < r.hi))

/-- The tables of each region but PIXEL's. -/
def tableRows : List TabRow := [
  ⟨0x01000000, 1, 0x8000, 0, 0x8000, .ro⟩, -- event log (R499)
  ⟨0x03000000, 4, 0x200, 0, 0x200, .ro⟩, -- flip logs (R254)
  ⟨0x04000000, 2, 0x40, 0, 0x40, .ls⟩, -- Ethernet port descriptors (R277)
  ⟨0x04000100, 2, 0x40, 0, 0x40, .ls⟩, -- stream descriptors (R278)
  ⟨0x04001000, 8, 0x100, 0, 0x100, .ro⟩, -- frame records (R266)
  ⟨0x04002000, 2, 0x800, 0, 0x800, .se⟩, -- EDID (R276)
  ⟨0x05000000, 4096, 32, 0, 32, .ro⟩, -- surface descriptors (R333)
  ⟨0x06000000, 1, 0x100, 0, 0x100, .ls⟩, -- tickets (R347)
  ⟨0x08000000, 128, 0x40, 0, 0x40, .ls⟩, -- layer descriptors (R183)
  ⟨0x08004000, 4, 0x4000, 0, 0x4000, .ls⟩, -- tile order maps (R191)
  ⟨0x08020000, 4, 0x200, 0, 0x200, .ls⟩, -- order lists (R191)
  ⟨0x0A000000, 4 * 48, 0x8000, 0, 16400, .ls⟩, -- codebooks (R48)
  ⟨0x0A600000, 32, 0x400, 0, 784, .ls⟩, -- plane sets (R46)
  ⟨0x0A700000, 4, 0x2000, 0, 0x2000, .ls⟩, -- dither tile (R54)
  ⟨0x0B000000, 32, 0x4000, 0, 0x4000, .ls⟩, -- programs (R73)
  ⟨0x0C000000, 4, 0x40, 0, 28, .ro⟩, -- array identities (R149)
  ⟨0x0C001000, 4, 0x40, 0, 0x40, .ls⟩, -- converter maps (R172)
  ⟨0x0C010000, 24, 0x2000, 0, 0x2000, .ls⟩, -- linearisation tables (R164)
  ⟨0x0D000000, 24, 0x80, 0, 0x80, .ls⟩, -- efficiency tables (R44)
  ⟨0x0D001000, 24, 0x100, 0, 132, .ls⟩, -- wavelength tables (R106)
  ⟨0x0D003000, 8, 0x20, 0, 24, .ls⟩, -- PHI (R108)
  ⟨0x0D004000, 24, 0x20, 0, 16, .ro⟩, -- string binning view (R126)
  ⟨0x0D005000, 24, 0x20, 0, 0x20, .ro⟩, -- loop bins (R109)
  ⟨0x0E000000, 64, 8, 0, 8, .se⟩, -- neighbour table (R355)
  ⟨0x10000000, 4, 0x180000, 0, 0x91000, .se⟩, -- zone maps and tables (R393)
  ⟨0x11000000, 1, 0x2000, 0, 0x2000, .ro⟩, -- certificate chain (R421)
  ⟨0x11002000, 1, 0x1000, 0, 296, .wo⟩, -- key delivery mailbox (R429)
  ⟨0x11003000, 64, 32, 0, 32, .ro⟩] -- key table (R443)

/-- Whether offset `p` of an output's PIXEL tables holds something (R212). -/
def pixelTable (p : Nat) : Bool :=
  (decide (p < 0x78000) && decide (p % 0x8000 < 0x6040))
    || (decide (0x80000 ≤ p) && decide (p < 0x82000))
    || (decide (0x100000 ≤ p) && decide (p < 0x100000 + 35937 * 8))
    || (decide (0x180000 ≤ p) && decide (p < 0x18C000))
    || (decide (0x1C0000 ≤ p) && decide (p < 0x1C0000 + 8 * 129 * 73))
    || (decide (0x1F0000 ≤ p) && decide (p < 0x1F0024))
    || (decide (0x200000 ≤ p) && decide (p < 0x202000))
    || (decide (0x280000 ≤ p) && decide (p < 0x2EC000))

/-- The access class of the table word at an address, none where no table lies. -/
def tableCls (a : Nat) : Option Cls :=
  if 0x09000000 ≤ a ∧ a < 0x0A000000 then (if pixelTable (a % 0x400000) then some .ls else none)
  else (tableRows.find? (·.covers a)).map (·.cls)

/-- The access class of the register or table word at an address, mailboxes apart. -/
def clsOf (a : Nat) : Option Cls :=
  match regRow? a with
  | some r => some r.cls
  | none => tableCls a

/-! ### Reserved bits (R10) -/

/-- The defined bits of a PIXEL table word at offset `p` of its output (R212, R213, R216, R222). -/
def pixelMask (p : Nat) : Nat :=
  let q := p % 0x8000
  if p < 0x78000 then
    (if q = 0 then 0x01FFFFFF else if q = 8 then 0xFFFF else if q = 12 then 0
     else if 16 ≤ q ∧ q < 52 then 0xFFFFF else if 52 ≤ q ∧ q < 64 then 0 else 0xFFFFFFFF)
  else if 0x100000 ≤ p ∧ p < 0x180000 then (if p % 8 = 4 then 0xFFFF else 0xFFFFFFFF)
  else if 0x1F0000 ≤ p ∧ p < 0x200000 then 0xFFFFF
  else 0xFFFFFFFF

/-- The defined bits of the low and the high word of an instruction (R74); an undefined opcode leaves none reserved. -/
def instrMask (lo hi : Nat) : Nat × Nat :=
  match nbits hi 31 28 with
  | 1 => (0xF800FFFF, 0xFFFFFFFF)
  | 2 => (0xFFFF, 0xFFFFFFFC)
  | 3 => (0xF8000000, 0xFFFFFFFF)
  | 4 => if nbit lo 26 then (0xFFFFFFFF, 0xFFFFFFFF) else (0x07FFFFFF, 0xFFFFFFFC)
  | 5 => (0xF8000000, 0xFFFFFFFF)
  | 6 => (0x1FF, 0xFFFFFFFC)
  | 15 => (0, 0xFFFFFFFC)
  | _ => (0xFFFFFFFF, 0xFFFFFFFF)

/-- The defined bits of the program word at offset `q` of its program (R73, R74), as the map holds the instruction. -/
def progMask (m : WordMap) (a q : Nat) : Nat :=
  if q = 4 then 0x00FFFFFF
  else if 8 ≤ q ∧ q < 28 then 0
  else if q < 32 then 0xFFFFFFFF
  else if a % 8 = 0 then (instrMask (m.nat a) (m.nat (a + 4))).1 else (instrMask (m.nat (a - 4)) (m.nat a)).2

/-- The defined bits of a plane set's word at offset `q` (R46). -/
def planeSetMask (q : Nat) : Nat :=
  if q = 0 then 0xFFFFFFFF else if q = 4 then 0x00FFFFFF else if q < 16 then 0 else if q % 8 = 0 then 0x01FFFFFF else 0xFFFF

/-- The defined bits of a layer descriptor's word at offset `q` (R183). -/
def layerMask (q : Nat) : Nat :=
  if q = 0 then 0x01FFFF37 else if q = 4 then 0x0FFF00F3 else if q < 24 then 0xFFFFFFFF else if q = 24 then 0xFFFF else 0

/-- The defined bits of an Ethernet port descriptor's word (R277), of a stream descriptor's (R278). -/
def portDescMask (q : Nat) : Nat := if q < 4 then 0xFFFFFFFF else if q = 4 then 0x01FFFFFF else if q = 8 then 0xFFFFFFFF
  else if q = 12 then 0xFF else if q = 16 then 0xFFFF else 0
def streamDescMask (q : Nat) : Nat := if q < 28 then 0xFFFFFFFF else if q = 28 then 0x07FFFFFF else if q = 32 then 0xFFFFFFFF
  else if q = 36 then 0xFFFF else 0

/-- The defined bits of the table word at a word's address (R46, R48, R73, R172, R183, R191, R277, R278, R355, R393). -/
def tableMask (m : WordMap) (a : Nat) : Nat :=
  if 0x04000000 ≤ a ∧ a < 0x04000080 then portDescMask (a % 0x40)
  else if 0x04000100 ≤ a ∧ a < 0x04000180 then streamDescMask (a % 0x40)
  else if 0x08000000 ≤ a ∧ a < 0x08002000 then layerMask (a % 0x40)
  else if 0x08004000 ≤ a ∧ a < 0x08014000 then 0x0F0F0F0F
  else if 0x09000000 ≤ a ∧ a < 0x0A000000 then pixelMask (a % 0x400000)
  else if 0x0A000000 ≤ a ∧ a < 0x0A600000 then (if a % 0x8000 = 4 then 0xFF else if a % 0x8000 = 8 then 0xFFFFFF else 0xFFFFFFFF)
  else if 0x0A600000 ≤ a ∧ a < 0x0A608000 then planeSetMask (a % 0x400)
  else if 0x0B000000 ≤ a ∧ a < 0x0B080000 then progMask m a (a % 0x4000)
  else if 0x0C001000 ≤ a ∧ a < 0x0C001100 then 0xC7FFFFFF
  else if 0x0E000000 ≤ a ∧ a < 0x0E000200 then (if a % 8 = 4 then 0x00FFFFFF else 0xFFFFFFFF)
  else if 0x10000000 ≤ a ∧ a < 0x10600000 then (if 0x90000 ≤ (a - 0x10000000) % 0x180000 ∧ a % 16 = 12 then 0 else 0xFFFFFFFF)
  else 0xFFFFFFFF

/-- The bits of the word at a word's address that are not reserved (R10); those of an instruction as the map holds it. -/
def definedBits (m : WordMap) (a : Nat) : Nat := match regRow? a with | some r => r.defined | none => tableMask m a

/-- A word with its reserved bits cleared (R10). -/
def cleared (m : WordMap) (a : Nat) (v : Word) : Word := v &&& BitVec.ofNat 32 (definedBits m a)
/-- The word that a map holds at an address, its reserved bits cleared (R10). -/
def WordMap.clean (m : WordMap) (a : Nat) : Word := cleared m (a / 4 * 4) (m.get a)

end Sys2Proof.Machine
end

