-- ==== Sys2Proof/Machine/Ingot.lean ====
section
/-! DEFINITION. Ingots: their layout in flash, the judgement of a copy, the settings it carries, and the writing of a copy
(R445 to R455). -/
namespace Sys2Proof.Machine

/-- The first flash byte of copy A (0) or B (1) (R445). -/
def copyBase (c : Nat) : Nat := if c = 0 then 0 else 0x01000000

/-- Bytes of a copy as judged: MAGIC counts as "DVIG" while a commit judges it (R455). -/
def copyBytes (flash : Memory) (c : Nat) (commit : Bool) (a n : Nat) : List Byte :=
  let l := Memory.bytes flashDefault flash (copyBase c + a) n
  if commit ∧ a = 0 then (([0x44, 0x56, 0x49, 0x47] : List Byte) ++ l.drop 4).take n else l

/-- A section of the directory (R447). -/
structure Section where
  type : Nat
  ofs : Nat
  size : Nat
  check : Nat
  deriving DecidableEq, Repr

/-- The header of a copy (R447). -/
structure Ingot where
  length : Nat
  seq : Nat
  secVersion : Nat
  flags : Nat
  codes : Nat
  devId : Nat
  signerKey : List Byte
  sections : List Section
  deriving DecidableEq, Repr

/-- Read the header and directory of a copy. -/
def readIngot (flash : Memory) (c : Nat) : Ingot :=
  let g := fun a n => Memory.le flashDefault flash (copyBase c + a) n
  { length := g 8 4, seq := g 12 4, secVersion := g 16 1, flags := g 17 1, codes := g 19 1, devId := g 20 16,
    signerKey := Memory.bytes flashDefault flash (copyBase c + 48) 97,
    sections := (List.range (g 18 1)).map fun k => ⟨g (256 + 16 * k) 2, g (260 + 16 * k) 4, g (264 + 16 * k) 4, g (268 + 16 * k) 4⟩ }

/-- The bytes of a section. -/
def sectionBytes (flash : Memory) (c : Nat) (x : Section) : List Byte := Memory.bytes flashDefault flash (copyBase c + x.ofs) x.size

/-- The ADDR and VALUE pairs of a register section (R448). -/
def regPairs : List Byte → List (Nat × Word)
  | a0 :: a1 :: a2 :: a3 :: b0 :: b1 :: b2 :: b3 :: r =>
    (leNat [a0, a1, a2, a3], BitVec.ofNat 32 (leNat [b0, b1, b2, b3])) :: regPairs r
  | _ => []

/-- The blocks of a table section as address and bytes; none when a block runs past the section (R448). The first
argument bounds the number of blocks. -/
def tableBlocks : Nat → List Byte → Option (List (Nat × List Byte))
  | 0, _ => some []
  | n + 1, l =>
    if l.isEmpty then some []
    else if l.length < 8 then none
    else
      let size := leNat ((l.drop 4).take 4)
      if l.length < 8 + size then none
      else (tableBlocks n (l.drop (8 + (size + 7) / 8 * 8))).map fun r => (leNat (l.take 4), (l.drop 8).take size) :: r

/-- Whether every byte of a block lies in a table of a class. -/
def blockIn (cls : Cls) (b : Nat × List Byte) : Bool :=
  (List.range ((b.1 % 4 + b.2.length + 3) / 4)).all fun i => tableCls (b.1 / 4 * 4 + 4 * i) == some cls

/-- The rules of R448 and R449 for the content of one section. -/
def sectionOk (flash : Memory) (c : Nat) (x : Section) : Bool :=
  let l := sectionBytes flash c x
  match x.type with
  | 1 => x.size == 24
  | 2 => x.size == 1792
  | 3 => x.size == 32
  | 4 => x.size % 8 == 0 && (regPairs l).all fun e => (match regRow? e.1 with | some r => r.cls == .se | none => false)
  | 5 => (match tableBlocks l.length l with | some b => b.all (blockIn .se) | none => false)
  | 6 => x.size % 8 == 0 && (regPairs l).all fun e => (match regRow? e.1 with | some r => r.cls == .ls || r.cls == .rw | none => false)
  | 7 => (match tableBlocks l.length l with | some b => b.all (blockIn .ls) | none => false)
  | _ => false

/-- R448's count rule: types 1 to 3 at most once, types 4 to 7 at most 8 times. -/
def countsOk (l : List Section) : Bool :=
  l.all fun x => decide ((l.filter fun y => y.type == x.type).length ≤ (if x.type ≤ 3 then 1 else 8))

/-- Two sections do not overlap. -/
def disjointSections : List Section → Bool
  | [] => true
  | x :: r => r.all (fun y => decide (x.ofs + x.size ≤ y.ofs) || decide (y.ofs + y.size ≤ x.ofs)) && disjointSections r

/-- The signed region of a copy (R447). -/
def signedRegion (flash : Memory) (c : Nat) (commit : Bool) : List Byte :=
  copyBytes flash c commit 0 ((readIngot flash c).length - 96)

/-- The Crucible's acceptance of a copy (R423, R424): a written, unrevoked anchor, the security floor, the signature. -/
def crucAccepts (s : State) (c : Nat) (commit : Bool) : Bool :=
  let g := readIngot s.flash c
  !s.cruc.closed
    && ((List.range 4).any fun k => !(nth s.fuse.revoked k false) && nth s.fuse.anchors k none == some (Config.sha384 g.signerKey))
    && decide (s.fuse.floor ≤ g.secVersion)
    && Config.ecdsaVerify g.signerKey (Memory.bytes flashDefault s.flash (copyBase c + g.length - 96) 96) (signedRegion s.flash c commit)

/-- Step 2 of R451. -/
def judgeHeader (s : State) (c : Nat) (commit : Bool) : Bool :=
  let g := readIngot s.flash c
  copyBytes s.flash c commit 0 4 == [0x44, 0x56, 0x49, 0x47] && Memory.le flashDefault s.flash (copyBase c + 4) 2 == 0x1701
    && Memory.le flashDefault s.flash (copyBase c + 6) 2 == 256 && decide (g.length % 4 = 0 ∧ g.length ≤ 16777216)
    && decide (1 ≤ g.sections.length ∧ g.sections.length ≤ 32 ∧ 256 + 16 * g.sections.length + 96 ≤ g.length)

/-- Step 4 of R451. -/
def judgeSections (s : State) (c : Nat) : Bool :=
  let g := readIngot s.flash c
  g.sections.all (fun x => decide (x.ofs + x.size ≤ g.length - 96) && crc32c (sectionBytes s.flash c x) == x.check)
    && disjointSections g.sections

/-- The judgement of a copy (R451): 0 when valid, otherwise the cause; a commit starts at step 2 (R455). -/
def judgeCopy (s : State) (c : Nat) (commit : Bool) : Nat :=
  let g := readIngot s.flash c
  if !commit && Memory.bytes flashDefault s.flash (copyBase c) 4 == [0xFF, 0xFF, 0xFF, 0xFF] then 1
  else if !judgeHeader s c commit then 2
  else if !(nbit g.codes s.fuse.code && (g.devId == 0 || g.devId == s.fuse.devId)) then 3
  else if !judgeSections s c then 4
  else if !(countsOk g.sections && g.sections.all (sectionOk s.flash c)) then 5
  else if !crucAccepts s c commit then 6
  else 0

/-- INGOT_REJECTED (R423, R444) for a copy that fails step 6. -/
def rejectEvent (s : State) (cause : Nat) : State := if cause = 6 then raise s 0x1005 (6 * 2 ^ 16) else s

/-! ### The settings of a copy -/

/-- The words that a block of bytes changes, over a map that gives what a word now holds. -/
def blockWords (m : WordMap) (b : Nat × List Byte) : List (Nat × Word) :=
  (List.range ((b.1 % 4 + b.2.length + 3) / 4)).map fun i =>
    let a := b.1 / 4 * 4 + 4 * i
    (a, BitVec.ofNat 32 (leNat ((List.range 4).map fun k =>
      if b.1 ≤ a + k ∧ a + k < b.1 + b.2.length then b.2.getD (a + k - b.1) 0 else BitVec.ofNat 8 (m.byte (a + k)))))

/-- Write a list of words into a map. -/
def WordMap.setAll (m : WordMap) (l : List (Nat × Word)) : WordMap := l.foldl (fun m e => m.set e.1 e.2) m

/-- The words that the sections of one class change, in directory order (R453). -/
def copyWords (flash : Memory) (c : Nat) (m : WordMap) (regs tabs : Nat) : List (Nat × Word) :=
  ((readIngot flash c).sections.foldl (fun (a : WordMap × List (Nat × Word)) x =>
    let l := sectionBytes flash c x
    let w := if x.type = regs then regPairs l
             else if x.type = tabs then (match tableBlocks l.length l with
               | some b => b.flatMap (blockWords a.1)
               | none => [])
             else []
    (a.1.setAll w, a.2 ++ w)) (m, [])).2

/-- The first section of a type. -/
def findSection (flash : Memory) (c t : Nat) : Option (List Byte) :=
  ((readIngot flash c).sections.find? fun x => x.type == t).map (sectionBytes flash c)

/-- An operator slot of a KEYS section (R448). -/
def keysOperator (l : List Byte) (j : Nat) : Option Operator :=
  let x := (l.drop (112 * (8 + j))).take 112
  if (x.getD 0 0).toNat = 1 then some { roles := leNat ((x.drop 4).take 4), outMask := (x.getD 8 0).toNat, key := (x.drop 15).take 97 }
  else none

/-- An issuer slot of a KEYS section (R448). -/
def keysIssuer (l : List Byte) (j : Nat) : Option (List Byte) :=
  let x := (l.drop (112 * j)).take 112
  if (x.getD 0 0).toNat = 1 then some ((x.drop 15).take 97) else none

/-- The LAYOUT, KEYS and DAWN sections of a copy take effect (R448, R453 step 1, R459). -/
def applyDawnSections (s : State) (c : Nat) : State :=
  let f := s.flash
  let g := readIngot f c
  s.modMgmt fun m =>
    let m1 := match findSection f c 1 with
      | some l => { m with layout := (List.range 6).map fun i => leNat ((l.drop (4 * i)).take 4) }
      | none => m
    let m2 := match findSection f c 2 with
      | some l => { m1 with issuers := (List.range 8).map (keysIssuer l), operators := (List.range 8).map (keysOperator l) }
      | none => m1
    let b := fun (l : List Byte) (i n : Nat) => leNat ((l.drop i).take n)
    let m3 := match findSection f c 3 with
      | some l => { m2 with
          fspReq := b l 0 1, bar2Log := b l 1 1, showMask := b l 2 1, mgmtUdp := b l 4 2, spiRoles := b l 8 4, bar0Roles := b l 12 4,
          spiMask := b l 16 1, bar0Mask := b l 17 1 }
      | none => m2
    { m3 with autoShow := nbit g.flags 1, inForce := c, seq := g.seq, applied := true }

/-- RAISE_FLOOR of a copy is answered (R454). -/
def raiseFloor (s : State) (c : Nat) : State :=
  let g := readIngot s.flash c
  if nbit g.flags 0 then { s with fuse := { s.fuse with floor := max s.fuse.floor g.secVersion } } else s

/-! ### Writing a copy (R455, R368) -/

/-- The copy that updates write: the one that is not in force. -/
def targetCopy (s : State) : Nat := if s.mgmt.inForce = 0 then 1 else 0

/-- What a management command answers: its RESULT, words and bytes (R462). -/
def answer (s : State) (status : Nat) (words : List Word) (bytes : List Byte) : State :=
  s.modMgmt fun m => { m with answerStatus := status, answer := words, answerBytes := bytes }

/-- The data of an INGOT event (R469): path, copy and SEQ. -/
def ingotData (path : PathId) (copy seq : Nat) : Nat := pathNum path + copy * 2 ^ 8 + seq % 2 ^ 32 * 2 ^ 32

/-- Journal an ingot step (R467): result code, the copy's SEQ and the digest of its signed region. -/
def journalIngot (s : State) (result c : Nat) (path : PathId) : State :=
  let g := readIngot s.flash c
  journalKind s 2 path (changeData s g.seq 0 result 0 false (Config.sha384 (signedRegion s.flash c true))) 0

/-- Erase flash from `a` upward. -/
def eraseFlash (s : State) (a n : Nat) : State := { s with flash := Sparse.clear s.flash a (a + n) }

/-- NOR flash programs bits from 1 to 0 (PRESUMED, notes/assumptions/23.md). -/
def programFlash (s : State) (a : Nat) (l : List Byte) : State :=
  let old := Memory.bytes flashDefault s.flash a l.length
  { s with flash := Memory.store flashDefault s.flash a (List.zipWith (fun x y => x &&& y) old l) }

/-- INGOT_WRITE_FAIL (R469). -/
def ingotFail (s : State) (path : PathId) : State :=
  raiseP s 0x0014 (ingotData path (targetCopy s) (readIngot s.flash (targetCopy s)).seq) path

/-- The window is open for a commit: the copy is judged and MAGIC programmed, or the copy stays blank (R455). -/
def commitIngot (s : State) (u : Update) : State :=
  let c := u.copy
  let cause := judgeCopy s c true
  let s0 := (rejectEvent s cause).modMgmt fun m => { m with update := none }
  let s1 := if c = 0 then s0.modMgmt fun m => { m with causeA := cause } else s0.modMgmt fun m => { m with causeB := cause }
  let seqOk := decide (s.mgmt.seq < (readIngot s.flash c).seq)
  if cause = 0 ∧ seqOk then
    let s2 := (programFlash s1 (copyBase c) [0x44, 0x56, 0x49, 0x47]).modMgmt fun m => { m with committed := some c }
    let s3 := raiseP s2 0x0012 (ingotData u.path c (readIngot s.flash c).seq) u.path
    answer (journalIngot s3 7 c u.path) 0 [0] []
  else answer (journalIngot (ingotFail s1 u.path) 8 c u.path) 5 [BitVec.ofNat 32 cause] []

/-- The program or commit that waits for the window is done once it is open, and an erase begins (R368). -/
def resumeIngot (s : State) : State :=
  match s.mgmt.update with
  | none => s
  | some u =>
    match u.waitData with
    | some (ofs, l) =>
      answer ((programFlash s (copyBase u.copy + ofs) l).modMgmt fun m => { m with update := some { u with waitData := none, waitAt := none } }) 0 [] []
    | none => if u.waitCommit then commitIngot s u else s.modMgmt fun m => { m with update := some { u with waitAt := none } }

/-- Whether a write that was requested at a tick has waited 10 s (R368). -/
def waitedOut (now : Nat) : Option Nat → Bool
  | some t => decide (t + 4000000000 ≤ now)
  | none => false

/-- A write that has waited 10 s for the window is refused with cause "thermal" (R368): RESULT 6 and INGOT_WRITE_FAIL. -/
def refuseIngotWait (s : State) : State :=
  match s.mgmt.update with
  | none => s
  | some u =>
    if !waitedOut s.tb.tick u.waitAt then s
    else if u.waitData.isSome ∨ u.waitCommit then
      answer (ingotFail (s.modMgmt fun m => { m with update := some { u with waitData := none, waitCommit := false, waitAt := none } }) u.path) 6 [] []
    else if !u.erased then answer (ingotFail (s.modMgmt fun m => { m with update := none }) u.path) 6 [] []
    else s

/-- INGOT_BEGIN (R455): the header unit of the copy that is not in force is erased first. -/
def beginIngot (s : State) (path : PathId) (length : Nat) : State :=
  if 16777216 < length ∨ length % 4 ≠ 0 then answer s 1 [] []
  else if s.mgmt.update.isSome then answer s 4 [] []
  else
    let c := targetCopy s
    let s1 := s.modMgmt fun m => { m with
      update := some { path := path, length := length, copy := c, erased := false, waitAt := if s.therm.flashOpen then none else some s.tb.tick },
      committed := if m.committed = some c then none else m.committed }
    let s2 := if s.therm.flashOpen then eraseFlash s1 (copyBase c) s.jrn.eraseUnit else s1
    answer (journalIngot s2 6 c path) 0 [] []

/-- The erase of the target copy completes (R455), while the window is open. -/
def execIngotEraseDone (s : State) : Host.Outcome State Fault Refusal :=
  match s.mgmt.update with
  | some u =>
    if !u.erased && s.therm.flashOpen then
      .next ((eraseFlash s (copyBase u.copy) (ceilDiv u.length s.jrn.eraseUnit * s.jrn.eraseUnit)).modMgmt fun m => { m with update := some { u with erased := true } })
    else .next s
  | none => .next s

/-- INGOT_DATA (R455): up to 1,024 bytes at an offset of at least 4 within the length named. -/
def dataIngot (s : State) (ofs : Nat) (l : List Byte) : State :=
  match s.mgmt.update with
  | none => answer s 5 [] []
  | some u =>
    if 1024 < l.length then answer s 1 [] []
    else if !u.erased || u.waitData.isSome || u.waitCommit then answer s 4 [] []
    else if ofs < 4 ∨ u.length < ofs + l.length then answer s 5 [] []
    else if s.therm.flashOpen then answer (programFlash s (copyBase u.copy + ofs) l) 0 [] []
    else s.modMgmt fun m => { m with update := some { u with waitData := some (ofs, l), waitAt := some s.tb.tick } }

/-- INGOT_COMMIT (R455). -/
def commitRequest (s : State) : State :=
  match s.mgmt.update with
  | none => answer s 5 [] []
  | some u =>
    if !u.erased || u.waitData.isSome || u.waitCommit then answer s 4 [] []
    else if s.therm.flashOpen then commitIngot s u
    else s.modMgmt fun m => { m with update := some { u with waitCommit := true, waitAt := some s.tb.tick } }

end Sys2Proof.Machine
end

