-- ==== Sys2Proof/Machine/Thermal.lean ====
section
/-! DEFINITION. The thermal and supply manager: sensors, thresholds, the thermal level, the flash window, the writing of
deferred records, droop and the admission of wakes (R350 to R375). -/
namespace Sys2Proof.Machine

/-! ### Sensors (R350 to R358) -/

/-- The sensors of each die (R350): core, drive, the four frame-store dies, the interposer. -/
def dieSensors : List (List Nat) :=
  [List.range 40, (List.range 8).map (· + 40), [48, 49, 50], [51, 52, 53], [54, 55, 56], [57, 58, 59], [60, 61, 62, 63]]
/-- The die of a sensor. -/
def dieOf (i : Nat) : Nat := if i < 40 then 0 else if i < 48 then 1 else if i < 60 then 2 + (i - 48) / 3 else 6

/-- The neighbours of a sensor in force (R355). -/
def neighboursOf (m : WordMap) (i : Nat) : List Nat :=
  ((List.range 6).map fun b => m.byte (0x0E000000 + 8 * i + b)).filter fun j => j < 64
/-- GRAD of a sensor in units of 0.25 °C (R355). -/
def gradOf (m : WordMap) (i : Nat) : Nat := m.byte (0x0E000000 + 8 * i + 6)

/-- Whether both counts lie in the fused plausible range (R351). -/
def plausible (f : SensorFuse) (c : Nat × Nat) : Bool :=
  decide (f.pMin ≤ c.1 ∧ c.1 ≤ f.pMax ∧ f.qMin ≤ c.2 ∧ c.2 ≤ f.qMax)

/-- The untrimmed temperature in °C of a pair of counts (R351). -/
def untrimmedOf (f : SensorFuse) (c : Nat × Nat) : Rat :=
  let d := (c.1 : Rat) / c.2 - f.rho0
  f.fa + f.fb * d + f.fc * d * d

/-- Insert into a rising list of integers. -/
def insertInt (x : Int) : List Int → List Int
  | [] => [x]
  | y :: r => if x ≤ y then x :: y :: r else y :: insertInt x r

/-- Twice the median of a non-empty list: the mean of the two middle values for an even count (R355). -/
def median2 (l : List Int) : Int :=
  let r := l.foldr insertInt []
  let n := r.length
  if n % 2 = 1 then 2 * r.getD (n / 2) 0 else r.getD (n / 2 - 1) 0 + r.getD (n / 2) 0

/-- The greatest of a list of integers. -/
def maxInt? : List Int → Option Int
  | [] => none
  | x :: r => match maxInt? r with | none => some x | some y => some (max x y)

/-- A sensor after its own conversion: its reading and its judgement by R351 and the median of its live neighbours (R355).
`live j` says whether sensor `j` counted as live before, and converted plausibly now. -/
def judgeSensor (m : WordMap) (fuses : List SensorFuse) (counts : List (Nat × Nat)) (readings : List Int) (live : Nat → Bool)
    (i : Nat) (x : Sensor) : Sensor :=
  let f := nth fuses i {}
  let c := nth counts i (0, 0)
  let ns := (neighboursOf m i).filter live
  let d2 := if 2 ≤ ns.length then 2 * nth readings i 0 - median2 (ns.map fun j => nth readings j 0) else 0
  let sus := !plausible f c || decide (4 * gradOf m i < d2.natAbs)
  let y := { x with reading := nth readings i 0, untrimmed := untrimmedOf f c, dev := roundRat ((d2 : Rat) / 2) }
  if x.st = 2 then y
  else if sus then (if 8 ≤ x.suspect + 1 then { y with st := 2, suspect := 8 } else { y with st := 1, suspect := x.suspect + 1 })
  else { y with st := 0, suspect := 0 }

/-- The substitute of a sensor (R356): the greatest live neighbour, or the greatest live sensor on its die, plus 5.0 °C;
none where the manual states none. -/
def substituteOf (m : WordMap) (l : List Sensor) (i : Nat) : Option Int :=
  let live := fun j => (nth l j {}).st == 0
  match maxInt? (((neighboursOf m i).filter live).map fun j => (nth l j {}).reading) with
  | some v => some (v + 40)
  | none => (maxInt? (((nth dieSensors (dieOf i) []).filter live).map fun j => (nth l j {}).reading)).map (· + 40)

/-- The value a sensor contributes (R356) and whether it is a substitute; `open_` is the free value of a sensor for which
the manual states no substitute. -/
def contribution (m : WordMap) (l : List Sensor) (open_ : Int) (i : Nat) : Int × Bool :=
  let x := nth l i {}
  if x.st = 0 then (x.reading, false)
  else
    let v := (substituteOf m l i).getD open_
    if x.st = 1 ∧ v ≤ x.reading then (x.reading, false) else (v, true)

/-- The greatest value and the lowest index that holds it. -/
def greatest : List (Int × Nat × Bool) → Int × Nat × Bool
  | [] => (0, 0, false)
  | [e] => e
  | e :: r => let g := greatest r; if g.1 ≤ e.1 then e else g

/-- The sensors after a conversion, T_die, its source and whether it is a substitute (R351 to R358); the HBM3 stack counts
as 64 unless it is in self-refresh or untrained. -/
def convert (s : State) (counts : List (Nat × Nat)) (open_ : Int) : List Sensor × Int × Nat × Bool :=
  let m := s.rt 4
  let old := s.therm.sensors
  let fuses := s.fuse.sensors
  let readings := (List.range 64).map fun i => roundRat (8 * untrimmedOf (nth fuses i {}) (nth counts i (0, 0)) + ((nth old i {}).ofs : Rat) / 32)
  let live := fun j => ((nth old j {}).st == 0 || (nth old j {}).st == 3) && plausible (nth fuses j {}) (nth counts j (0, 0))
  let l := (List.range 64).map fun i => judgeSensor m fuses counts readings live i (nth old i {})
  let l2 := (List.range 64).map fun i =>
    let (v, b) := contribution m l open_ i
    { nth l i {} with value := v, subst := b }
  let cands := (List.range 64).map fun i => ((nth l2 i {}).value, i, (nth l2 i {}).subst)
  let g := greatest (if s.hbm.st = 4 ∨ s.hbm.st = 0 then cands else cands ++ [(s.hbm.temp, 64, false)])
  (l2, g.1, g.2.1, g.2.2)

/-- The data field of a thermal event (R375). -/
def thermData (who : Nat) (value : Int) (level : Nat) : Nat := who + level * 2 ^ 8 + wrapInt 16 value * 2 ^ 16

/-- Whether fewer than half the sensors of a core, drive or frame-store die are live (R357): the die, if any. -/
def uncoveredDie (l : List Sensor) : Option Nat :=
  (List.range 6).find? fun d =>
    let ss := nth dieSensors d []
    decide (2 * (ss.filter fun j => (nth l j {}).st == 0).length < ss.length)

/-! ### Thresholds (R358 to R360) -/

/-- A dwell of 8 ms, in ticks. -/
def dwell : Nat := 3200000

/-- One conversion of a threshold (R359): `up` at or above the rising point, `down` below the falling point; the threshold
after it, and whether it was entered or left now. -/
def Threshold.judge (t : Threshold) (now : Nat) (up down : Bool) : Threshold × Bool :=
  if (if t.entered then down else up) then
    (let from_ := t.since.getD now
     if from_ + dwell ≤ now then ({ entered := !t.entered, since := none }, true) else ({ t with since := some from_ }, false))
  else ({ t with since := none }, false)

/-- The thermal shutdown record (R369, R467): event code, T_die and the contributing sensor. -/
def shutdownRecord (s : State) (code : Nat) : State :=
  let r := newRecord s 6 code .internal (leBytes 2 code ++ leBytes 2 (wrapInt 16 s.therm.tdie) ++ leBytes 1 s.therm.src) 3
  let (s1, evs) := journalPut s r true
  journalCascade s1 evs

/-- The thermal level moves by one, with its event (R361). -/
def setLevel (s : State) (up : Bool) : State :=
  let l := if up then s.therm.level + 1 else s.therm.level - 1
  let s1 := s.modTherm fun t => { t with level := l, lastChange := s.tb.tick, fallen := !up }
  raise s1 (if up then 0x0D02 else 0x0D03) (thermData s1.therm.src s1.therm.tdie l)

/-- The condition of a rise (R361). -/
def riseHolds (t : ThermState) : Bool := t.temper.entered && decide (816 ≤ t.tdie) && decide (t.level < 7)
/-- The condition of a fall (R361), apart from the hold of R362: T_die below 98 °C for the dwell, and either no fall yet in this stay
below it or FALL_STEP since the last change. -/
def fallHolds (m : WordMap) (t : ThermState) (now : Nat) : Bool :=
  t.belowDone && decide (0 < t.level) && (!t.fallen || decide (t.lastChange + m.fld 0xD0008 23 8 * 400000 ≤ now))

/-- The thresholds on T_die at a conversion (R358, R359, R361, R365). -/
def judgeDie (s : State) : State :=
  let now := s.tb.tick
  let d := s.therm.tdie
  let data := thermData s.therm.src d 0
  let (w, wc) := s.therm.warn.judge now (decide (760 ≤ d)) (decide (d < 728))
  let (p, pc) := s.therm.temper.judge now (decide (816 ≤ d)) (decide (d < 784))
  let (h, hc) := s.therm.halt.judge now (decide (896 ≤ d)) (decide (d < 864))
  let below := if d < 784 then some (s.therm.below.getD now) else none
  let bdone : Bool := match below with | some t => decide (t + dwell ≤ now) | none => false
  let fresh := bdone && !s.therm.belowDone
  let s1 := s.modTherm fun t => { t with warn := w, temper := p, halt := h, below := below, belowDone := bdone, fallen := t.fallen && below.isSome }
  let s2 := if wc && w.entered then raise s1 0x0D01 data else s1
  let s3 := if pc && riseHolds s2.therm then setLevel s2 true
            else if fresh && fallHolds (s.rt 4) s2.therm now && s2.therm.holdUntil == 0 then setLevel s2 false else s2
  if hc && h.entered then shutdownRecord (raiseHalt s3 0x0D04 data) 0x0D04
  else if hc then raise s3 0x0D05 data else s3

/-! ### The flash window (R366 to R368) -/

/-- The flash-site input: 0 to 5 a diode, 6 to 11 a thermistor (R354, R374). -/
def flashInput (m : WordMap) : Nat := m.fld 0xD0030 10 8 + (if m.bit 0xD0030 12 then 6 else 0)

/-- The flash-site reading in 0.125 °C and whether the interposer stands in for it (R366). An input that is off or has not
converted is taken as failed (DESIGN CHOICE, notes/assumptions/24.md). -/
def flashReading (s : State) : Int × Bool :=
  let x := nth s.therm.exts (flashInput (s.rt 4)) {}
  if x.st = 1 then (x.mean, false)
  else ((maxInt? ([60, 61, 62, 63].map fun i => (nth s.therm.sensors i {}).value)).getD 0, true)

/-- The window closes (R366, R367): the record being written goes back to the head of the queue, and its location is left. -/
def closeWindow (s : State) : State :=
  let s1 := s.modTherm fun t => { t with flashOpen := false, flashSince := none, deferRaised := false }
  match s1.jrn.writing with
  | none => s1
  | some (r, _) =>
    let s2 := journalAdvance (s1.modJrn fun j => { j with writing := none })
    if r.kind = 1 then s2.modJrn fun j => { j with sigDue := true }
    else s2.modAod fun a => { a with queue := (if r.kind = 6 then .shutdown else .general, r) :: a.queue }

/-- The window opens (R366): queued records and a waiting ingot write go on. -/
def openWindow (s : State) : State :=
  let s1 := s.modAnn fun a => { a with run := a.run.map fun r => { r with writeWait := false } }
  resumeIngot (journalKick (s1.modTherm fun t => { t with flashOpen := true, flashSince := none, deferRaised := false }))

/-- The flash window at a conversion (R366). -/
def judgeWindow (s : State) : State :=
  let (f, fb) := flashReading s
  let ok := decide (0 ≤ f ∧ f ≤ 680) && decide (s.therm.tdie ≤ 800)
  let s1 := s.modTherm fun t => { t with fallback := fb }
  if !ok then (if s1.therm.flashOpen then closeWindow s1 else s1.modTherm fun t => { t with flashSince := none })
  else if s1.therm.flashOpen then s1
  else
    let from_ := s1.therm.flashSince.getD s.tb.tick
    if from_ + dwell ≤ s.tb.tick then openWindow s1 else s1.modTherm fun t => { t with flashSince := some from_ }

/-- Every 100 µs all 64 sensors convert (R351): the neighbour checks, T_die, the thresholds, the level and the flash window. -/
def sensorConversion (counts : List (Nat × Nat)) (s : State) : State :=
  let (v, s0) := s.draw 2
  let (l, d, src, sub) := convert s0 counts v
  let failed := (List.range 64).filter fun i => (nth l i {}).st == 2 && (nth s.therm.sensors i {}).st != 2
  let uncovered : Option Nat := if s.therm.converted && (uncoveredDie s.therm.sensors).isSome then none else uncoveredDie l
  let s1 := s0.modTherm fun t => { t with
    sensors := l, tdie := d, src := src, subst := sub, converted := true,
    holdUntil := if failed.isEmpty then t.holdUntil else s.tb.tick + 800000000 }
  let s2 := failed.foldl (fun s i => raise s 0x0D06 (thermData i (nth l i {}).value 0)) s1
  let s3 := match uncovered with
    | none => s2
    | some k =>
      let i := ((nth dieSensors k []).find? fun j => (nth l j {}).st != 0).getD 0
      shutdownRecord (raiseHalt s2 0x0D07 (thermData i (nth l i {}).value 0)) 0x0D07
  judgeWindow (judgeDie (noteTemp s3 6 d))

/-- A RISE_STEP or FALL_STEP interval since the last change has passed while its condition holds (R361, R362). -/
def execTemperLevelStep (s : State) : Host.Outcome State Fault Refusal :=
  if riseHolds s.therm && decide (s.therm.lastChange + (s.rt 4).fld 0xD0008 7 0 * 400000 ≤ s.tb.tick) then .next (setLevel s true)
  else if fallHolds (s.rt 4) s.therm s.tb.tick && s.therm.holdUntil == 0 then .next (setLevel s false)
  else .next s

/-- The 2 s hold ends (R362): a fall whose condition holds takes place now. -/
def execSensorFailHoldEnd (s : State) : Host.Outcome State Fault Refusal :=
  if s.therm.holdUntil = 0 ∨ s.tb.tick < s.therm.holdUntil then .next s
  else
    let s1 := s.modTherm fun t => { t with holdUntil := 0 }
    if fallHolds (s.rt 4) s1.therm s.tb.tick then .next (setLevel s1 false) else .next s1

/-! ### External inputs (R352 to R354, R360) -/

def aExtCfg (x : Nat) : Nat := 0xD0200 + 0x10 * x
def aExtThr (x : Nat) : Nat := 0xD0204 + 0x10 * x
def extWarn (m : WordMap) (x : Nat) : Nat := m.fld (aExtThr x) 7 0
def extHalt (m : WordMap) (x : Nat) : Nat := m.fld (aExtThr x) 15 8

/-- The conversion of an input: its state and its temperature in °C (R352, R353). A thermistor's code counts TH_REF / 4096
(PRESUMED); a diode's code is the product of absolute temperature and ideality in 1/64 K, and the outside world says
whether it is open or out of range (notes/assumptions/25.md). -/
def extTemp (m : WordMap) (x code bad : Nat) : Nat × Rat :=
  if x < 6 then
    if bad = 2 then (2, 0) else if bad = 3 then (3, 0)
    else (1, (code : Rat) / 64 / ((m.fld (aExtCfg x) 15 0 : Rat) / 16384) - 27315 / 100)
  else
    let v : Rat := (12 : Rat) / 10 * code / 4096
    if 119 / 100 < v then (2, 0) else if v < 1 / 100 then (3, 0)
    else
      let ratio := v / (12 / 10 - v)
      (1, 1 / (1 / (29815 / 100) + ratLn ratio / (m.fld (aExtCfg x) 30 16 : Rat)) - 27315 / 100)

/-- An external input converts (R354): its 100 ms mean, its failure, and its thresholds by R360; the flash-site input's conversion
judges the window (R366). -/
def extConversion (x code : Nat) (bad : Fin 4) (s : State) : State :=
  let m := s.rt 4
  let e := nth s.therm.exts x {}
  let put := fun (y : ExtState) (s : State) => s.modTherm fun t => { t with exts := listSet t.exts x y }
  if !m.bit (aExtCfg x) 31 then put { e with st := 0, mean := 0, samples := [] } s
  else
    let now := s.tb.tick
    let (st, temp) := extTemp m x code bad
    let ok := decide (st = 1)
    let samples := ((if ok then (now, temp) :: e.samples else e.samples).filter fun p => now < p.1 + 40000000).take 20
    let warnOn := decide (extWarn m x ≠ 255)
    let mean : Int := if ok then roundRat (8 * sumRat (fun p => p.2) samples / samples.length)
                      else if warnOn then 8 * (extWarn m x : Int) else 0
    let judged := ok || warnOn
    let (w, wc) := if judged && warnOn then e.warn.judge now (decide (8 * (extWarn m x : Int) ≤ mean)) (decide (mean < 8 * ((extWarn m x : Int) - 4)))
                   else (e.warn, false)
    let (h, hc) := if judged && decide (extHalt m x ≠ 255) then
                     e.halt.judge now (ok && decide (8 * (extHalt m x : Int) ≤ mean)) (decide (mean < 8 * ((extHalt m x : Int) - 4)))
                   else (e.halt, false)
    let s1 := put { st := st, mean := mean, samples := samples, warn := w, halt := h } s
    let s2 := if !ok && decide (e.st < 2) then raise s1 0x0D0A (thermData x mean 0) else s1
    let s3 := if wc && w.entered then raise s2 0x0D08 (thermData x mean 0) else s2
    let s4 := if hc && h.entered then shutdownRecord (raiseHalt s3 0x0D09 (thermData x mean 0)) 0x0D09 else s3
    if x = flashInput m ∧ s.therm.converted then judgeWindow s4 else s4

/-! ### Records in flash (R367, R437, R438) -/

/-- A journal record's check word is written (R437): it joins the chain; shutdown, session-open and session-close records
move the mirror and the dirty flag (R369); the next record follows. -/
def execJournalWriteDone (s : State) : Host.Outcome State Fault Refusal :=
  match s.jrn.writing with
  | none => .next s
  | some (r, b) =>
    let s1 := { s with flash := Memory.store flashDefault s.flash ((journalArea s).1 + s.jrn.pos) b }
    let since := if r.kind = 1 then 0 else s.jrn.sinceSig + 1
    let s2 := s1.modJrn fun j => { j with
      writing := none, seq := j.seq + 1, prev := Config.sha384 b, sinceSig := since,
      sigDue := (decide (r.kind ≠ 1) && (j.sigDue || decide (2 ≤ r.sev) || decide (0 < signInterval s ∧ signInterval s ≤ since))),
      mirror := if r.kind = 7 then true else if r.kind = 6 ∨ r.kind = 8 then false else j.mirror }
    let s3 := if r.kind = 6 ∨ r.kind = 8 then s2.modAod fun a => { a with dirty := false }
              else if r.kind = 7 then s2.modAod fun a => { a with dirty := true } else s2
    let s4 := if r.kind = 8 ∧ s3.mode.dev = 7 ∧ s3.mode.duskStep = 4 then s3.modMode fun x => { x with duskStep := 5 } else s3
    .next (journalKick (journalAdvance s4))

/-! ### Supply droop (R370) -/

def droopMv (m : WordMap) : Nat := m.fld 0xD0020 7 0

/-- Whether a sensor senses VCORE or VSRAM (R370). -/
def senses (i : Nat) : Bool := decide (i < 40) || (decide (48 ≤ i) && decide (i < 60))

/-- The estimated drop in mV of a sample against the ring's mean over the last 1 ms (R370). -/
def dropOf (f : SensorFuse) (ring : List Nat) (count : Nat) : Rat :=
  if ring.isEmpty ∨ ring.sum = 0 then 0 else (1 - (count : Rat) * ring.length / ring.sum) / f.kv

/-- A 40-tick ring-Q gate (R370): the droop condition begins when an estimate reaches DROOP_MV. -/
def execDroopSample (i count : Nat) (s : State) : Host.Outcome State Fault Refusal :=
  if !senses i then .next s
  else
    let ring := nth s.therm.rings i []
    let d := dropOf (nth s.fuse.sensors i {}) ring count
    let s1 := s.modTherm fun t => { t with rings := listSet t.rings i ((count :: ring).take 10000), estimates := listSet t.estimates i d }
    let lim := droopMv (s.rt 4)
    let calm := s1.therm.estimates.all fun e => decide (2 * e < (lim : Rat))
    let s2 := s1.modTherm fun t => { t with calmSince := if t.droop && calm then some (t.calmSince.getD s.tb.tick) else none }
    let depth := (d.floor).toNat
    if s2.therm.droop then .next (s2.modTherm fun t => { t with droopDepth := max t.droopDepth (min 255 depth) })
    else if (lim : Rat) ≤ d then
      let s3 := s2.modTherm fun t => { t with
        droop := true, droopSensor := i, droopDepth := min 255 depth, droopCount := satAdd 0xFFFF t.droopCount 1, calmSince := none }
      .next (raiseLimited s3 0x0D0E 0 (i + min 0xFFFF depth * 2 ^ 16) oneSecond .internal)
    else .next s2

/-- Every estimate has stayed below DROOP_MV / 2 for CLEAR_US (R370). -/
def execDroopClear (s : State) : Host.Outcome State Fault Refusal :=
  let calm := match s.therm.calmSince with | some t => decide (t + (s.rt 4).fld 0xD0020 15 8 * 400 ≤ s.tb.tick) | none => false
  if s.therm.droop && calm then
    .next ((s.modTherm fun t => { t with droop := false, calmSince := none }).modDrive fun d => { d with paused := false })
  else .next s

/-! ### Power domains (R371, R372) -/

def wakeGap (m : WordMap) : Nat := m.fld 0xD0020 23 16

/-- Set or clear a bit of a mask. -/
def withBit (m i : Nat) (b : Bool) : Nat := if nbit m i = b then m else if b then m + 2 ^ i else m - 2 ^ i

/-- A sleeping domain is needed (R371): its wake waits for admission. -/
def execDomainWakeRequest (d : Nat) (s : State) : Host.Outcome State Fault Refusal :=
  if nbit s.therm.awake d then .next s else .next (s.modTherm fun t => { t with pend := withBit t.pend d true })

/-- Whether an admission may take place now (R372): WAKE_GAP since the last one, and no droop. -/
def admissible (s : State) : Bool :=
  !s.therm.droop && (match s.drive.lastAdmit with | none => true | some t => decide (t + 400 * wakeGap (s.rt 4) ≤ s.tb.tick))

/-- The lowest pending domain is admitted (R372). -/
def execDomainWakeAdmit (s : State) : Host.Outcome State Fault Refusal :=
  match (List.range 26).find? (nbit s.therm.pend) with
  | none => .next s
  | some d =>
    if admissible s then
      .next ((s.modTherm fun t => { t with pend := withBit t.pend d false, awake := withBit t.awake d true,
                                           wokenAt := listSet t.wokenAt d s.tb.tick }).modDrive fun x =>
        { x with lastAdmit := some s.tb.tick })
    else .next s

/-- 2 µs after its admission a domain is usable (R371). -/
def execDomainUsable (d : Nat) (s : State) : Host.Outcome State Fault Refusal :=
  if nbit s.therm.awake d ∧ nth s.therm.wokenAt d 0 + 800 ≤ s.tb.tick then .next (s.modTherm fun t => { t with usable := withBit t.usable d true }) else .next s

/-- Whether a domain has work or a function that uses it (R371): a tile on its engines, a frame under construction of its output, a
port that is not off, an enabled receiver, an Ethernet port with a rate, a PCIe link, a sealed frame in progress. What uses a
domain is DEDUCED (notes/assumptions/130.md). -/
def domainUsed (s : State) (d : Nat) : Bool :=
  let enabled := fun (i : Nat) => s.act.bit (0x30100 + 0x40 * i) 31
  if d < 4 then (List.range 4).any fun k => (nth s.composer.engines (4 * d + k) none).isSome
  else if d < 12 then (s.compAt (d % 4)).fuc.isSome
  else if d < 16 then (s.portAt (d - 12)).link != 0 || (s.scanAt (d - 12)).jesd != 0
  else if d < 22 then enabled (d - 16)
  else if d < 24 then s.act.byte (0x04000006 + 0x40 * (d - 22)) != 0
  else if d = 24 then s.pcie.speed != 0
  else s.input.any fun i => (i.run.bind (·.key)).isSome

/-- A domain unused for 1 ms, its work retired, sleeps (R371). -/
def execDomainSleep (d : Nat) (s : State) : Host.Outcome State Fault Refusal :=
  if domainUsed s d then .next s
  else .next (s.modTherm fun t => { t with awake := withBit t.awake d false, usable := withBit t.usable d false })

/-! ### Checks (R373) -/

/-- The input that names a kind and index; none for an index above 5. -/
def extInput (kind : Bool) (idx : Nat) : Option Nat := if idx < 6 then some (idx + if kind then 6 else 0) else none

/-- The first failed check of R373. -/
def thermalChecks (m : WordMap) : Option Nat :=
  let used := fun (o : Option Nat) => match o with | some x => m.bit (aExtCfg x) 31 | none => false
  if !(m.fld 0xD0008 31 24 == 0 && m.fld 0xD0020 31 24 == 0 && m.nat 0xD0030 == (m.nat 0xD0030 &&& 0x1700)
      && (List.range 12).all fun x => m.fld (aExtThr x) 31 16 == 0) then some 1
  else if !decide (10 ≤ droopMv m ∧ droopMv m ≤ 100 ∧ 1 ≤ m.fld 0xD0020 15 8 ∧ 2 ≤ wakeGap m) then some 2
  else if (List.range 12).any fun x => m.bit (aExtCfg x) 31 &&
      (let p := m.fld (aExtCfg x) 15 0
       let b := m.fld (aExtCfg x) 30 16
       if x < 6 then !decide (9 * 16384 ≤ 10 * p ∧ 10 * p ≤ 11 * 16384) else !decide (2000 ≤ b ∧ b ≤ 6000 ∧ p ≠ 0)) then some 3
  else if !(used (extInput (m.bit 0xD0030 12) (m.fld 0xD0030 10 8))
      && (List.range 6).all fun b => !m.bit (0xC0700 + 0x10 * b) 31 || used (extInput (m.bit (0xC0700 + 0x10 * b) 12) (m.fld (0xC0700 + 0x10 * b) 10 8))) then some 4
  else none

end Sys2Proof.Machine
end

