-- ==== Sys2Proof/Machine/Modes.lean ====
section
/-! DEFINITION. Output entry and exit, requests, and the device commands (R478 to R487). -/
namespace Sys2Proof.Machine

/-- Whether an output is outside STANDBY or in transition out of it (R58, R478). -/
def occupied (s : State) (o : Nat) : Bool := (s.outAt o).mode != 1 || (s.outAt o).trans

/-- Whether every enabled string of an output is READY or failed (R124). -/
def stringsReady (s : State) (o : Nat) : Bool :=
  (outStrings (s.rt o) o).all fun nn => (s.strAt nn).failed || (s.strAt nn).st == 3

/-- The conditions of R478 that fail for a request, as the causes of R494 in the order of the rule; the link last. -/
def showFails (s : State) (o : Nat) : List Nat :=
  let m := s.act
  let p := seqProg m o
  (if s.mode.dev ≠ 1 then [1] else [])
    ++ (if (s.outAt o).mode ≠ 1 ∨ (s.outAt o).trans then [2] else [])
    ++ (if fsSize m o = 0 ∨ fsLinear m o ≠ isScan m o ∨ ([0, 1, 2, 3].any fun k => k != o && occupied s k && fsOverlap m o k) then [3] else [])
    ++ (if (nth s.guard.zones o {}).resident then [] else [4])
    ++ (if seqResident m o p ∧ progKind m o p = (if isScan m o then 2 else 0) then [] else [6])
    ++ (match s.ann.run with | some r => if nbit r.outputs o then [7] else [] | none => [])
    ++ (if !isScan m o && !((s.portAt o).link == 5 && (s.portAt o).accepted) then [5] else [])

/-- A request is refused with a cause (R478, R494). -/
def refuseMode (s : State) (o cause : Nat) (path : PathId) : State := raiseP s 0x0004 (o + cause * 2 ^ 8) path

/-- An accepted request (R480, R481): the strings queue for pacing; a PLANE output ends a test pattern (R139) and unparks its array, a SCAN output posts
RUN = 1 for the first frame start at least 4,096 ticks away. -/
def acceptShow (s : State) (o : Nat) : State :=
  let s1 := s.modOut o fun x => { x with trans := true, entry := some s.tb.tick, slowFired := 0, held := none,
                                         heldAuto := false, leftAuto := 0, prev := 1 }
  let s2 := (queueStrings (endPattern s1 o) o).modTg o fun t => { t with composeStopped := false }
  if isScan (s.rt o) o then
    postSeq (s2.modScan o fun x => { x with allForced := true }) o (runPost s2 o (s.tb.tick + 4096) 1)
  else portSend s2 o 0x11 0

/-- A request for PLANE or SCAN (R478). One from Dawn or R487 is held while only the link condition fails. -/
def requestShow (s : State) (o : Nat) (auto : Bool) (path : PathId) : State :=
  match showFails s o with
  | [] => acceptShow s o
  | [5] => if auto then s.modOut o fun x => { x with held := some s.tb.tick, heldAuto := true } else refuseMode s o 5 path
  | c :: _ => refuseMode (s.modOut o fun x => { x with held := none }) o c path

/-- Whether AUTO_SHOW re-enters an output (R487). -/
def autoShows (s : State) (o : Nat) : Bool := s.mgmt.autoShow && nbit s.mgmt.showMask o

/-- A held request is judged again, and an output that left because of its link asks again, once its link is up (R478,
R487). -/
def linkReturned (s : State) (o : Nat) : State :=
  let x := s.outAt o
  if x.held.isSome then requestShow s o true .internal
  else if x.mode = 1 ∧ ¬ x.trans ∧ x.leftAuto = 1 ∧ autoShows s o then
    requestShow (s.modOut o fun x => { x with leftAuto := 0 }) o true .internal
  else s

/-- What a release of the Quench latch does beyond the guard (R412, R485 to R487): the device is in STANDBY, strings of
shown outputs re-enter through pacing, composition resumes, and outputs that a class C HALT sent to STANDBY ask again. The
security floor of the copy in force is raised once STANDBY is reached (R454). -/
def afterRelease (s : State) : State :=
  let s1 := if s.mode.dev = 6 then (let t := setDevice s 1; if t.mgmt.applied then raiseFloor t t.mgmt.inForce else t) else s
  let s2 := outputs.foldl (fun s o => if isLit s o ∨ (s.outAt o).entry.isSome then queueStrings s o else s) s1
  outputs.foldl (fun s o =>
    let x := s.outAt o
    if x.mode = 1 ∧ ¬ x.trans ∧ x.leftAuto = 3 ∧ autoShows s o then
      requestShow (s.modOut o fun x => { x with leftAuto := 0 }) o true .internal
    else s) s2

/-- The outputs that a MODE_CMD names. -/
def namedOutputs (outs : Nat) : List Nat := outputs.filter (nbit outs)

/-- SHOW for each output named (R478). -/
def modeShow (s : State) (outs : Nat) (path : PathId) : State :=
  (namedOutputs outs).foldl (fun s o => requestShow s o false path) s

/-- STANDBY for one output (R483, R484): an entry is abandoned; another transition refuses the request. -/
def standbyOne (s : State) (o : Nat) (path : PathId) : State :=
  let x := s.outAt o
  if s.mode.dev = 7 then refuseMode s o 1 path
  else if x.entry.isSome then startExit s o 0
  else if x.trans then refuseMode s o 2 path
  else if x.mode = 5 then refuseMode s o 7 path
  else startExit s o 0

/-- STANDBY for each output named. -/
def modeStandby (s : State) (outs : Nat) (path : PathId) : State := (namedOutputs outs).foldl (fun s o => standbyOne s o path) s

/-- MODE_CMD with OP = SHOW (R478). -/
def execModeCmdShow (path : PathId) (outs : Nat) (s : State) : Host.Outcome State Fault Refusal :=
  .next (withRole s path 9 0x14 fun s => modeShow s outs path)
/-- MODE_CMD with OP = STANDBY (R483, R484). -/
def execModeCmdStandby (path : PathId) (outs : Nat) (s : State) : Host.Outcome State Fault Refusal :=
  .next (withRole s path 9 0x14 fun s => modeStandby s outs path)
/-- MODE_CMD with OP = DUSK (R479, R488). -/
def execModeCmdDusk (path : PathId) (s : State) : Host.Outcome State Fault Refusal :=
  .next (withRole s path 9 0x14 fun s => startDusk s 0 false)

/-- An entry has not completed within 2 s (R482). -/
def execEntryTimeout (o : Nat) (s : State) : Host.Outcome State Fault Refusal :=
  match (s.outAt o).entry with
  | some t => if t + 800000000 ≤ s.tb.tick then .next (startExit (raise s 0x0008 o) o 0) else .next s
  | none => .next s

/-- A held request is still not met after 1 s (R478). -/
def execHeldRequestTimeout (o : Nat) (s : State) : Host.Outcome State Fault Refusal :=
  match (s.outAt o).held with
  | some t => if t + 400000000 ≤ s.tb.tick then
      .next (refuseMode (s.modOut o fun x => { x with held := none, heldAuto := false }) o 5 .internal)
    else .next s
  | none => .next s

end Sys2Proof.Machine
end

