-- ==== Sys2Proof/Machine/Guard.lean ====
section
/-! DEFINITION. The guard: zone masks, rectangle signatures, interlocks, the Quench latch and its release (R393 to R418). -/
namespace Sys2Proof.Machine

/-! ### Zone masks (R393 to R396) -/

/-- Where the zone map of an output lies in the GUARD table region and in the frame store (R58, R393). -/
def zoneTable (o : Nat) : Nat := 0x10000000 + o * 0x180000
def zoneStore (o : Nat) : Nat := 0x0F800000 + o * 0x180000
/-- Bytes of the zone map of a layout (R395). -/
def zoneMapBytes (w h : Nat) : Nat := ceilDiv w 4 * ceilDiv h 4

/-- The bytes signed by R395 out of the GUARD table region: the map, then the 4,096 table bytes. -/
def zoneSource (m : WordMap) (o w h : Nat) : List Byte := m.bytes (zoneTable o) (zoneMapBytes w h) ++ m.bytes (zoneTable o + 0x90000) 4096
/-- The same bytes of the resident copy. -/
def zoneResident (s : State) (o w h : Nat) : List Byte :=
  Memory.bytes ramDefault s.fs (zoneStore o) (zoneMapBytes w h) ++ Memory.bytes ramDefault s.fs (zoneStore o + 0x90000) 4096
/-- ZM_EXPECT_n. -/
def zoneExpect (m : WordMap) (o : Nat) : Nat := m.nat (0xF0100 + 0x40 * o)

/-- The limit of a light channel at a pixel, from the resident copy (R393, R394). -/
def zoneLimit (s : State) (o c x y : Nat) : Nat :=
  let zs := ceilDiv (nth s.guard.zones o {}).w 4
  let z := (Sparse.get ramDefault s.fs (zoneStore o + y / 4 * zs + x / 4)).toNat
  Memory.le ramDefault s.fs (zoneStore o + 0x90000 + 16 * z + 2 * c) 2

def State.modZone (s : State) (o : Nat) (f : ZoneState → ZoneState) : State := s.modGuard fun g => { g with zones := upd g.zones o f }

/-- Map and table are copied into the resident copy when their signature is the expected one (R395). -/
def makeResident (s : State) (o : Nat) : State :=
  let m := s.act
  let w := fsWidth m o
  let h := fsHeight m o
  if crc32 (zoneSource m o w h) = zoneExpect m o then
    let fs1 := Memory.store ramDefault s.fs (zoneStore o) (m.bytes (zoneTable o) (zoneMapBytes w h))
    let fs2 := Memory.store ramDefault fs1 (zoneStore o + 0x90000) (m.bytes (zoneTable o + 0x90000) 4096)
    { s.modZone o fun z => { z with resident := true, w := w, h := h } with fs := fs2 }
  else s.modZone o fun z => { z with resident := false }

/-- The dither tile in force is copied into the frame store (R54, R58). -/
def makeTile (s : State) : State :=
  { s with fs := Memory.store ramDefault s.fs 0x0FE00000 (s.act.bytes 0x0A700000 0x8000) }

/-- The data field of a guard event (R418). -/
def guardData (o idx sig : Nat) : Nat := o + idx * 2 ^ 8 + sig % 2 ^ 32 * 2 ^ 32

/-- A zone signature has failed (R396): a trip with source ZONE_SIG, then the copy is made resident again. -/
def zoneFail (s : State) (o sig : Nat) : State :=
  makeResident ((tripEvent s 5 (guardData o 5 sig) .internal).modZone o fun z => { z with fails := satAdd 0xFFFF z.fails 1 }) o

/-- Every 10 ms the resident copies are signed again (R396). -/
def execZoneSigCheck (s : State) : Host.Outcome State Fault Refusal :=
  .next (outputs.foldl (fun s o =>
    let z := nth s.guard.zones o {}
    let sig := crc32 (zoneResident s o z.w z.h)
    if z.resident && sig != zoneExpect s.act o then zoneFail s o sig else s) s)

/-! ### Rectangle signatures (R397 to R399) -/

def aSig (o r : Nat) : Nat := 0xF1000 + 0x400 * o + 0x20 * r
def sigX0 (m : WordMap) (o r : Nat) : Nat := m.fld (aSig o r) 15 0
def sigY0 (m : WordMap) (o r : Nat) : Nat := m.fld (aSig o r) 31 16
def sigW (m : WordMap) (o r : Nat) : Nat := m.fld (aSig o r + 4) 15 0
def sigH (m : WordMap) (o r : Nat) : Nat := m.fld (aSig o r + 4) 31 16
def sigCfg (m : WordMap) (o r : Nat) : Nat := m.nat (aSig o r + 8)
def sigMode (m : WordMap) (o r : Nat) : Nat := nbits (sigCfg m o r) 9 8
def sigAction (m : WordMap) (o r : Nat) : Nat := nbits (sigCfg m o r) 13 12
def sigTap (m : WordMap) (o r : Nat) : Bool := nbit (sigCfg m o r) 16
def sigFreeze (m : WordMap) (o r : Nat) : Nat := nbits (sigCfg m o r) 31 24
def sigExpect (m : WordMap) (o r : Nat) : Nat := m.nat (aSig o r + 12)

/-- The signature of a rectangle over the values of channels or components (R397). -/
def rectSignature (m : WordMap) (o r : Nat) (value : Nat → Nat → Nat → Nat) : Nat :=
  crc32 ((List.range (sigH m o r)).flatMap fun dy => (List.range (sigW m o r)).flatMap fun dx =>
    ((List.range 6).filter fun c => nbit (sigCfg m o r) c).flatMap fun c => leBytes 2 (value c (sigX0 m o r + dx) (sigY0 m o r + dy)))

def State.modSig (s : State) (o : Nat) (f : SigState → SigState) : State := s.modGuard fun g => { g with sigs := upd g.sigs o f }

/-- One rectangle is judged at the end of a frame's encoding (R398, R399): its signature is stored, and its ACTION is
answered when it mismatches. -/
def judgeRect (s : State) (m : WordMap) (o r sig : Nat) (still : Bool) : State × Option Nat :=
  let x := nth s.guard.sigs o {}
  let same := if nth x.seen r false && nth x.last r 0 == sig then nth x.same r 0 + 1 else 0
  let mode := sigMode m o r
  let bad := (mode == 1 && sig != sigExpect m o r) || (mode == 3 && !still && decide (sigFreeze m o r ≤ same) && decide (0 < same))
  let s1 := s.modSig o fun y => { y with
    last := listSet y.last r sig, seen := listSet y.seen r true, same := listSet y.same r same,
    judged := if mode ≠ 3 ∨ !still then y.judged + 2 ^ r else y.judged,
    mismatch := if bad then y.mismatch + 2 ^ r else y.mismatch }
  if !bad then (s1, none)
  else
    let a := sigAction m o r
    let s2 := if a = 3 ∧ !hasSource s1 6 then noteRaised s1 0x0F01 (16 * o + r) else s1
    if a = 3 then (tripEvent s2 6 (guardData o r sig) .internal, some 3)
    else (raiseLimited s1 0x0F01 (16 * o + r) (guardData o r sig) oneSecond .internal, some a)

/-- The rectangles of a frame are judged when its encoding completes (R399); one that is off computes nothing, so that the next
frame has no signature to compare with (R398); the highest ACTION of those that mismatch. -/
def judgeRects (s : State) (m : WordMap) (o : Nat) (out canvas : Nat → Nat → Nat → Nat) (still : Bool) : State × Option Nat :=
  let s0 := s.modSig o fun y => { y with
    judged := 0, mismatch := 0, seen := y.seen.zipIdx.map fun e => e.1 && sigMode m o e.2 != 0 }
  (List.range 16).foldl (fun (a : State × Option Nat) r =>
    if sigMode m o r = 0 then a
    else
      let sig := rectSignature m o r (if sigTap m o r then canvas else out)
      let (s1, act) := judgeRect a.1 m o r sig still
      (s1, match a.2, act with | some p, some q => some (max p q) | none, q => q | p, none => p)) (s0, none)

/-! ### Interlocks and QUENCH_N (R403, R404) -/

def ilkAntivalent (m : WordMap) : Bool := m.bit 0xF0008 31
def holdMs (m : WordMap) : Nat := m.fld 0xF0008 15 0
/-- Whether the filtered levels read safe on channel A and on channel B (R403). -/
def ilkReads (m : WordMap) (a b : Bool) : Bool × Bool := (a, if ilkAntivalent m then !b else b)
/-- Whether the interlock is safe. -/
def ilkSafe (s : State) : Bool := let r := ilkReads (s.rt 4) s.guard.ilkA s.guard.ilkB; r.1 && r.2

/-- A filtered interlock input changes (R403): an unsafe reading trips with source ILK; DISC clears once both channels have
read unsafe together and then safe together. -/
def execIlkInputChange (a b : Bool) (s : State) : Host.Outcome State Fault Refusal :=
  let old := ilkReads (s.rt 4) s.guard.ilkA s.guard.ilkB
  let new := ilkReads (s.rt 4) a b
  let safe := new.1 && new.2
  let fell := (old.1 && !new.1) || (old.2 && !new.2)
  let s1 := s.modGuard fun g => { g with
    ilkA := a, ilkB := b,
    safeSince := if safe then some (g.safeSince.getD s.tb.tick) else none,
    diffSince := if new.1 != new.2 then some (g.diffSince.getD s.tb.tick) else none,
    disc := g.disc && !(safe && g.discUnsafe),
    discUnsafe := g.disc && !safe && (g.discUnsafe || (!new.1 && !new.2)),
    trips := if fell then satAdd 0xFFFF g.trips 1 else g.trips }
  let s2 := s1.modMode fun x => { x with ilkSinceStep1 := x.ilkSinceStep1 && a == s.guard.ilkA && b == s.guard.ilkB }
  if safe then .next s2 else .next (tripEvent s2 0 0 .internal)

/-- The interlock is judged afresh when ILK_CFG comes into force with another antivalence (R403); in Dawn, at its end. -/
def judgeIlk (s : State) : State :=
  let safe := ilkSafe s
  let r := ilkReads (s.rt 4) s.guard.ilkA s.guard.ilkB
  let s1 := s.modGuard fun g => { g with
    safeSince := if safe then some (g.safeSince.getD s.tb.tick) else none,
    diffSince := if r.1 != r.2 then some (g.diffSince.getD s.tb.tick) else none }
  if safe || s.mode.dev == 0 then s1 else tripEvent s1 0 0 .internal

/-- The two channels have disagreed for 100 ms (R403). -/
def execIlkDiscrepancy (s : State) : Host.Outcome State Fault Refusal :=
  let r := ilkReads (s.rt 4) s.guard.ilkA s.guard.ilkB
  let long := match s.guard.diffSince with | some t => decide (t + 40000000 ≤ s.tb.tick) | none => false
  if r.1 = r.2 ∨ !long then .next s
  else .next (tripEvent (s.modGuard fun g => { g with disc := true, discUnsafe := false }) 1 0x100 .internal)

/-- Whether the device drives QUENCH_N low: the latch holds a source other than EXT (R404). -/
def drivesQuenchN (s : State) : Bool := s.aod.latch && decide (s.aod.sources - (if nbit s.aod.sources 7 then 128 else 0) ≠ 0)

/-- QUENCH_N, filtered for 100 ns (R404). -/
def execQuenchNInput (low : Bool) (s : State) : Host.Outcome State Fault Refusal :=
  let s1 := s.modGuard fun g => { g with qnLow := low, qnHighSince := if low then none else some (g.qnHighSince.getD s.tb.tick) }
  if low && (s.rt 4).bit 0xF0008 28 && !drivesQuenchN s then .next (tripEvent s1 7 0x700 .internal) else .next s1

/-- The core is lost (R406, R486, R491): outside Dawn a trip with source CORE_LOST and class D; the event log stops with
the core. -/
def loseCore (s : State) : State :=
  let s1 := (s.modGuard fun g => { g with heartbeat := false }).modMode fun x => { x with core := false }
  if s.mode.dev = 0 then s1 else haltResponse (trip s1 10) 0x0F14

/-- GUARD_CMD with QUENCH = 1 (R406), by a path with the QUENCH role. -/
def execGuardCmdQuench (path : PathId) (s : State) : Host.Outcome State Fault Refusal :=
  .next (withRole s path 4 0xF0004 fun s => tripEvent s 8 0x800 path)

/-- VCORE below 0.60 V for 100 ns, or no core heartbeat for 10 µs (R406). -/
def execCoreLost (vcoreLow : Bool) (s : State) : Host.Outcome State Fault Refusal :=
  .next (loseCore (if vcoreLow then s.modMode fun x => { x with rails := listSet x.rails 1 false } else s))

/-! ### Release (R410 to R412) -/

/-- The interlock has been safe for HOLD ms (R410). -/
def ilkHeld (s : State) : Bool :=
  match s.guard.safeSince with
  | some t => ilkSafe s && decide (t + holdMs (s.rt 4) * 400000 ≤ s.tb.tick)
  | none => false

/-- Whether a HALT threshold of class C still stands (R410): its clear event has not been recorded. -/
def classCStands (s : State) : Bool := s.therm.halt.entered || s.therm.exts.any (·.halt.entered)

/-- Whether an output needs a resident zone mask (DEDUCED: one with a partition, notes/assumptions/27.md). -/
def zonesMissing (s : State) : Bool := outputs.any fun o => fsSize s.act o != 0 && !(nth s.guard.zones o {}).resident

/-- The first source that blocks a release (R410). -/
def blockingSource (s : State) : Option Nat :=
  ([(0, !ilkHeld s), (1, s.guard.disc), (2, s.guard.beam.any (· != 0)), (5, zonesMissing s), (7, hasSource s 7 && s.guard.qnLow),
    (9, decide (s.aod.cls = 3) || (decide (s.aod.cls = 2) && classCStands s)), (10, !(s.guard.heartbeat && s.mode.core)),
    (11, decide (s.mode.dev = 0))] : List (Nat × Bool)).find? (·.2) |>.map (·.1)

/-- The DATA of a Quench release record (R467). -/
def releaseData (s : State) (refused blocking : Nat) : List Byte :=
  leBytes 1 refused ++ leBytes 2 s.aod.sources ++ leBytes 1 s.aod.first ++ leBytes 1 blocking ++ leBytes 1 s.aod.cls

/-- The latch is released (R410): SOURCES and HALT clear, QUENCH_RELEASED is raised and journalled. -/
def releaseLatch (s : State) (path : PathId) : State :=
  let data := releaseData s 0 0
  let s1 := s.modAod fun a => { a with latch := false, sources := 0, halt := false, cls := 0 }
  afterRelease (journalKind (raiseP s1 0x0F15 (s.aod.first * 2 ^ 8) path) 5 path data 0)

/-- A release that is refused (R410). -/
def refuseRelease (s : State) (blocking : Nat) (path : PathId) : State :=
  journalKind (raiseP s 0x0F16 (blocking * 2 ^ 8) path) 5 path (releaseData s 1 blocking) 0

/-- A release request (R410); with the latch clear there is nothing to release. -/
def requestRelease (s : State) (path : PathId) : State :=
  if !s.aod.latch then s
  else match blockingSource s with
    | none => releaseLatch s path
    | some b => refuseRelease s b path

/-- GUARD_CMD with RELEASE = 1 (R410), by a path with the RELEASE role. -/
def execGuardCmdRelease (path : PathId) (s : State) : Host.Outcome State Fault Refusal :=
  .next (withRole s path 5 0xF0004 fun s => requestRelease s path)

/-- QUENCH_N has been high for HOLD ms (R411). -/
def qnHeld (s : State) : Bool :=
  match s.guard.qnHighSince with
  | some t => !s.guard.qnLow && decide (t + holdMs (s.rt 4) * 400000 ≤ s.tb.tick)
  | none => false

/-- HOLD ms of safety have passed with AUTO_ILK or AUTO_EXT (R411). -/
def execQuenchAutoRelease (s : State) : Host.Outcome State Fault Refusal :=
  let m := s.rt 4
  let byIlk := m.bit 0xF0008 30 && decide (s.aod.sources = 1) && ilkHeld s && !s.guard.disc
  let byExt := m.bit 0xF0008 29 && decide (s.aod.sources = 128) && qnHeld s
  if s.aod.latch && (byIlk || byExt) then .next (releaseLatch s .internal) else .next s

/-! ### Checks (R416) -/

/-- The channels a rectangle may name: those of every resident program's plane set, or those of the layout (R416). -/
def sigChannels (m : WordMap) (o : Nat) : Nat :=
  if isScan m o then fsChannels m o else ((residents m o).map fun p => psNchan m o (progPlaneSet m o p)).foldl min 6

/-- The checks of R416 on one output; `zone` is the size its resident mask was built for, where the check applies. -/
def guardChecks (m : WordMap) (o : Nat) (zone : Option (Nat × Nat)) : Option Nat :=
  let rects := List.range 16
  let on := rects.filter fun r => sigMode m o r != 0
  if rects.any fun r => nbits (sigCfg m o r) 23 17 != 0 || nbits (sigCfg m o r) 15 14 != 0 || nbits (sigCfg m o r) 11 10 != 0
      || nbits (sigCfg m o r) 7 6 != 0 then some 1
  else if on.any fun r => !decide (1 ≤ sigW m o r ∧ 1 ≤ sigH m o r ∧ sigX0 m o r + sigW m o r ≤ fsWidth m o ∧ sigY0 m o r + sigH m o r ≤ fsHeight m o) then some 2
  else if on.any fun r => !decide (1 ≤ nbits (sigCfg m o r) 5 0 ∧ nbits (sigCfg m o r) 5 0 < 2 ^ (if sigTap m o r then 3 else sigChannels m o)) then some 3
  else if on.any fun r => sigMode m o r == 3 && sigFreeze m o r == 0 then some 4
  else match zone with
    | some (w, h) => if w = fsWidth m o ∧ h = fsHeight m o then none else some 5
    | none => none

end Sys2Proof.Machine
end

