-- ==== Sys2Proof/Machine/Drive.lean ====
section
/-! DEFINITION. The light drive: amplitude and single-string events, the optical loop and the photodiodes, diagnosis, light
groups, lamp boards, the domain scale and start pacing (R93 to R127). -/
namespace Sys2Proof.Machine

/-! ### Strings and their settings -/

/-- The enabled strings of a light group (R117). -/
def groupMembers (s : State) (g : Nat) : List Nat := (List.range 24).filter fun nn => (strHome s nn).isSome && strGroup (strCfg s nn) nn == g
/-- DIAG_MIN and PROBE_I. -/
def diagMin (m : WordMap) : Nat := m.fld 0xC0800 15 0
def probeI (m : WordMap) : Nat := m.fld 0xC0800 31 16
/-- The data field of a DRIVE event (R127). -/
def driveData (who value : Nat) : Nat := who + value % 2 ^ 32 * 2 ^ 32

/-! ### Commands (R104) -/

/-- One string of a channel takes its command for the channel's amplitude (R98, R104); one held by a single-string event
keeps it (R120). -/
def recommand (s : State) (o c nn : Nat) : State :=
  let x := s.strAt nn
  if x.holdCur.isSome then s
  else
    let m := s.rt o
    let r := if chanAmp s o c = 0 ∨ ¬ liveString m s.drive nn then (0, false) else stringCommand m s.drive o c nn (chanAmp s o c)
    commandString s nn r.1 r.2

/-- Every string of a channel takes its command (R104). -/
def recommandChan (s : State) (o c : Nat) : State := (chanStrings (s.rt o) o c).foldl (fun s nn => recommand s o c nn) s

/-- S_dom of every domain, and the channel that set it (R105). -/
def recomputeDom (s : State) : State :=
  let r := fun dom => domainLimit s.rt s.drive dom
  s.modDrive fun d => { d with
    sDom := [(r 0).1, (r 1).1, (r 2).1, (r 3).1]
    limitChan := outputs.map fun o => match (r (domainOf (s.rt o) o)).2 with
      | some (p, c) => if p = o then c else 0
      | none => 0 }

/-- The live set, a flux or a cap of a group has changed (R110, R116, R117): its channels are held and commanded again, and
S_dom is computed again. -/
def liveChange (s : State) (g : Nat) : State :=
  let s1 := (groupMembers s g).foldl (fun s nn => match strHome s nn with
    | some o => let c := strChan (s.rt o) nn; recommandChan (holdLoop s o c) o c
    | none => s) s
  recomputeDom s1

/-! ### The optical loop (R108 to R113) -/

/-- One sample of a channel's loop (R109). -/
def loopSample (s : State) (o c : Nat) : State :=
  match loopReading s o c with
  | none => s
  | some (e, p) =>
    if loopHeld s o c then s
    else
      let (x, cl) := loopStep (s.rt o) o (chanOf s.drive o c) ((e - p) / e)
      let s1 := recommandChan (s.modChan o c fun _ => x) o c
      if cl then raiseLimited s1 0x0C05 (chanIdx o c) (driveData o (wrapInt 32 p.floor)) oneSecond .internal else s1

/-- What a photodiode is expected to read: e_p over the channels it sees (R104, R113). -/
def pdExpected (s : State) (o k : Nat) : Rat :=
  sumRat (fun c => if pdSees (s.rt o) o c k then expectedReading (s.rt o) s.drive o c k (chanAmp s o c) else 0) (List.range 6)

/-- Since when a photodiode has read as the two cases of R113 ask, with the sample `code`. -/
def pdWatch (s : State) (o k code : Nat) (x : PdState) : PdState :=
  let e := pdExpected s o k
  let keep := fun (b : Bool) (t : Option Nat) => if b then some (t.getD s.tb.tick) else none
  { x with
    satSince := keep (decide (65280 ≤ code ∧ e < 32768)) x.satSince
    dimSince := keep (decide (((code : Int) - x.dark).natAbs ≤ 16 ∧ 4096 ≤ e)) x.dimSince }

/-- A sample enters the mean of the last 10 and, more than 1 µs into a dark interval, the dark level, which takes the
interval's mean once it has lasted 2 µs (R112, R126). -/
def pdTake (s : State) (k code : Nat) : State :=
  let o := (s.rt 4).fld (aPdMap k) 25 24
  let since := nth s.drive.darkSince o none
  s.modPd k fun x =>
    let r := (code :: x.recent).take 10
    let y := { pdWatch s o k code x with recent := r, last := r.sum / r.length }
    match since with
    | none => y
    | some t =>
      if s.tb.tick ≤ t + 400 then y
      else
        let sum := x.darkSum + code
        let n := x.darkN + 1
        { y with darkSum := sum, darkN := n, dark := if t + 800 ≤ s.tb.tick then roundDiv sum n else x.dark }

/-- The sense code of a current fraction (R93). -/
def senseOf (cmd : Nat) : Rat := 3276 * (cmd : Rat) / 65535

/-- Whether the sensed currents of the live strings that a photodiode sees are within 5 % of their commands (R113). -/
def currentsFlow (s : State) (o k : Nat) (senses : List Nat) : Bool :=
  (List.range 24).all fun nn =>
    let e := senseOf (s.strAt nn).cmd
    !(liveString (s.rt o) s.drive nn && strOut (s.rt o) nn == o && pdSees (s.rt 4) o (strChan (s.rt o) nn) k)
      || decide (20 * ((nth senses nn 0 : Rat) - e) ≤ e ∧ 20 * (e - (nth senses nn 0 : Rat)) ≤ e)

/-- A photodiode has read for 10 µs what R113 names, with the sensed currents of the strings at the end: it is faulted and leaves the
loop. -/
def execPdFault (k : Nat) (r : PdReading) (s : State) : Host.Outcome State Fault Refusal :=
  let x := nth s.drive.pds k {}
  let o := (s.rt 4).fld (aPdMap k) 25 24
  let since := fun (t : Option Nat) => match t with | some t => decide (t + 4000 ≤ s.tb.tick) | none => false
  if x.faulted || !(s.rt 4).bit (aPdMap k) 31 || !(since x.satSince || (since x.dimSince && currentsFlow s o k r.senses)) then .next s
  else .next (raise (s.modPd k fun x => { x with faulted := true }) 0x0C0F (driveData k r.code))

/-- Writing 1 to bits of PD_FAULT returns their photodiodes to the loop (R113). -/
def execPdFaultClear (path : PathId) (v : Word) (s : State) : Host.Outcome State Fault Refusal :=
  .next (withRole s path 1 0xC0480 fun s =>
    (List.range 8).foldl (fun s k => if nbit v.toNat k then s.modPd k fun x => { x with faulted := false } else s) s)

/-! ### Amplitude and single-string events (R71, R104, R109, R120) -/

/-- The amplitude group of a channel opens at amplitude `A`: k_c is loaded from its bin (R109). -/
def openGroup (s : State) (o c A : Nat) : State :=
  if A = 0 then s else s.modChan o c fun x => { x with bin := ampBin A, k := nth x.bins (ampBin A) 1, eps := 0 }

/-- An amplitude event of channel `c` (class 0x1). -/
def applyAmplitude (s : State) (o c A : Nat) : State :=
  let s1 := openGroup (closeGroup s o c) o c A
  let s2 := (holdLoop s1 o c).modSeq o fun q => { q with amp := listSet q.amp c A }
  noteDark (recommandChan s2 o c) o

/-- A single-string event (class 0x2, R120): MODE 0 releases, 1 probes, 2 holds; MODE 3 is reserved and changes no string. The channel's
loop is held in every case (R110). -/
def applySingle (s : State) (o nn payload : Nat) : State :=
  let m := s.rt o
  let cur := nbits payload 15 0
  let mode := nbits payload 17 16
  if ¬ strEnabled m nn ∨ strOut m nn ≠ o then s
  else
    let s1 := holdLoop s o (strChan m nn)
    if mode = 0 then noteDark (s1.modStr nn fun x => { stringDark x with holdCur := none, probe := none }) o
    else if mode ≠ 3 ∧ liveString m s.drive nn then
      noteDark ((commandString s1 nn cur false).modStr nn fun x => { x with holdCur := some cur, probe := if mode = 1 then some cur else none }) o
    else s1

/-! ### Failures and light groups (R115 to R117) -/

/-- The outputs whose strings run: shown or being entered, with the latch clear. -/
def lights (s : State) (o : Nat) : Bool := !s.aod.latch && (isLit s o || (s.outAt o).entry.isSome)

/-- A string that is clear of failure re-enters through start pacing when its output runs (R116, R122). -/
def reenter (s : State) (nn : Nat) : State :=
  match strHome s nn with
  | none => s
  | some o => if lights s o then enqueue (s.rt o) s nn else s

/-- A darkened ALL_OR_NONE group returns once every string in it is clear of failure (R117). -/
def groupReturn (s : State) (g : Nat) : State :=
  let ms := groupMembers s g
  if ms.any fun nn => (s.strAt nn).failed then s
  else liveChange (ms.foldl (fun s nn =>
    if (s.strAt nn).cause = 6 then reenter (s.modStr nn fun x => { x with cause := 0 }) nn else s) s) g

/-- A string of a group with policy `pol` and members `ms` fails with a cause: command 0, its stage off, and the policy at once (R116,
R117). LG_OFF and LG_COMP name the string and the value that failed it (R127; 0 where none was measured, notes/assumptions/117.md). -/
def failAmong (pol g : Nat) (ms : List Nat) (s : State) (nn cause value : Nat) : State :=
  if (s.strAt nn).failed then s
  else
    let was := ms.any fun t => (s.strAt t).cause == 6
    let s1 := (offString s nn).modStr nn fun x => { x with failed := true, cause := cause }
    let s2 := if pol = 0 then
        ms.foldl (fun s t => if (s.strAt t).failed then s
          else s.modStr t fun x => { stringDark x with cause := 6, holdCur := none, probe := none }) s1
      else s1
    let s3 := liveChange s2 g
    if pol = 0 ∧ ¬ was then raise s3 0x0C07 (driveData nn value) else if pol = 1 then raise s3 0x0C08 (driveData nn value) else s3

/-- A string fails with a cause, under the policy in force for its group (R116, R117). -/
def failString (s : State) (nn cause value : Nat) : State :=
  let g := strGroup (strCfg s nn) nn
  failAmong (groupPolicy (s.rt 4) g) g (groupMembers s g) s nn cause value

/-- The failure of a string ends. -/
def clearString (s : State) (nn : Nat) : State :=
  let s1 := reenter (s.modStr nn fun x => { x with failed := false, cause := 0 }) nn
  groupReturn s1 (strGroup (strCfg s1 nn) nn)

/-- VESPER_RESULT: string and outcome (R121); the manual does not place the outcome: bits 15:8 (notes/assumptions/29.md),
with the causes of R126 for a failure, 8 for a lamp short and 9 for no window. -/
def vesper (s : State) (nn outcome : Nat) : State := raise s 0x0C0D (nn + outcome * 2 ^ 8)

/-- The outcome of a window's tests (R115): 1 open, 2 short, 8 lamp short, 0 passed. `iAvg` is the mean sense code, `vStr` V_STR in
10 mV, `vk` the mean VK in mV, `learned` V_learned's windows. -/
def windowOutcome (x : StringState) (hrTarget iAvg vStr vk : Nat) (learned : List Nat) : Nat :=
  if iAvg * 65535 * 4 < x.cmd * 3276 ∧ vk < 5 * hrTarget then 1
  else if 40 * vStr < x.volts then 2
  else if learned ≠ [] ∧ x.lamps ≠ 0 ∧ ((6 : Rat) / 10 * x.volts / x.lamps < ((learned.sum : Rat) / learned.length - vStr) * 10) then 8
  else 0

/-- The mean of samples, rounded down. -/
def meanOf (l : List Nat) : Nat := l.sum / l.length
/-- The samples of a window's last 680 ticks (R114) at one sample every `every` ticks, the first at the window's start. -/
def lateSamples (every : Nat) (l : List Nat) : List Nat := l.drop (ceilDiv 120 every)

/-- HR_TARGET in mV. -/
def headroomTarget (m : WordMap) (nn : Nat) : Nat := 10 * m.fld (aStrSw nn) 23 16

/-- Headroom control (R96): with the lowest VK among the samples not older than `span` ticks, the set point moves by what brings that
VK to HR_TARGET. The duty that gives the set point depends on the stage outside the part: a free value within its room
(notes/assumptions/118.md). -/
def adjustHeadroom (s : State) (nn span : Nat) : State :=
  let x := s.strAt nn
  match x.vks.filter fun e => s.tb.tick ≤ e.1 + span with
  | [] => s.modStr nn fun y => { y with vks := [] }
  | e :: l =>
    let low := l.foldl (fun a v => min a v.2) e.2
    let (v, s1) := s.draw 9
    s1.modStr nn fun y => { y with
      vks := e :: l, setPoint := max 0 (y.setPoint + headroomTarget (strCfg s nn) nn - low), duty := v % (dutyRoom (strCfg s nn) nn + 1) }

/-- The ticks of a frame of an output as its length stands. -/
def frameTicks (s : State) (o : Nat) : Nat := ceilDiv (s.tgAt o).len (25 * (s.tgAt o).den)

/-- A measurement window of a string ends (R114, R115): the sense codes at 80 MS/s and the VHR and VK readings in mV at 5 MS/s of its
800 ticks, in which the command was constant and unclamped. V_STR is VHR × VDIV − VK. -/
def execMeasurementWindowEnd (nn : Nat) (isns vhr vk : List Nat) (s : State) : Host.Outcome State Fault Refusal :=
  let m := strCfg s nn
  let x := s.strAt nn
  if !liveString m s.drive nn || decide (x.cmd < diagMin (s.rt 4)) || x.clamped || x.cmd == 0 || decide (s.tb.tick < x.cmdAt + 800)
      || (x.holdCur.isSome && x.probe.isNone) then .next s
  else
    let o := strOut m nn
    let iAvg := meanOf (lateSamples 5 isns)
    let vkMean := meanOf (lateSamples 80 vk)
    let vStr := (meanOf (lateSamples 80 vhr) * m.fld (aStrSw nn) 31 24 - vkMean) / 10
    let b := match x.probe with | some cur => ampBin cur | none => ampBin (chanAmp s o (strChan m nn))
    let learned := nth x.learned b []
    let r := windowOutcome x (m.fld (aStrSw nn) 23 16) iAvg vStr vkMean learned
    let ok := r = 0 ∨ r = 8
    let (trim, s0) := s.draw 10
    let s1 := s0.modStr nn fun y => { y with
      iAvg := iAvg, vStr := vStr, windowDone := true, lowDuty := 0, trim := trim % 2 ^ 14
      vks := (s.tb.tick, vk.foldl min (vk.headD 0)) :: y.vks
      learned := if ok ∧ y.probe.isNone then listSet y.learned b ((vStr :: learned).take 16) else y.learned
      probePending := y.probePending && !(ok && y.probe.isSome), pendFrames := if ok ∧ y.probe.isSome then 0 else y.pendFrames
      lampShorts := if r = 8 then satAdd 255 y.lampShorts 1 else y.lampShorts
      flux := if r = 8 then max 0 (y.flux - y.weightFlux / y.lamps) else y.flux }
    let s2 := if r = 1 then failString (raise s1 0x0C01 (driveData nn iAvg)) nn 1 iAvg
              else if r = 2 then failString (raise s1 0x0C02 (driveData nn vStr)) nn 2 vStr
              else if r = 8 then raise (liveChange s1 (strGroup m nn)) 0x0C03 (driveData nn vStr) else s1
    let s3 := if (s.tgAt o).running then s2 else adjustHeadroom s2 nn 4000000
    .next (if x.probe.isSome then vesper s3 nn r else s3)

/-- The sensed current exceeded the command by 10 % of I_FS for 400 ticks (R115). -/
def execStringOvercurrent (nn sense : Nat) (s : State) : Host.Outcome State Fault Refusal :=
  if liveString (strCfg s nn) s.drive nn ∧ senseOf (s.strAt nn).cmd + 3276 / 10 < sense then
    .next (failString (raise s 0x0C04 (driveData nn sense)) nn 3 sense)
  else .next s

/-- A string over its limit (R406): a trip; the string fails with cause 3 (R413). -/
def overlimit (s : State) (nn sense : Nat) : State :=
  failString (tripEvent s 3 (guardData ((strHome s nn).getD 0) nn sense) .internal) nn 3 sense

/-- The sensed current exceeded 125 % of I_FS in 4 samples (R406). -/
def execStringOverlimit (nn sense : Nat) (s : State) : Host.Outcome State Fault Refusal := .next (overlimit s nn sense)

/-- The two lanes of a string's command disagree (R402): the command is never applied, and the mismatch is counted with CLASS 0xF. -/
def laneTrip (s : State) (nn : Nat) : State :=
  let o := (strHome s nn).getD 0
  tripEvent (s.modGuard fun g => { g with twinCount := satAdd 0xFFFF g.twinCount 1, twinCls := 15, twinOut := o, twinIdx := nn })
    4 (guardData o nn 0) .internal

/-- A trip of any source (R406). OVERLIMIT and the command lanes of TWIN concern its string, with the code sensed; CORE_LOST is
the loss of the core; the HALT and DAWN sources raise no event of their own. -/
def execQuenchTrip (c : TripCause) (s : State) : Host.Outcome State Fault Refusal :=
  .next (match c.src.val with
    | 3 => overlimit s c.string c.sense
    | 4 => laneTrip s c.string
    | 10 => loseCore s
    | src => tripEvent s src (src * 2 ^ 8) .internal)

/-- A write of 1 to FAILED clears causes 1, 2, 3 and 7 (R116). -/
def execStringFailClear (path : PathId) (nn : Nat) (s : State) : Host.Outcome State Fault Refusal :=
  .next (withRole s path 1 (0xC010C + 0x20 * nn) fun s =>
    let x := s.strAt nn
    if x.failed && (x.cause == 1 || x.cause == 2 || x.cause == 3 || x.cause == 7) then clearString s nn else s)

/-- VK, in mV, has stayed below HR_TARGET / 2 for 1 µs while current flows (R96): the stage's set point rises by 10 %. -/
def execHeadroomLow (nn vk : Nat) (s : State) : Host.Outcome State Fault Refusal :=
  if (s.strAt nn).cmd = 0 ∨ headroomTarget (strCfg s nn) nn ≤ 2 * vk then .next s
  else .next (raiseLimited (s.modStr nn fun x => { x with setPoint := x.setPoint * 11 / 10 }) 0x0C06 nn (driveData nn vk) oneSecond .internal)

/-! ### Lamp boards (R99 to R102, R107) -/

/-- The input that TSRC names (R107). -/
def boardInput (m : WordMap) (b : Nat) : Nat := m.fld (aLbCfg b) 10 8 + (if m.bit (aLbCfg b) 12 then 6 else 0)

/-- A board passes TRIP: its strings fail with cause 4 and LAMP_HOT is raised (R107). -/
def boardHot (s : State) (b : Nat) : State :=
  let mine := (List.range 24).filter fun nn => (strHome s nn).isSome && strBoard (strCfg s nn) nn == b
  let t := wrapInt 32 (nth s.drive.boards b {}).temp
  raise (mine.foldl (fun s nn => failString s nn 4 t) s) 0x0C0A (driveData b t)

/-- A board has cooled: its strings with cause 4 re-enter (R107, R116). -/
def boardCool (s : State) (b : Nat) : State :=
  ((List.range 24).filter fun nn => strBoard (strCfg s nn) nn == b && (s.strAt nn).cause == 4 && (s.strAt nn).failed).foldl
    (fun s nn => clearString s nn) s

/-- The caps of a board act at once (R105): every channel with one of its strings is commanded again. -/
def capChange (s : State) (b : Nat) : State :=
  recomputeDom (((List.range 24).filter fun nn => strBoard (strCfg s nn) nn == b).foldl (fun s nn => match strHome s nn with
    | some o => recommandChan s o (strChan (s.rt o) nn)
    | none => s) s)

/-- A lamp board's temperature is brought up to date (R107): the cap, DERATE and TRIP. A failed input holds the cap at DMIN
(R354). -/
def execLampBoardTempUpdate (b : Nat) (s : State) : Host.Outcome State Fault Refusal :=
  let m := s.rt 4
  if !m.bit (aLbCfg b) 31 then .next s
  else
    let e := nth s.therm.exts (boardInput m b) {}
    let old := nth s.drive.boards b {}
    let d := if e.st = 1 then derateOf m b e.mean else m.fld (aLbDerate b) 15 8 * 128
    let trip := 8 * (m.fld (aLbDerate b) 7 0 : Int)
    let (t, change) := old.trip.judge s.tb.tick (decide (trip ≤ e.mean)) (decide (e.mean < trip - 32))
    let s1 := noteTemp (s.modDrive fun x => { x with boards := listSet x.boards b { old with temp := e.mean, d := d, trip := t } }) b e.mean
    let s2 := if d = old.d then s1 else capChange s1 b
    let moved := ((d : Int) - (old.d : Int)).natAbs
    let s3 := if 0x8000 < 100 * moved then raiseLimited s2 0x0C09 b (driveData b (wrapInt 32 e.mean)) oneSecond .internal else s2
    .next (if change && t.entered then boardHot s3 b else if change then boardCool s3 b else s3)

/-- Whether the calibration block in force holds values for a string (R102, R390): the EFFICIENCY section. -/
def calHas (blk : List Byte) (nn : Nat) : Bool :=
  blk.length != 0 && nbit (leNat ((blk.drop 20).take 2)) 3 && leNat ((blk.drop (192 + 272 * nn + 8)).take 4) != 0

/-- The derived values of a string (R100), replaced by the block's where it records the same board (R102). -/
def deriveOne (m : WordMap) (blk : List Byte) (bd : BoardState) (nn : Nat) (x : StringState) : StringState :=
  let y := deriveString m bd nn x
  let y := { y with calWl := 300 + y.wl0 / 100, learned := List.replicate 8 [] }
  let r := blk.drop (192 + 272 * nn)
  if calHas blk nn && leNat (r.take 8) == bd.serial then
    (let f : Rat := leNat ((r.drop 8).take 4)
     let l : Rat := leNat ((r.drop 12).take 2)
     { y with flux := f, weightFlux := f, wl0 := l, calWl := 300 + l / 100,
              tRef := signedOf 16 (leNat ((r.drop 14).take 2)),
              learned := [leNat ((r.drop 16).take 2)] :: List.replicate 7 [] })
  else y

/-- One string takes its values from its board and the calibration block (R100 to R102) with settings `m`; without a valid record it
fails with cause 5, under its group's policy (R101). -/
def deriveSlot (m : WordMap) (s : State) (nn : Nat) : State :=
  if !strEnabled m nn then s
  else
    let bd := nth s.drive.boards (strBoard m nn) {}
    let g := strGroup m nn
    if bd.eeprom = 1 then
      (let live := liveString m s.drive nn
       let s1 := if live then holdLoop s (strOut m nn) (strChan m nn) else s
       s1.modStr nn fun x => deriveOne m s.ann.block bd nn x)
    else if bd.eeprom = 0 then s
    else failAmong (groupPolicy m g) g ((List.range 24).filter fun t => strEnabled m t && strGroup m t == g) s nn 5 0

/-- The strings that settings `m` map to an output otherwise than `old` did take their values anew (R100, R252). -/
def deriveChanged (s : State) (o : Nat) (old m : WordMap) : State :=
  let mine := (outStrings m o).filter fun nn => m.nat (aStrMap nn) != old.nat (aStrMap nn)
  if mine.isEmpty then s else recomputeDom (mine.foldl (deriveSlot m) s)

/-- The events of the boards' records at Dawn (R100 to R102): foreign strings, bad records, changed serials. -/
def boardEvents (s : State) (b : Nat) : State :=
  let m := s.act
  let bd := nth s.drive.boards b {}
  if bd.eeprom = 0 then s
  else if bd.eeprom ≠ 1 then raiseSev s 0x0C0B 1 (driveData b 0) .internal
  else
    let foreign := bd.lamps.any fun x => strBoard m x.string != b
    let changed := (List.range 24).any fun nn => strEnabled m nn && strBoard m nn == b && calHas s.ann.block nn
      && leNat ((s.ann.block.drop (192 + 272 * nn)).take 8) != bd.serial
    let s1 := if foreign then raiseSev s 0x0C0B 0 (driveData b 0) .internal else s
    if changed then raise s1 0x0C0C (driveData b 0) else s1

/-- Only a PRESENT board is read (R99, R474). -/
def presentBoards (s : State) : State :=
  s.modDrive fun d => { d with boards := (List.range 6).map fun b => if s.act.bit (aLbCfg b) 31 then nth d.boards b {} else {} }

/-- Dawn takes the boards' records and the calibration block into use (R99 to R102). -/
def deriveBoards (s : State) : State :=
  recomputeDom ((List.range 6).foldl boardEvents ((List.range 24).foldl (deriveSlot s.act) (presentBoards s)))

/-- The board state that lane L of Dawn leaves (R99, R101); a board that is not PRESENT is not read. -/
def readBoard (present : Bool) (rec_ : Option (List Byte)) : BoardState :=
  if !present then {}
  else match rec_ with
    | none => { eeprom := 3 }
    | some l => match parseBoard l with | some b => b | none => { eeprom := 2 }

/-! ### Frame boundaries (R105, R106, R118) -/

/-- An enabled string counts its frame (R118); 1,024 frames pending report "no window" once. -/
def countDuty (s : State) (nn : Nat) : State :=
  let x := s.strAt nn
  let low := if x.windowDone then x.lowDuty else min 32 (x.lowDuty + 1)
  let pend := x.probePending || decide (32 ≤ low)
  let n := if pend then x.pendFrames + 1 else 0
  let s1 := s.modStr nn fun y => { y with windowDone := false, lowDuty := low, probePending := pend, pendFrames := min n 1025 }
  if n = 1024 then vesper s1 nn 9 else s1

/-- What a frame boundary of an output does to its drive: WF_c and RP_c, S_dom and S, the clamp flags and headroom control over the
last two frames (R96, R105, R106, R126). -/
def boundaryDrive (s : State) (o : Nat) : State :=
  let m := s.rt o
  let s1 := (List.range 6).foldl (fun s c =>
    let g := waveGain m o c (chanDelta m s.drive o c)
    let moved := (chanOf s.drive o c).wf ≠ g.1
    let t := s.modChan o c fun x => { x with wf := g.1, rp := g.2 }
    if moved then holdLoop t o c else t) s
  let s2 := recomputeDom s1
  let old := nth s2.drive.scale o 0x8000
  let new := adoptScale old (nth s2.drive.sDom (domainOf m o) 0x8000)
  let s3 := s2.modDrive fun d => { d with scale := listSet d.scale o new }
  let s4 := (List.range 6).foldl (fun s c => recommandChan (if old ≠ new then holdLoop s o c else s) o c) s3
  let s5 := (outStrings m o).foldl (fun s nn => s.modStr nn fun x => { x with clampLast := x.clampFrame, clampFrame := x.clamped }) s4
  (outStrings m o).foldl (fun s nn => adjustHeadroom s nn (2 * frameTicks s o)) s5

/-- The frame that ends counts for the strings of an output shown in it (R118). -/
def countFrame (s : State) (o : Nat) : State :=
  if isLit s o && !s.aod.latch then (outStrings (s.rt o) o).foldl countDuty s else s

/-! ### Start pacing (R122, R123) -/

def rampMa (s : State) (nn : Nat) : Nat := strRampMa (strCfg s nn) nn
/-- The sum of RAMP_MA of the strings ramping. -/
def rampingMa (s : State) : Nat := ((List.range 24).map fun nn => if (s.strAt nn).st = 2 then rampMa s nn else 0).sum

/-- The conditions of R122 and R372 for a string, the droop apart. -/
def admitReady (s : State) (nn : Nat) : Bool :=
  let m := s.rt 4
  let budget := 10 * m.fld 0xC0804 31 16
  let gap := max (m.fld 0xC0804 7 0) (wakeGap m)
  let others := (List.range 24).any fun t => (s.strAt t).st == 2
  (!others || decide (rampingMa s + rampMa s nn ≤ budget)) && s.therm.pend == 0
    && (match s.drive.lastAdmit with | none => true | some t => decide (t + 400 * gap ≤ s.tb.tick))

/-- The lowest queued string is admitted to ramp when the conditions hold (R122); a droop pauses admissions. Its stage starts at the set
point it last had; the first one, and the duty that gives it, the manual does not state: free values (notes/assumptions/118.md). -/
def execStringAdmit (s : State) : Host.Outcome State Fault Refusal :=
  match (List.range 24).find? fun nn => (s.strAt nn).st == 1 with
  | none => .next s
  | some nn =>
    if s.therm.droop then
      .next (if s.drive.paused then s else raise (s.modDrive fun d => { d with paused := true }) 0x0C0E (driveData nn 0))
    else if admitReady s nn then
      let (v, s0) := s.draw 8
      let (w, s0) := s0.draw 9
      let s1 := s0.modStr nn fun x => { stringDark x with
        st := 2, stageOn := true, admitted := s.tb.tick, setPoint := if x.setPoint = 0 then v else x.setPoint
        duty := w % (dutyRoom (strCfg s nn) nn + 1) }
      .next (s1.modDrive fun d => { d with lastAdmit := some s.tb.tick, paused := false })
    else .next (s.modDrive fun d => { d with paused := false })

/-- A ramping string's VHR is within 5 % of its set point (R122): it is READY and live. -/
def execStringReady (nn : Nat) (s : State) : Host.Outcome State Fault Refusal :=
  if (s.strAt nn).st = 2 then .next (liveChange (s.modStr nn fun x => { x with st := 3 }) (strGroup (strCfg s nn) nn)) else .next s

/-- A string is not READY within 2 × RAMP_TIME of its admission (R123). -/
def execStringRampTimeout (nn : Nat) (s : State) : Host.Outcome State Fault Refusal :=
  if (s.strAt nn).st = 2 then .next (failString s nn 7 0) else .next s

end Sys2Proof.Machine
end

