-- ==== Sys2Proof/Machine/Scan.lean ====
section
/-! DEFINITION. Scan outputs: the fast-axis drive and tracker, the beam watch, the slow axis, the scan engine's samples, the
per-line optical loop and the JESD204 link (R156 to R182). -/
namespace Sys2Proof.Machine

/-! ### Settings by emergence time (R63, R180, R255) -/

/-- Whether two maps agree on some fields. -/
def sameFields (a b : WordMap) (l : List (Nat × Nat)) : Bool := l.all fun f => (a.nat f.1) &&& f.2 == (b.nat f.1) &&& f.2

/-- The fields of an output whose change is a timing-mode change (R255, R63, R180), as addresses and bits. -/
def timingFields (o : Nat) : List (Nat × Nat) := [
  (aTgNum o, 0xFFFFFFFF), (aTgCfg o, 0xFF), (aPortCfg o, 0xFFFFE0FF), (aFsBase o, 0xFFFFFFFF), (aFsSize o, 0xFFFFFFFF),
  (aFsLayout o, 0xFFFFFFFF)]
/-- Those of an output in SCAN (R180). -/
def scanTimingFields (o : Nat) : List (Nat × Nat) := [
  (aFax o, 0xF000FFFF), (aUact o, 0xFFFF), (aVact o, 0x83FFFFFF), (aVtime o, 0xFFFFFFFF), (aVcode o, 0xFFFFFFFF)]
/-- The fields that count for the mode the output shows in. -/
def timingSet (m : WordMap) (o : Nat) : List (Nat × Nat) := timingFields o ++ if isScan m o then scanTimingFields o else []
/-- Whether taking `new` is a timing-mode change for an output that runs with `old` (R255). -/
def timingChange (old new : WordMap) (o : Nat) : Bool := !sameFields old new (timingSet old o)
/-- The map `new` with an output's timing fields kept as in `old`. -/
def keepTiming (old new : WordMap) (o : Nat) : WordMap :=
  (timingSet old o).foldl (fun m f => m.set f.1 (BitVec.ofNat 32 ((m.nat f.1 &&& (0xFFFFFFFF - f.2)) ||| (old.nat f.1 &&& f.2)))) new

/-- The instant of a generator's next frame start, in fine steps. -/
def nextInstant (s : State) (o : Nat) : Nat :=
  let (tick, fine) := posInstant (s.tgAt o) (s.tgAt o).pos
  25 * tick + fine

/-- Whether an instant in fine steps lies in the frame that starts next (R163). -/
def inNext (s : State) (o : Nat) (t : Rat) : Bool := (s.tgAt o).running && decide ((nextInstant s o : Rat) ≤ t)

/-- The settings for a sample that emerges at `t` fine steps (R163, R180): those that the next boundary brings into force for a
sample from that boundary on. -/
def scanMap (s : State) (o : Nat) (t : Rat) : WordMap :=
  let tg := s.tgAt o
  if inNext s o t && tg.ctaken && tg.started then
    (if (s.outAt o).mode = 1 ∧ ¬ (s.outAt o).trans then tg.cfgAtC else keepTiming (s.rt o) tg.cfgAtC o)
  else s.rt o

/-! ### Events of classes 0x3 and 0x4 -/

/-- What a FORCE payload does to a converter (R173): 0 releases, 1 forces blank, 2 forces pass; 3 is reserved and does nothing. -/
def forceOf (old : Option Nat) (payload : Nat) : Option Nat :=
  match nbits payload 1 0 with
  | 0 => none
  | 3 => old
  | f => some f

/-- A class 0x3 event (R173), for one converter or for all. -/
def applyForce (s : State) (o idx payload : Nat) : State :=
  s.modScan o fun x => { x with
    forced := x.forced.mapIdx fun j f => if idx = 0xFF ∨ idx = j then forceOf f payload else f }

/-- RUN of the fast axis (R158, R483): starting sweeps, with a high time of 25 %, with the tracker afresh; stopping idles it, which
ends an exit. -/
def applyRun (s : State) (o run : Nat) : State :=
  let m := s.rt o
  let p := sweepPeriod m o 0
  if run % 2 = 1 then
    s.modScan o fun x => { x with
      fast := 1, driveOn := true, first := true, pHat := 400000000 * 256 / (faxFreq m o : Int)
      sweepAt := s.tb.tick, drvPeriod := p, drvEdge := s.tb.tick * 256, highTime := p / 4, lastCross := 25 * s.tb.tick
      smallErr := 0, bigErr := 0, phaseErrs := 0, lowPeaks := 0 }
  else
    let s1 := s.modScan o fun x => { x with fast := 0, driveOn := false, drvPeriod := 0, slowFire := none }
    if (s1.outAt o).exit = .stopping then reachStandby s1 o else s1

/-- A class 0x4 event (R71): index 0 drives the fast axis, index 1 with PHASE 0 starts the slow axis's ramp at its fire time in fine
steps (R161); the other PHASE values are reserved and do nothing. -/
def applyScanner (s : State) (o idx fire payload : Nat) : State :=
  if idx = 0 then applyRun s o payload
  else if idx = 1 ∧ payload % 4 = 0 then
    (s.modScan o fun x => { x with slowFire := some fire, slowMean := none, slowWindows := 0 }).modOut o fun x => { x with slowFired := x.slowFired + 1 }
  else s

/-! ### The tracker and the beam watch (R158 to R160, R177, R178) -/

/-- SCAN_LOCK_LOST, its data in bits 15:8 (R158, R160, R182). -/
def scanLost (s : State) (o why : Nat) : State := raise s 0x0B11 (o + why * 2 ^ 8)

/-- Whether the beam watch of an output is on: in SCAN, or in STILL on a SCAN output (R177). -/
def watched (s : State) (o : Nat) : Bool := (s.outAt o).mode == 3 || ((s.outAt o).mode == 4 && isScan (s.rt o) o)

/-- The conditions of a beam watch: a watch whose condition begins trips with its event (R178). -/
def beamWatch (s : State) (o : Nat) (watch : Nat) (bad : Bool) : State :=
  let old := nth s.guard.beam o 0
  if !watched s o then s
  else
    let s1 := s.modGuard fun g => { g with beam := listSet g.beam o (withBit old watch bad) }
    if bad && !nbit old watch then tripEvent s1 2 (o + watch * 2 ^ 8) .internal else s1

/-- The drive's square wave (R158): during the sweep at the period that the sweep has reached, afterwards at the tracked period with
its rising edge a quarter of it before the tracked rising crossing. -/
def driveWave (m : WordMap) (o now : Nat) (x : ScanState) : ScanState :=
  if x.fast = 1 then
    (let p := sweepPeriod m o (now - x.sweepAt)
     { x with drvPeriod := p, drvEdge := x.drvEdge + p, highTime := p / 4 })
  else { x with drvPeriod := x.pHat, drvEdge := x.t0 + x.pHat - x.pHat / 4 }

/-- The pickup peak has passed AMP / 4 during the sweep: the drive follows the tracked period (R158). -/
def execFastAxisCapture (o : Nat) (s : State) : Host.Outcome State Fault Refusal :=
  if (s.scanAt o).fast = 1 then .next (s.modScan o fun x => driveWave (s.rt o) o s.tb.tick { x with fast := 2 }) else .next s

/-- A rising crossing at `t` fine steps with the period's peak (R158 to R160, R177). -/
def execFastAxisCrossing (o t peak : Nat) (s : State) : Host.Outcome State Fault Refusal :=
  let x := s.scanAt o
  let m := s.rt o
  let z : Int := t * 256 / 25
  if !x.driveOn then .next s
  else if x.first then
    .next (s.modScan o fun y => driveWave m o s.tb.tick { y with first := false, t0 := z, lastCross := t, peak := peak })
  else
    let (e, t0, p) := trackStep x.t0 x.pHat z
    let small := if e.natAbs ≤ 20 * 256 then x.smallErr + 1 else 0
    let big := if 200 * 256 < e.natAbs then x.bigErr + 1 else 0
    let phase := if 4 * m.fld (aScanBw o) 15 8 * 256 < e.natAbs then x.phaseErrs + 1 else 0
    let low := if peak * 256 < m.fld (aScanBw o) 7 0 * faxAmp m o then x.lowPeaks + 1 else 0
    let range := periodInRange m o p
    let high := if x.fast < 2 then x.highTime
                else clampInt (p / 50) (p / 2) (x.highTime + ((faxAmp m o : Int) - peak) * 4)
    let lost := x.fast == 3 && (decide (4 ≤ big) || !range)
    let locks := x.fast ≠ 3 ∧ 256 ≤ small
    let fast := if lost then 4 else if locks then 3 else x.fast
    let s1 := s.modScan o fun y => driveWave m o s.tb.tick { y with
      t0 := t0, pHat := p, lastCross := t, peak := peak, highTime := high, fast := fast,
      smallErr := if lost then 0 else min small 256, bigErr := big, phaseErrs := phase, lowPeaks := low }
    let s2 := if lost then scanLost s1 o 2 else if locks then raise s1 0x0B10 o else s1
    let s3 := beamWatch (beamWatch s2 o 0 false) o 1 (decide (2 ≤ low))
    .next (beamWatch (beamWatch s3 o 2 (decide (4 ≤ phase))) o 3 (!range))

/-- Whether 1.5 × P̂ have passed since the last rising crossing, or since RUN = 1. -/
def crossingLost (s : State) (o : Nat) : Bool :=
  let x := s.scanAt o
  decide (512 * (x.lastCross : Int) + 75 * x.pHat ≤ 512 * 25 * (s.tb.tick : Int))

/-- No rising crossing within 1.5 × P̂ (R160, R177): a locked tracker loses its lock, and the beam watch trips, in SCAN also where the
drive has stopped. -/
def execFastStop (o : Nat) (s : State) : Host.Outcome State Fault Refusal :=
  if !crossingLost s o then .next s
  else
    let s1 := if (s.scanAt o).fast = 3 then scanLost (s.modScan o fun y => { y with fast := 4, smallErr := 0 }) o 2 else s
    .next (beamWatch s1 o 0 true)

/-- The tracker has not locked within 500 ms of RUN = 1 (R158): the drive stops. -/
def execScanLockTimeout (o : Nat) (s : State) : Host.Outcome State Fault Refusal :=
  let x := s.scanAt o
  if x.fast = 1 ∨ x.fast = 2 then .next (scanLost (s.modScan o fun y => { y with fast := 0, driveOn := false, drvPeriod := 0 }) o 1) else .next s

/-- A 1 ms window of SSNS ends with its mean code (R177): two consecutive windows of the active ramp that advance by less
than SLOW_MIN are a stall. -/
def execSlowStallWindow (o mean : Nat) (s : State) : Host.Outcome State Fault Refusal :=
  let x := s.scanAt o
  let m := s.rt o
  let ramp : Bool := match x.slowFire with | some f => decide (f ≤ 25 * s.tb.tick ∧ 25 * s.tb.tick < f + 25 * scanTact m o) | none => false
  if !ramp then .next (s.modScan o fun y => { y with slowMean := none, slowWindows := 0 })
  else
    let slow : Bool := match x.slowMean with | some p => decide (mean < p + m.fld (aScanBw o) 27 16) | none => false
    let n := if slow then x.slowWindows + 1 else 0
    let s1 := s.modScan o fun y => { y with slowMean := some mean, slowWindows := n }
    .next (beamWatch s1 o 4 (decide (2 ≤ n)))

/-! ### The scan engine (R163 to R167) -/

/-- The blank and pass codes of a channel (R164, R173). -/
def forcedCode (m : WordMap) (o c f : Nat) : Int := if f = 2 then linCode m o c 65535 else linCode m o c 0

/-- The emergence time of sample `n` after link start, in fine steps (R163, R170): LAT after its place in the sample count, with the
LAT of its own frame's settings (R180). -/
def sampleTime (s : State) (o n : Nat) : Rat :=
  let m := s.rt o
  let sent : Rat := (s.scanAt o).lmfc + (n * 10000 : Nat) / (sampleRate m o : Rat)
  let lat := fun (m : WordMap) => (m.fld (aJlat o) 23 0 : Rat)
  sent + lat (scanMap s o (sent + lat m))

/-- The start of the frame in which `t` fine steps lies, in ticks (R163). -/
def frameOf (s : State) (o : Nat) (t : Rat) : Rat :=
  if inNext s o t then (nextInstant s o : Rat) / 25 else let (f, fine) := frameStart s o; (f : Rat) + (fine : Rat) / 25

/-- The line buffer of an output holds the rows of the front buffer from `y` to one row ahead of those in use (R166): rows enter in
increasing order, and the last 4 stay. -/
def fetchRows (s : State) (m : WordMap) (o y : Nat) : State :=
  let b := (s.encAt o).frontIdx
  let take := fun (l : List (Nat × List Byte)) (r : Nat) =>
    if fsHeight m o ≤ r ∨ l.any (fun e => e.1 == r) then l
    else ((r, Memory.bytes ramDefault s.fs (scanAddr m o b r 0 0) (lineBytes m o)) :: l).take 4
  s.modScan o fun x => { x with rows := [y, y + 1, y + 2].foldl take x.rows }

/-- The pixel of a channel in the line buffer. -/
def rowPixel (m : WordMap) (o : Nat) (rows : List (Nat × List Byte)) (c x y : Nat) : Nat :=
  match rows.find? fun e => e.1 == y with
  | some e => leNat ((e.2.drop ((x * fsChannels m o + c) * 2)).take 2)
  | none => 0

/-- The scan engine computes the next link sample into the elastic buffer (R163, R167), from the front buffer, the resident zone mask
and the tracker as they stand. -/
def computeSample (s : State) (o : Nat) : State :=
  let x := s.scanAt o
  let t := sampleTime s o (x.samples + x.ahead.length)
  let m := scanMap s o t
  let w := fsWidth m o
  let h := fsHeight m o
  let q := if x.pHat ≤ 0 then none else scanPoint m o w h (t / 25) ((x.t0 : Rat) / 256) ((x.pHat : Rat) / 256) (frameOf s o t)
  let s1 := match q with | some p => fetchRows s m o p.y.floor.toNat | none => s
  let rows := (s1.scanAt o).rows
  let ask := fun (c : Nat) =>
    if c < fsChannels m o then q.map fun p => pointValue m o w h p (rowPixel m o rows c) (zoneLimit s o c) else none
  let asked := (List.range 6).map ask
  let word : ScanWord := {
    t := t, asked := asked
    codes := (List.range (converters m o)).map fun j => let c := convChan m o j; wrapInt 16 (linCode m o c ((nth asked c none).getD 0)) }
  s1.modScan o fun x => { x with ahead := x.ahead ++ [word] }

/-- The scan engine fills the elastic buffer by `n` samples, as far as it has room (R167). -/
def fillAhead (o : Nat) : Nat → State → State
  | 0, s => s
  | n + 1, s => fillAhead o n (if (s.scanAt o).ahead.length < elasticSamples (s.rt o) o then computeSample s o else s)

/-- The events of a class that are posted for an instant up to `t` fine steps (R173): a port has them before they fire. -/
def postedUpTo (s : State) (o cls : Nat) (t : Rat) : List Post :=
  (s.seqAt o).queue.filter fun p => p.cls == cls && decide (((25 * p.fire + p.fine : Nat) : Rat) ≤ t)

/-- Whether an output emits nothing in a frame: it is not shown, or it is leaving. -/
def blankFrame (s : State) (o : Nat) : Bool := !isLit s o || (s.outAt o).exit == .stopping

/-- What forces a converter for a sample that emerges at `t` (R85, R167, R173): events up to that instant; a forced blank, or END's,
lasts to the frame's end. -/
def forceAt (s : State) (o j : Nat) (t : Rat) : Option Nat :=
  let x := s.scanAt o
  if (if inNext s o t then blankFrame s o else x.allForced) then some 1
  else (postedUpTo s o 3 t).foldl (fun f p => if (p.idx = 0xFF ∨ p.idx = j) ∧ (!inNext s o t || decide (nextInstant s o ≤ 25 * p.fire + p.fine)) then
      forceOf f p.payload else f) (if inNext s o t then none else nth x.forced j none)

/-- The fire time of the slow-axis event in force at `t`, in fine steps (R161). -/
def slowAt (s : State) (o : Nat) (t : Rat) : Option Nat :=
  match ((postedUpTo s o 4 t).filter fun p => p.idx == 1 && p.payload % 4 == 0).getLast? with
  | some p => some (25 * p.fire + p.fine)
  | none => (s.scanAt o).slowFire

/-- The code of a light converter of an output in ANNEAL: the point of SCAN_LIN that is measured, otherwise blank (R380, R381). -/
def annealCode (s : State) (o j : Nat) : Int :=
  let m := s.rt o
  let c := convChan m o j
  match s.ann.run with
  | some r => if r.st = 2 ∧ r.todo.head? = some (7, o) ∧ r.items.head? = some j then linPoint m o c r.point else forcedCode m o c 1
  | none => forcedCode m o c 1

/-- The code of one converter for the sample it sends (R161, R163, R172, R173): the port applies forces and the slow axis by
emergence time. -/
def convCode (s : State) (m : WordMap) (o : Nat) (w : ScanWord) (j : Nat) : Nat :=
  let c := convChan m o j
  wrapInt 16 (match convRole m o j with
    | 1 => if (s.outAt o).mode = 5 then annealCode s o j
           else match forceAt s o j w.t with
             | some f => forcedCode m o c f
             | none => nth w.codes j 0
    | 2 => (match slowAt s o w.t with
            | some f => slowCode m o ((w.t - f) / 25)
            | none => signedOf 16 (m.fld (aVcode o) 15 0))
    | _ => 0)

/-- What a sample asks of a channel as it is sent: 0 or the full value where its converter is forced (R163, R176). -/
def sentAsk (s : State) (m : WordMap) (o : Nat) (w : ScanWord) (c : Nat) : Nat :=
  match (List.range (converters m o)).find? fun j => convRole m o j == 1 && convChan m o j == c with
  | none => 0
  | some j => match forceAt s o j w.t with
    | some f => if f = 2 then 65535 else 0
    | none => (nth w.asked c none).getD 0

/-- SYSREF_n beside the sample being sent (R170): a pulse of one DCLK period, 8 samples, at every SYSREF_DIV-th multiframe or
extended multiblock. -/
def sysrefStep (m : WordMap) (o : Nat) (x : ScanState) : ScanState :=
  let per := sysrefDiv m o * multiframe m o
  if per ≠ 0 ∧ x.samples % per = 0 then { x with sysrefs := x.sysrefs + 1, sysrefHigh := 8 } else { x with sysrefHigh := x.sysrefHigh - 1 }

/-- The blank sample that stands in for one that is not in the buffer (R167). -/
def blankCodes (m : WordMap) (o : Nat) : List Nat :=
  (List.range 16).map fun j => if j < converters m o ∧ convRole m o j = 1 then wrapInt 16 (forcedCode m o (convChan m o j) 1) else 0

/-- A sample leaves the elastic buffer for the link (R163, R167, R172); what it asked is kept as long as the optical loop may need it
(R176). -/
def sendSample (s : State) (o : Nat) (w : ScanWord) : State :=
  let m := scanMap s o w.t
  let codes := (List.range 16).map fun j => if converters m o ≤ j then 0 else convCode s m o w j
  let asked := (List.range 6).map (sentAsk s m o w)
  s.modScan o fun y => { sysrefStep m o y with
    samples := y.samples + 1, codes := codes
    reqs := (w.t, asked) :: y.reqs.takeWhile fun r => decide (((25 * s.tb.tick : Nat) : Rat) ≤ r.1 + 7500) }

/-- A sample is due at the link (R163, R167): the scan engine has filled its buffer by `filled` samples, and the oldest is sent. With
none in the buffer, a blank goes out, SCAN_UNDERRUN is raised and the frame is held. -/
def execScanSample (o filled : Nat) (s : State) : Host.Outcome State Fault Refusal :=
  let m := s.rt o
  if (s.scanAt o).jesd ≠ 2 ∨ sampleRate m o = 0 then .next s
  else
    let s1 := fillAhead o filled s
    match (s1.scanAt o).ahead with
    | w :: rest => .next (sendSample (s1.modScan o fun y => { y with ahead := rest }) o w)
    | [] =>
      let s2 := raise (s1.modScan o fun y => { sysrefStep m o y with
        samples := y.samples + 1, codes := blankCodes m o, underruns := satAdd 0xFFFF y.underruns 1 }) 0x0B14 o
      .next (holdDark s2 o s.tb.tick s.tb.tick)

/-- A JESD204 link starts (R170, R171): JESD204B sends code-group characters, JESD204C blank codes, and a SYSREF_n pulse goes out. -/
def startJesd (m : WordMap) (o : Nat) (x : ScanState) : ScanState :=
  { x with jesd := 1, sends := if isJesdB m o then .cgs else .blank, sysrefs := x.sysrefs + 1, sysrefHigh := 8, ahead := [], codes := blankCodes m o }

/-! ### The optical loop per line (R176) -/

/-- How far `t` lies inside its active line, in ticks: none when it lies in none, or outside the image's vertical
interval. -/
def lineInset (s : State) (o : Nat) (t : Rat) : Option Rat :=
  let m := s.rt o
  let x := s.scanAt o
  let p : Rat := (x.pHat : Rat) / 256
  if x.pHat ≤ 0 then none
  else
    let off : Rat := (signedOf 16 (m.fld (aUact o) 31 16) : Int) / 25
    let half := p * fxRat (fxAsin (fxOf (uActive m o))) / (2 * piRat)
    let q := (t - (x.t0 : Rat) / 256 + off) / (p / 2)
    let d := |q - roundRat q| * (p / 2)
    let (f, _) := frameStart s o
    let v := t - f - scanLag m o
    if half < d ∨ v < 0 ∨ (scanTact m o : Rat) ≤ v then none else some (half - d)

/-- K_live of a channel, R104 with Y_s(a) = 1 (R176). -/
def kLive (s : State) (o c : Nat) : Rat :=
  let m := s.rt o
  let en := chanStrings m o c
  let f := fun nn => (s.strAt nn).flux
  let tot := sumRat f en
  if tot = 0 then 0 else sumRat (fun nn => f nn * targetGain m s.drive o c nn) (en.filter (liveString m s.drive)) / tot

/-- The mean of what a channel's samples asked over the 20 ticks that end at `t` ticks. -/
def meanRequest (x : ScanState) (c : Nat) (t : Rat) : Rat :=
  let l := x.reqs.filter fun r => t - 20 < (r.1 : Rat) / 25 && (r.1 : Rat) / 25 ≤ t
  if l.isEmpty then 0 else sumRat (fun r => (nth r.2 c 0 : Rat) / 65535) l / l.length

/-- A photodiode sample on a SCAN output joins the sums of the line (R176). -/
def lineSample (s : State) (o k code : Nat) : State :=
  match lineInset s o s.tb.tick with
  | none => s
  | some d =>
    if d < 120 then s
    else
      let m := s.rt o
      (List.range 6).foldl (fun s c =>
        if !(pdSees m o c k) || (nth s.drive.pds k {}).faulted then s
        else
          let e := phiOf m k c * (((chanOf s.drive o c).rp : Rat) / 0x8000) * kLive s o c
            * meanRequest (s.scanAt o) c ((s.tb.tick : Rat) - m.fld (aJlat o) 31 24)
          let p : Rat := (code : Rat) - (nth s.drive.pds k {}).dark
          s.modScan o fun x => { x with
            sumE := listSet x.sumE c (nth x.sumE c 0 + e), sumP := listSet x.sumP c (nth x.sumP c 0 + p),
            nSamp := listSet x.nSamp c (nth x.nSamp c 0 + 1) }) s

/-- Whether a probe lies in a turnaround beside the line that ends (R176). -/
def probeBeside (s : State) (o : Nat) : Bool :=
  let x := s.scanAt o
  x.probeSeen || (s.seqAt o).queue.any fun p => p.cls == 2 && nbits p.payload 17 16 == 1
    && decide ((p.fire : Int) * 256 ≤ (s.tb.tick : Int) * 256 + x.pHat / 2)

/-- The hold conditions of R110 that apply to the loop of a line. -/
def lineHeld (s : State) (o c : Nat) : Bool :=
  let m := s.rt o
  chanAmp s o c == 0 || decide (s.tb.tick < (chanOf s.drive o c).heldUntil)
    || (chanPds m s.drive o c).any (fun k => decide (65280 ≤ (nth s.drive.pds k {}).recent.headD 0))
    || (chanStrings m o c).any (fun nn => liveString m s.drive nn && (s.strAt nn).clamped)
    || annealTakes s o || probeBeside s o

/-- One step of a channel's loop at the end of a line (R176); bin 0 alone is used. -/
def lineLoop (s : State) (o c : Nat) : State :=
  let x := s.scanAt o
  let e := nth x.sumE c 0
  let n := nth x.nSamp c 0
  if n = 0 ∨ e < 256 * n ∨ e = 0 ∨ lineHeld s o c then s
  else
    let eps := (e - nth x.sumP c 0) / e
    let (y, cl) := loopStep (s.rt o) o { chanOf s.drive o c with eps := nth x.epsPrev c 0 } eps
    let s1 := (s.modChan o c fun _ => y).modScan o fun x => { x with epsPrev := listSet x.epsPrev c eps }
    let s2 := recommandChan s1 o c
    if cl then raiseLimited s2 0x0C05 (chanIdx o c) (driveData o (wrapInt 32 (nth x.sumP c 0 / n).floor)) oneSecond .internal else s2

/-- An active line ends (R176). -/
def execScanLineEnd (o : Nat) (s : State) : Host.Outcome State Fault Refusal :=
  let s1 := (List.range 6).foldl (fun s c => lineLoop s o c) s
  .next (s1.modScan o fun x => { x with
    linesNow := x.linesNow + 1, sumE := List.replicate 6 0, sumP := List.replicate 6 0, nSamp := List.replicate 6 0, probeSeen := false })

/-- A photodiode is sampled (R108, R109, R176). The photodiodes sample together: a channel's loop on a PLANE output takes
its step with the sample of the highest photodiode mapped to it (DESIGN CHOICE, notes/assumptions/28.md). -/
def execPdSample (k code : Nat) (s : State) : Host.Outcome State Fault Refusal :=
  let s1 := pdTake s k code
  let o := (s1.rt 4).fld (aPdMap k) 25 24
  if isScan (s1.rt o) o then .next (lineSample s1 o k code)
  else .next ((List.range 6).foldl (fun s c => if (chanPds (s.rt o) s.drive o c).getLast? = some k then loopSample s o c else s) s1)

end Sys2Proof.Machine
end

