-- ==== Sys2Proof/Machine/Port.lean ====
section
/-! DEFINITION. Output ports: strobe words, loads, commands to the array, the back-channel, bring-up and loss of the mirror
link and of the JESD204 link (R128 to R155, R170, R171). -/
namespace Sys2Proof.Machine

/-- The data field of a port event (R155). -/
def portData (o x : Nat) : Nat := o + x % 256 * 2 ^ 8

/-! ### Loss of a link (R151, R171) -/

/-- What a lost link does to its output (R151): the present frame is held, loads and words stop, and the output is dark until
the link is up. -/
def loseLink (s : State) (o : Nat) : State :=
  let s1 := if isLit s o && (s.tgAt o).running then holdDark s o s.tb.tick s.tb.tick else s
  s1.modPort o fun p => { p with loads := [], current := none, elastic := [], unread := 0, darkByLink := true, resumeWait := false }

/-! ### Strobes (R140 to R143) -/

/-- The execute edge of a strobe event in 1/50 tick (R141). -/
def edge50 (m : WordMap) (o fire fine : Nat) : Int := ((fire : Int) - portAdvance m o) * 50 + 2 * fine

/-- The blocks of a set that are not in another. -/
def blocksWithout (a b : Nat) : Nat := a - (a &&& b)

/-- A strobe event fires at the port (R140 to R143): events of one instant and KIND merge into one word; of different KIND at
one fire time, the later-posted prevails for the blocks they share. A word goes on the pair idle longer, on pair 0 when both have
been idle equally long (DESIGN CHOICE, notes/assumptions/99.md); without one in time the event is late and counted as such. -/
def strobeFire (s : State) (o : Nat) (p : Post) : State :=
  let x := s.portAt o
  if x.link ≠ 5 ∨ x.darkByLink then s
  else
    let kind := strobeKind p.payload
    let rival := fun (w : StrobeWord) => w.fire == p.fire && w.kind != kind
    let blocks := x.words.foldl (fun b w => if rival w && decide (p.ord < w.ord) then blocksWithout b w.blocks else b) (strobeBlocks p.payload)
    let words := x.words.map fun w => if rival w && decide (w.ord ≤ p.ord) then { w with blocks := blocksWithout w.blocks blocks } else w
    let same := fun (w : StrobeWord) => w.fire == p.fire && w.fine == p.fine && w.kind == kind
    let join := fun (w : StrobeWord) => if same w then { w with blocks := w.blocks ||| blocks, ord := max w.ord p.ord } else w
    if words.any same then s.modPort o fun y => { y with words := words.map join }
    else
      let e := edge50 (frontCfg s o) o p.fire p.fine
      let i0 := nth x.pairIdle 0 0
      let i1 := nth x.pairIdle 1 0
      let pair := if i0 ≤ i1 then 0 else 1
      if (min i0 i1 : Int) ≤ e - 775 then
        let w : StrobeWord := { fire := p.fire, fine := p.fine, kind := kind, blocks := blocks, seq := x.stbSeq % 32, pair := pair, ord := p.ord }
        s.modPort o fun y => { y with
          words := (w :: words).take 8, stbSeq := (y.stbSeq + 1) % 32, pairIdle := listSet y.pairIdle pair (e + 25).toNat }
      else
        let s1 := s.modSeq o fun q => { q with lateCount := satAdd 0xFFFFFFFF q.lateCount 1 }
        holdDark (fault s1 0x0B05 (portData o x.stbSeq) o) o p.fire s.tb.tick

/-- The 32 bits of a strobe word (R140). -/
def StrobeWord.bits (w : StrobeWord) : Nat := strobeWord w.kind w.blocks w.seq

/-! ### Links after a change of settings (R147, R171, R255, R474) -/

/-- A port whose output has a partition starts its link (R147, R171, R474). -/
def startLink (s : State) (o : Nat) : State :=
  if isScan (s.rt o) o then (s.modPort o fun p => { p with link := 0 }).modScan o (startJesd (s.rt o) o)
  else (s.modPort o fun p => { startTraining (s.rt o) o s.tb.tick p with lossRaised := false }).modScan o fun x =>
    { x with jesd := 0, sends := .off, ahead := [] }

/-- The links of an output after its settings changed (R255): a mode change starts the other link; lanes, rate or layout
retrain a mirror link; JMODE, FS_SEL, SCR or SYSREF_DIV restart a JESD204 link. -/
def relink (s : State) (o : Nat) (old : WordMap) : State :=
  let new := s.rt o
  if isScan old o ≠ isScan new o then startLink s o
  else if isScan new o then
    (if sameFields old new [(aPortCfg o, 0x7FFF0000)] then s else s.modScan o (startJesd new o))
  else if sameFields old new [(aPortCfg o, 0x33), (aFsLayout o, 0xFFFFFFFF)] then s
  else s.modPort o fun p => { startTraining new o s.tb.tick p with mismatch := false }

/-- An output whose light is off for a timing-mode change takes its port's new settings (R255 step 3): the link retrains or restarts
if they change, and a new layout or mode leaves its buffers unusable. The first start of the new timing is decided next. -/
def takePort (s : State) (o since : Nat) : State :=
  let old := s.rt o
  let new := (old.set (aPortCfg o) (s.act.nat (aPortCfg o))).set (aFsLayout o) (s.act.nat (aFsLayout o))
  let s1 := relink ((s.modLadle fun l => { l with rt := listSet l.rt o new }).modTg o fun t => { t with tm := .ready since }) o old
  let s2 := if sameFields old new [(aFsLayout o, 0xFFFFFFFF), (aPortCfg o, 0x80000000)] then s1
    else s1.modEnc o fun e => { e with bufs := e.bufs.map fun b => { b with complete := false } }
  if isScan new o && !sameFields old new [(aPortCfg o, 0xFFFF0000)] then s2.modTg o fun t => { t with waitMore := true } else s2

/-- The array of an output in a timing-mode change has parked: its port takes the new settings (R255 step 3). -/
def parkDone (s : State) (o : Nat) : State :=
  match (s.tgAt o).tm with
  | .parked since => takePort s o since
  | _ => s

/-- Whether an output's generator has stopped for a timing-mode change (R255 steps 3 and 4). -/
def TgState.halted (t : TgState) : Bool :=
  match t.tm with
  | .parked _ => true
  | .ready _ => true
  | .fixed _ => true
  | _ => false

/-- The mirror link goes down and retrains (R150, R151). An array without its link
parks itself, which lets a timing-mode change go on (R152, R255; DEDUCED, notes/assumptions/26.md). -/
def takeDown (s : State) (o : Nat) : State :=
  if (s.portAt o).link = 0 then s
  else
    let up := (s.portAt o).link = 5
    let s1 := s.modPort o fun p => { startTraining (s.rt o) o s.tb.tick p with
      lossRaised := if up then false else p.lossRaised, mismatch := false
      laneRuns := List.replicate 32 0, loadErrTimes := [] }
    let s2 := if up then fault (loseLink s1 o) 0x0B02 (portData o 0) o else s1
    parkDone s2 o

/-! ### Loads (R81, R82, R133 to R135) -/

/-- The loads of a frame from its front buffer's program, at the frame's start (R81). -/
def frameLoads (m : WordMap) (o p start : Nat) : List LoadRun :=
  (loadSchedule m o p).loads.map fun l =>
    { block := l.block, slot := l.slot, comp := l.comp, seq := 0, words := 0, crc := 0, start := start + l.start,
      done := start + l.done, deadline := start + l.deadline, strobe := start + l.strobe, complete := false }

/-- The bytes of a load, from the front buffer (R134). -/
def runBytes (s : State) (o : Nat) (l : LoadRun) : List Byte :=
  let b := frontBuf s o
  let m := frontCfg s o
  loadBytes m o b.planeSet (s.encAt o).frontIdx l.slot l.block (progNblocks m o b.prog) l.comp fun a => Sparse.get ramDefault s.fs a

/-- The LOAD_START payload of a load (R133). -/
def startPayload (m : WordMap) (o nb : Nat) (l : LoadRun) : Nat :=
  let r0 := blockRow (fsHeight m o) nb l.block
  loadStartBlock l.block r0 (blockRow (fsHeight m o) nb (l.block + 1) - r0) (rowBytes m o / 8) l.seq l.comp

/-- The 8-byte words that the elastic buffer of a port holds: 256 KB (R27). -/
def elasticWords : Nat := 32768

/-- The start time of the next load arrives (R81, R133): the port sends an ALIGN and the LOAD_START column, and reads the load
from the front buffer into its elastic buffer as far as that holds it (R27). -/
def execLoadStart (o : Nat) (s : State) : Host.Outcome State Fault Refusal :=
  let x := s.portAt o
  match x.loads with
  | [] => .next s
  | l :: rest =>
    if x.current.isSome || x.link != 5 || x.darkByLink then .next s
    else
      let m := frontCfg s o
      let bytes := runBytes s o l
      let words := loadWords bytes
      let run := { l with seq := x.loadSeq, words := words.length, crc := crc32c bytes }
      let start := startPayload m o (progNblocks m o (frontBuf s o).prog) run
      .next (s.modPort o fun y => { sendControl m o start (sendAlign m o { fillTo m o s.tb.tick y with wire := [] }) with
        loads := rest, current := some run, loadSeq := (y.loadSeq + 1) % 256
        elastic := words.take elasticWords, unread := words.length - elasticWords })

/-- After a load, the port sends a command again that fell due meanwhile, or the next one (R137, R138). -/
def afterLoad (m : WordMap) (o now : Nat) (p : PortState) : PortState :=
  match p.cmd with
  | some c => if p.resend then { commandColumn m o now c.opcode c.seq c.arg p with resend := false } else p
  | none => nextCommand m o now p

/-- The load has been sent (R133 to R135): its data columns through the elastic buffer, and the LOAD_END column. -/
def execLoadDone (o : Nat) (s : State) : Host.Outcome State Fault Refusal :=
  match (s.portAt o).current with
  | none => .next s
  | some l =>
    let m := frontCfg s o
    let x := s.portAt o
    let words := x.elastic ++ (if x.unread = 0 then [] else (loadWords (runBytes s o l)).drop (l.words - x.unread))
    .next (s.modPort o fun y =>
      let y1 := sendControl m o (loadEndBlock l.seq l.crc) (sendData m o (dataColumns m o words.length) words y)
      afterLoad (s.rt o) o s.tb.tick { y1 with current := none, elastic := [], unread := 0 })

/-- A load is incomplete at T_r − GUARD (R82): its strobe is late. -/
def execLoadLate (o : Nat) (s : State) : Host.Outcome State Fault Refusal :=
  let x := s.portAt o
  let l := match x.current with | some l => some l | none => x.loads.head?
  match l with
  | none => .next s
  | some l =>
    if (s.seqAt o).holding ∨ x.darkByLink then .next s
    else
      let s1 := s.modSeq o fun q => { q with lateCount := satAdd 0xFFFFFFFF q.lateCount 1 }
      .next (holdDark (fault s1 0x0A05 o o) o l.strobe l.deadline)

/-! ### Commands to the array (R137 to R139, R154) -/

/-- No echo within 20 µs (R138): the command is sent again up to 3 times, after a load that is being sent (R137); then CMD_FAIL and
the link goes down. -/
def execCommandEchoTimeout (o : Nat) (s : State) : Host.Outcome State Fault Refusal :=
  match (s.portAt o).cmd with
  | none => .next s
  | some c =>
    if c.tries < 3 then
      .next (s.modPort o fun p =>
        let p1 := if p.current.isSome then { p with resend := true } else commandColumn (s.rt o) o s.tb.tick c.opcode c.seq c.arg p
        { p1 with cmd := some { c with tries := c.tries + 1 } })
    else .next (takeDown (raise s 0x0B07 (portData o c.seq)) o)

/-- PORT_CMD_n is ignored with PORT_REJECT (R154). -/
def rejectPortCmd (s : State) (o arg : Nat) (path : PathId) : State := raiseP s 0x0B09 (portData o arg) path

/-- PORT_CMD_n with opcode 0x20 (R137, R154): STATUS_REQ of the KIND; a link that is not up sends nothing. -/
def portStatusReq (s : State) (o kind : Nat) : State := if (s.portAt o).link = 5 then portSend s o 0x20 (kind % 4) else s

/-- PORT_CMD_n with opcode 0x30 (R139, R154, R169), only in STANDBY: PATTERN 0 stops and parks, 1 starts the PRBS31 test, 2
unparks first and starts the checkerboard at STATE 1. A running pattern ends first. A link that is not up sends nothing, and the
request is dropped without PORT_REJECT (DESIGN CHOICE, notes/assumptions/100.md). -/
def portTestPattern (s : State) (o arg : Nat) (path : PathId) : State :=
  let x := s.outAt o
  if x.mode ≠ 1 ∨ x.trans ∨ 2 < arg then rejectPortCmd s o arg path
  else if isScan (s.rt o) o then
    (if arg = 2 then rejectPortCmd s o arg path else s.modPort o fun p => { p with pattern := arg })
  else if (s.portAt o).link ≠ 5 then s
  else
    let on := fun (s : State) => s.modPort o fun p => { p with pattern := arg, patWait := arg == 2 }
    if arg = 0 then portSend (portSend (on s) o 0x30 0) o 0x10 0
    else if arg = 1 then portSend (on (endPattern s o)) o 0x30 1
    else portSend (on (endPattern s o)) o 0x11 0

def execPortCmdStatusReq (path : PathId) (o kind : Nat) (s : State) : Host.Outcome State Fault Refusal :=
  .next (withRole s path 9 (0xB0108 + 0x40 * o) fun s => portStatusReq s o kind)
def execPortCmdTestPattern (path : PathId) (o arg : Nat) (s : State) : Host.Outcome State Fault Refusal :=
  .next (withRole s path 9 (0xB0108 + 0x40 * o) fun s => portTestPattern s o arg path)

/-- A write of PORT_CMD_n (R154). -/
def portCmd (s : State) (o v : Nat) (path : PathId) : State :=
  match nbits v 15 8 with
  | 0x20 => portStatusReq s o (nbits v 7 0)
  | 0x30 => portTestPattern s o (nbits v 7 0) path
  | _ => rejectPortCmd s o (nbits v 15 8) path

/-! ### Bring-up (R147 to R149) -/

/-- The lanes in use as a mask. -/
def laneMask (m : WordMap) (o : Nat) : Nat := 2 ^ portLanes m o - 1

/-- The link is up (R147 step 5): the loss is recovered; an array that reports parked under a shown output is sent UNPARK
(R151); waiting requests are judged (R478, R487). -/
def linkUp (s : State) (o : Nat) : State :=
  let s1 := s.modPort o fun p => { p with link := 5, lossRaised := false, resumeWait := true }
  let s2 := recovered (raise s1 0x0B01 (portData o 0)) 0x0B02 o
  let s3 := if isLit s2 o && (s2.portAt o).status.state == 0 && !(s2.tgAt o).halted then
      (let up := match (s2.portAt o).ident with | some i => i.unparkTime | none => 0
       portSend (s2.modPort o fun p => { p with unparkUntil := s2.tb.tick + up * 400000 }) o 0x11 0)
    else s2
  linkReturned s3 o

/-- An identity arrives (R146, R148): accepted at step 4 it brings the link up; otherwise ARRAY_MISMATCH. -/
def takeIdent (s : State) (o : Nat) (i : Ident) : State :=
  let x := s.portAt o
  if x.link ≠ 4 then s
  else if acceptsArray (s.rt o) o i then
    linkUp (s.modPort o fun p => { p with ident := some i, accepted := true, mismatch := false }) o
  else if x.mismatch then s
  else raise (s.modPort o fun p => { p with accepted := false, mismatch := true }) 0x0B06 (portData o 4)

/-- One bring-up step completes on a status body (R147); step 3 on that of a STATUS frame. -/
def bringUp (s : State) (o : Nat) (event : Bool) (t : ArrayStatus) : State :=
  let x := s.portAt o
  let lm := laneMask (s.rt o) o
  if x.link = 1 ∧ 2 ≤ x.validStatus then s.modPort o fun p => { p with link := 2 }
  else if x.link = 2 ∧ t.laneLock &&& lm = lm then s.modPort o (startAlign (s.rt o) o s.tb.tick)
  else if x.link = 3 ∧ nbit t.flags 3 ∧ !event then portSend (s.modPort o fun p => { p with link := 4 }) o 0x20 1
  else s

/-- A bring-up step exceeds 500 µs (R147): bring-up waits 10 ms; a mismatched array keeps the link at step 4 (R148). -/
def execBringupStepTimeout (o : Nat) (s : State) : Host.Outcome State Fault Refusal :=
  let x := s.portAt o
  if x.link = 0 ∨ x.link = 5 ∨ x.mismatch then .next s
  else
    let s1 := s.modPort o fun p => { fillTo (s.rt o) o s.tb.tick p with
      link := 0, validStatus := 0, cmd := none, cmdQueue := [], resend := false, lossRaised := true }
    .next (if x.lossRaised then s1 else raise s1 0x0B02 (portData o x.link))

/-- The 10 ms wait ends (R147). -/
def execBringupRestart (o : Nat) (s : State) : Host.Outcome State Fault Refusal :=
  if (s.portAt o).link = 0 ∧ ¬ isScan (s.rt o) o then .next (s.modPort o (startTraining (s.rt o) o s.tb.tick)) else .next s

/-! ### The back-channel (R138, R144 to R146, R150) -/

/-- The echo of a command (R138), and what it completes. -/
def takeEcho (m : WordMap) (o now seq : Nat) (p : PortState) : PortState :=
  match p.cmd with
  | some c => if c.seq = seq then nextCommand m o now { p with cmd := none, resend := false } else p
  | none => p

/-- LANE_ERR runs of a status frame (R150). -/
def laneRunsOf (runs : List Nat) (err : Nat) : List Nat :=
  (List.range 32).map fun l => if nbit err l then nth runs l 0 + 1 else 0

/-- The retrain conditions of R150 that a frame shows. -/
def retrains (s : State) (o : Nat) : Bool :=
  let x := s.portAt o
  let lm := laneMask (s.rt o) o
  x.link == 5 && (x.status.state == 4 || x.status.laneLock &&& lm != lm
    || (List.range 32).any (fun l => nbit lm l && decide (4 ≤ nth x.laneRuns l 0)) || decide (16 ≤ x.loadErrTimes.length))

/-- The fault bits of a status body (R136, R145, R155). A strobe error names no late event: HOLD_DARK's fire time is then the tick
of the report, and its slack 0 (DESIGN CHOICE, notes/assumptions/101.md). -/
def takeFlags (s : State) (o : Nat) (old new : ArrayStatus) : State :=
  let s1 := if nbit new.flags 0 then
      (let t := s.modPort o fun p => { p with
         loadErrs := satAdd 0xFFFF p.loadErrs 1,
         loadErrTimes := s.tb.tick :: p.loadErrTimes.filter fun u => decide (s.tb.tick < u + 400000000) }
       fault t 0x0B03 (portData o new.loadSeq) o)
    else s
  let s2 := if nbit new.flags 1 ∨ nbit new.flags 2 then
      holdDark (fault (s1.modPort o fun p => { p with stbErrs := satAdd 0xFF p.stbErrs 1 }) 0x0B04 (portData o new.stbSeq) o) o s.tb.tick s.tb.tick
    else s1
  let set_ := fun (i : Nat) => nbit new.flags i && !nbit old.flags i
  if set_ 4 ∨ set_ 5 then raise s2 0x0B08 (portData o 0) else s2

/-- What a reported array state completes: a parked array ends an exit (R483) or lets a timing-mode change go on (R255), an unparked one starts the checkerboard that
waits for it (R139). -/
def takeState (s : State) (o : Nat) : State :=
  let x := s.portAt o
  let s1 := if x.status.state = 0 ∧ x.cmd.isNone ∧ (s.outAt o).exit = .stopping ∧ ¬ isScan (s.rt o) o then reachStandby s o else s
  let s1 := if x.status.state = 0 ∧ x.cmd.isNone then parkDone s1 o else s1
  let s2 := s1.modOut o fun y => { y with parked := x.status.state == 0 }
  if x.patWait && x.status.state == 1 && x.cmd.isNone then
    portSend (s2.modPort o fun p => { p with patWait := false, checker := true }) o 0x30 2
  else s2

/-- A status body arrives in a STATUS or EVENT frame; PORT_STATUS_n keeps STATE, the echo and LOAD_SEQ of the last STATUS frame
(R154). -/
def takeStatus (s : State) (o : Nat) (event : Bool) (t : ArrayStatus) : State :=
  let old := (s.portAt o).status
  let s1 := s.modPort o fun p => { takeEcho (s.rt o) o s.tb.tick t.cmdSeq p with
    regState := if event then p.regState else t.state
    status := if event then { t with cmdSeq := old.cmdSeq, loadSeq := old.loadSeq } else t
    validStatus := if event then p.validStatus else p.validStatus + 1, laneErr := p.laneErr ||| t.laneErr
    laneRuns := if event then p.laneRuns else laneRunsOf p.laneRuns t.laneErr }
  let s2 := takeState (bringUp (takeFlags s1 o old t) o event t) o
  if retrains s2 o then takeDown s2 o else s2

/-- A frame arrives on the back-channel (R146): TYPE, body and check word. -/
def execBchFrameReceive (o : Nat) (bytes : List Byte) (s : State) : Host.Outcome State Fault Refusal :=
  if isScan (s.rt o) o then .next s
  else if !bchCrcOk bytes then
    .next (s.modPort o fun p => { p with bchErrs := satAdd 0xFF p.bchErrs 1, validStatus := 0 })
  else
    let body := (bytes.drop 1).take 28
    match (bytes.headD 0).toNat with
    | 1 => .next (takeStatus s o false (parseStatus body))
    | 2 => .next (takeStatus s o true (parseStatus body))
    | 3 => .next (takeIdent s o (parseIdent body))
    | _ => .next s

/-- No valid frame for 50 µs (R150). -/
def execBchSilence (o : Nat) (s : State) : Host.Outcome State Fault Refusal :=
  if isScan (s.rt o) o then .next s else .next (takeDown s o)

/-- The link has not come up within 200 ms (R151, R152, R171): a shown output leaves for STANDBY; an exit that waits for the
array is complete. -/
def execLinkDownTimeout (o : Nat) (s : State) : Host.Outcome State Fault Refusal :=
  let down := if isScan (s.rt o) o then decide ((s.scanAt o).jesd ≠ 2) else decide ((s.portAt o).link ≠ 5)
  if !down then .next s
  else if (s.outAt o).exit = .stopping ∧ ¬ isScan (s.rt o) o then .next (reachStandby s o)
  else if isLit s o then .next (startExit s o 1) else .next s

/-! ### JESD204 (R170, R171) -/

/-- SYNC_N_n goes high during JESD204B bring-up (R171): the alignment sequence begins at the next LMFC boundary. -/
def execSyncNHigh (o : Nat) (s : State) : Host.Outcome State Fault Refusal :=
  if isScan (s.rt o) o && isJesdB (s.rt o) o && (s.scanAt o).jesd != 2 then .next (s.modScan o fun x => { x with jesd := 1, sends := .ilas })
  else .next s

/-- The bring-up completes at the first data sample, which begins a multiframe or multiblock (R170, R171). -/
def execJesdUp (o : Nat) (s : State) : Host.Outcome State Fault Refusal :=
  let x := s.scanAt o
  if !isScan (s.rt o) o || x.jesd == 2 || (isJesdB (s.rt o) o && x.sends != .ilas) then .next s
  else
    let s1 := s.modScan o fun y => { y with
      jesd := 2, sends := .data, samples := 0, lmfc := s.tb.tick * 25, ahead := [], reqs := [] }
    .next (linkReturned (raise (s1.modPort o fun p => { p with resumeWait := true }) 0x0B12 o) o)

/-- SYNC_N_n has been low for its limit (R171): the link goes down as a mirror link does, and starts again. -/
def execJesdDown (o : Nat) (s : State) : Host.Outcome State Fault Refusal :=
  if (s.scanAt o).jesd = 2 then .next (raise (loseLink (s.modScan o (startJesd (s.rt o) o)) o) 0x0B13 o) else .next s

/-- A short low pulse on SYNC_N_n is an error report (R171). -/
def execJesdSyncError (o : Nat) (s : State) : Host.Outcome State Fault Refusal :=
  if isScan (s.rt o) o then .next (s.modScan o fun x => { x with syncErrs := satAdd 0xFFFF x.syncErrs 1 }) else .next s

end Sys2Proof.Machine
end

