-- ==== Sys2Proof/Machine/Sequencer.lean ====
section
/-! DEFINITION. The timebase: posts, their acknowledge and their firing, slack, the reads that latch, and the disciplining of
the tick (R20 to R25, R65 to R71, R86 to R90, R524). -/
namespace Sys2Proof.Machine

/-! ### Posting (R20, R23, R24, R66) -/

/-- The TICK value a 56-bit fire time stands for: the one with those low bits within ±2^55 ticks of now (R66). -/
def resolveFire (now f : Nat) : Nat :=
  let b := now / 2 ^ 56 * 2 ^ 56 + f % 2 ^ 56
  if now + 2 ^ 55 < b then b - 2 ^ 56 else if b + 2 ^ 55 ≤ now then b + 2 ^ 56 else b

/-- A post reaches the timebase (R20): acknowledged while the output's queue of 1,024 has room, waiting otherwise. -/
def post (s : State) (o : Nat) (p : Post) : State :=
  if (s.seqAt o).waiting.isSome then s
  else ackWaiting (s.modSeq o fun q => { q with waiting := some { p with ord := q.posts }, posts := q.posts + 1 }) o

/-- Whether a post is the event given. -/
def Post.is (p : Post) (cls idx fire fine payload : Nat) : Bool :=
  p.cls == cls && p.idx == idx && p.fire == fire && p.fine == fine && p.payload == payload

/-- A sequencer posts an event (R20, R23, R66, R71); a reserved class is refused. The events of its list go in the list's order
(R86); with the list empty the event is one of the present frame. -/
def execEventPost (o : Nat) (cls idx fire fine payload : Nat) (s : State) : Host.Outcome State Fault Refusal :=
  let q := s.seqAt o
  if 5 < cls ∨ q.waiting.isSome then .next s
  else
    let f := resolveFire s.tb.tick fire
    match q.unposted with
    | p :: rest =>
      if p.is cls idx f fine payload then .next (post (s.modSeq o fun q => { q with unposted := rest }) o p) else .next s
    | [] => .next (post s o { cls := cls, idx := idx, fire := f, fine := fine, payload := payload, slack := 0, frame := (s.tgAt o).counter })

/-- Every event of a list is posted in turn; what the queue has no room for stays with the sequencer. -/
def postAll (s : State) (o : Nat) : List Post → State
  | [] => s
  | p :: r => if (s.seqAt o).waiting.isSome then s.modSeq o fun q => { q with unposted := q.unposted ++ p :: r } else postAll (post s o p) o r

/-! ### Firing (R21, R24, R25, R71) -/

/-- An event takes effect at its target (R71); amplitude events of a darkened frame fire at 0 (R399). -/
def fireAt (s : State) (o : Nat) (p : Post) : State :=
  match p.cls with
  | 0 => strobeFire s o p
  | 1 => if p.idx < 6 then applyAmplitude s o p.idx (if (frontBuf s o).dark then 0 else p.payload % 65536) else s
  | 2 =>
    let s1 := if p.idx < 24 then applySingle s o p.idx p.payload else s
    if nbits p.payload 17 16 = 1 then s1.modScan o fun x => { x with probeSeen := true } else s1
  | 3 => applyForce s o p.idx p.payload
  | 4 => applyScanner s o p.idx (25 * p.fire + p.fine) p.payload
  | _ => s

/-- A twin mismatch withholds an event and trips (R401). -/
def twinTrip (s : State) (o : Nat) (p : Post) : State :=
  let s1 := s.modGuard fun g => { g with twinCount := satAdd 0xFFFF g.twinCount 1, twinCls := p.cls, twinOut := o, twinIdx := p.idx }
  tripEvent s1 4 (guardData o 4 0) .internal

/-- The next event of an output's queue fires (R21, R25), or is withheld when the twin copies disagree (R401). A waiting post
is then acknowledged (R20). -/
def execEventFire (o : Nat) (twinOk : Bool) (s : State) : Host.Outcome State Fault Refusal :=
  match (s.seqAt o).queue with
  | [] => .next s
  | p :: rest =>
    let s1 := s.modSeq o fun q => { q with queue := rest }
    .next (ackWaiting (if twinOk then fireAt (s1.modSeq o fun q => recordSlack q p.slack) o p else twinTrip s1 o p) o)

/-! ### Reads and writes of the TIMEBASE block (R25, R65, R233, R280) -/

/-- Answer a read with one word. -/
def reply (s : State) (w : Word) : State := s.modMgmt fun m => { m with answer := [w], answerStatus := 0 }

/-- SLACK_CTRL (R25). No role of R458 names it. -/
def slackClear (s : State) (v : Nat) : State :=
  outputs.foldl (fun s o => if nbit v o then s.modSeq o fun q => { q with slackRunMin := 0xFFFFFFFF, lateCount := 0 } else s) s

def execSlackClear (path : PathId) (v : Word) (s : State) : Host.Outcome State Fault Refusal :=
  if serves s path then .next (slackClear s v.toNat) else .next s

/-- TB_TICK_LO is read: the high word is latched (R65). -/
def readTick (s : State) : State × Word :=
  ({ s with tb := { s.tb with tickHi := BitVec.ofNat 32 (s.tb.tick / 2 ^ 32) } }, BitVec.ofNat 32 s.tb.tick)
/-- FRAME_CNT_LO_n is read: the high word is latched (R233). -/
def readFrameCnt (s : State) (o : Nat) : State × Word :=
  let c := (s.tgAt o).counter
  (s.modTg o fun t => { t with cntHi := BitVec.ofNat 32 (c / 2 ^ 32) }, BitVec.ofNat 32 c)
/-- PTP_OFS_LO is read: the high word is latched (R280). -/
def readPtpOfs (s : State) : State × Word :=
  let x := wrapInt 64 s.ptp.offset
  ({ s with ptp := { s.ptp with offHi := BitVec.ofNat 32 (x / 2 ^ 32) } }, BitVec.ofNat 32 x)

def execTbTickLoRead (path : PathId) (s : State) : Host.Outcome State Fault Refusal :=
  .next (withRole s path 0 0x20010 fun s => let r := readTick s; reply r.1 r.2)
def execFrameCntLoRead (path : PathId) (o : Nat) (s : State) : Host.Outcome State Fault Refusal :=
  .next (withRole s path 0 (0x20118 + 0x40 * o) fun s => let r := readFrameCnt s o; reply r.1 r.2)
def execPtpOfsLoRead (path : PathId) (s : State) : Host.Outcome State Fault Refusal :=
  .next (withRole s path 0 0x30018 fun s => let r := readPtpOfs s; reply r.1 r.2)

/-! ### Disciplining the tick (R67 to R70) -/

def refSel (m : WordMap) : Nat := m.fld 0x20000 1 0
/-- The slew limit in units of 2^-14 ppm per 10 s (R68): 0.1, 1 or 10 ppm/s; the reserved code moves nothing. -/
def slewPer10s (m : WordMap) : Nat := [16384, 163840, 1638400, 0].getD (m.fld 0x20000 9 8) 0

/-- What the slew limit lets the correction move in a number of ticks (R68). -/
def slewStep (m : WordMap) (ticks : Nat) : Rat := (slewPer10s m * ticks : Nat) / 4000000000

/-- The correction at a tick (R68): from its value at `slewAt` to its target, no faster than the slew limit. -/
def corrAt (m : WordMap) (t : TbState) (now : Nat) : Rat :=
  let d := slewStep m (now - t.slewAt)
  t.corr + max (-d) (min d (t.target - t.corr))

/-- The corners of the correction's course up to a tick, newest first: that tick, and the one at which the target was reached
if it was; those of the last 10 s and the one before them. -/
def corners (m : WordMap) (t : TbState) (now : Nat) : List (Rat × Rat) :=
  let c := corrAt m t now
  let far := if t.target < t.corr then t.corr - t.target else t.target - t.corr
  let per := slewPer10s m
  let reach : Rat := (t.slewAt : Rat) + far * 4000000000 / (max 1 per : Nat)
  let l := (if per ≠ 0 ∧ reach < now ∧ far ≠ 0 then [((now : Rat), c), (reach, t.target)] else [((now : Rat), c)]) ++ t.knots
  let recent := l.takeWhile fun e => decide ((now : Rat) < e.1 + 4000000000)
  recent ++ (l.drop recent.length).take 1

/-- The integral of the correction from a tick to the newest corner, between corners along straight lines. -/
def corrArea (start : Rat) : List (Rat × Rat) → Rat
  | [] => 0
  | [e] => if start < e.1 then (e.1 - start) * e.2 else 0
  | e :: f :: r =>
    if e.1 ≤ start then 0
    else if start ≤ f.1 then (e.1 - f.1) * (e.2 + f.2) / 2 + corrArea start (f :: r)
    else
      let c := f.2 + (e.2 - f.2) * (start - f.1) / (e.1 - f.1)
      (e.1 - start) * (e.2 + c) / 2

/-- The mean of the correction over the last 10 s (R69), or since TICK 0. -/
def meanCorr (m : WordMap) (t : TbState) : Rat :=
  let start : Rat := ((t.tick - 4000000000 : Nat) : Rat)
  if (t.tick : Rat) ≤ start then t.corr else corrArea start (corners m t t.tick) / ((t.tick : Rat) - start)

/-- The correction makes for a new target from where it stands (R68): only its course changes, never TICK. -/
def steer (m : WordMap) (t : TbState) (target : Rat) : TbState :=
  { t with corr := corrAt m t t.tick, target := max (-3276800) (min 3276800 target), slewAt := t.tick, knots := corners m t t.tick }

/-- The expected period of SYNC_IN in ticks (R67, R238): by SYNC_FMT; a pulse per frame has the nominal period of the
lowest-numbered output whose GEN_SRC is 1. -/
def syncPeriod (m : WordMap) : Rat :=
  match m.fld 0x20000 5 4 with
  | 0 => 40
  | 1 => 16
  | 2 => 400000000
  | _ => match outputs.find? fun o => genSrc m o == 1 with
    | some o => (tgNum m o : Rat) / (max 1 (tgDen m o) : Nat)
    | none => 0

/-- The interval without a valid edge or message after which a reference is lost, in ticks (R67). -/
def refInterval (m : WordMap) : Rat := [0, 4 * syncPeriod m, 1200000000, 25600].getD (refSel m) 0
/-- The lock band in picoseconds and its time in ticks (R67). -/
def lockBand (m : WordMap) : Nat × Nat := if refSel m = 2 then (20000, 4000000000) else (2000, 400000000)

/-- The frequency of the reference against the crystal's, in ppm (R67): the drift of the phase error since the last sample, which
a faster reference makes grow (DEDUCED, notes/assumptions/102.md), beside the correction. -/
def refOffset (m : WordMap) (t : TbState) (err : Int) : Rat :=
  if !t.refValid || t.tick ≤ t.sample then 0
  else ((err - t.phaseErr : Int) : Rat) * 1000000 / ((t.tick - t.sample) * 2500 : Nat) + corrAt m t t.tick / 16384

/-- An edge or message of the selected reference arrives with its phase error in picoseconds (R67, R68): the loop, whose law is
not stated (Config.tbServo), asks for a correction, except in holdover. -/
def execTbReferenceSample (err : Int) (s : State) : Host.Outcome State Fault Refusal :=
  let m := s.rt 4
  if refSel m = 0 then .next s
  else
    let t := s.tb
    let u := if t.phase = 3 then t else steer m t (Config.tbServo err t.corr.floor t.tick)
    let inside := decide (err.natAbs ≤ (lockBand m).1)
    .next { s with tb := { u with
      phaseErr := err, refValid := true, sample := t.tick, phase := if t.phase = 0 then 1 else t.phase
      offset := refOffset m t err
      validSince := if t.refValid then t.validSince else t.tick
      bandSince := if inside then some (t.bandSince.getD t.tick) else none } }

/-- Whether the selected reference is lost (R67): no sample for its interval, or a frequency more than 200 ppm off. -/
def refGone (m : WordMap) (t : TbState) : Bool :=
  !t.refValid || decide ((t.sample : Rat) + refInterval m ≤ t.tick) || decide (200 < t.offset) || decide (t.offset < -200)

/-- The selected reference is lost (R69): holdover at the mean of the last 10 s. -/
def loseReference (s : State) : State :=
  let t := { s.tb with refValid := false, bandSince := none, offset := 0 }
  if s.tb.phase = 3 then { s with tb := t }
  else raise { s with tb := { steer (s.rt 4) t (meanCorr (s.rt 4) t) with phase := 3 } } 0x0201 0

def execTbRefLost (s : State) : Host.Outcome State Fault Refusal :=
  if refSel (s.rt 4) ≠ 0 ∧ refGone (s.rt 4) s.tb then .next (loseReference s) else .next s

/-- The reference has been valid for 1 s (R69): the loop relocks. -/
def execTbHoldoverExit (s : State) : Host.Outcome State Fault Refusal :=
  if s.tb.phase = 3 ∧ !refGone (s.rt 4) s.tb ∧ s.tb.validSince + 400000000 ≤ s.tb.tick then
    .next { s with tb := { s.tb with phase := 1, bandSince := none } }
  else .next s

/-- The lock condition of R67 holds: the phase error has stayed within the band for its time. -/
def lockHolds (m : WordMap) (t : TbState) : Bool :=
  match t.bandSince with | some b => decide (b + (lockBand m).2 ≤ t.tick) | none => false

def execTbLocked (s : State) : Host.Outcome State Fault Refusal :=
  if refSel (s.rt 4) ≠ 0 ∧ s.tb.phase = 1 ∧ lockHolds (s.rt 4) s.tb then .next (raise { s with tb := { s.tb with phase := 2 } } 0x0202 0)
  else .next s

/-- A change of REF_SEL or SLEW takes over at its Pour (R70), from the correction then in force. -/
def changeReference (s : State) (old : WordMap) : State :=
  let r := refSel (s.rt 4)
  let t := steer old s.tb s.tb.target
  if refSel old = r then { s with tb := t }
  else { s with tb := { t with target := t.corr, phase := if r = 0 then 0 else 1, refValid := false, bandSince := none, offset := 0 } }

/-! ### Slack at a boundary (R25, R89, R90, R524) -/

def slackWarn (m : WordMap) (o : Nat) : Nat := m.fld (0x20440 + 4 * o) 15 0
def slackTemper (m : WordMap) (o : Nat) : Nat := m.fld (0x20440 + 4 * o) 31 16

/-- Events of the ending frame that are not yet acknowledged are late (R524): counted, discarded, and the frame is held. HOLD_DARK
carries the fire time and slack of the post that waits for its acknowledge, and of the first event not yet posted when none waits
(DESIGN CHOICE, notes/assumptions/121.md). -/
def boundaryUnposted (s : State) (o : Nat) : State :=
  let k := (s.tgAt o).counter
  let q := s.seqAt o
  let old := (match q.waiting with | some p => [p] | none => []) ++ q.unposted
  let late := old.filter fun p => decide (p.frame ≤ k)
  let s1 := s.modSeq o fun q => { q with
    waiting := match q.waiting with | some p => if p.frame ≤ k then none else some p | none => none
    unposted := q.unposted.filter fun p => decide (k < p.frame)
    lateCount := if (s.portAt o).darkByLink then q.lateCount else satAdd 0xFFFFFFFF q.lateCount late.length }
  match late with
  | [] => s1
  | p :: _ => if (s.portAt o).darkByLink then s1 else holdFault s1 o k p.fire s.tb.tick

/-- The slack accounting of a boundary (R25, R89): S_n moves by at most one rule, and the first condition of R90 is judged. A frame
counts among the 32 when S_n was 7 before its boundary; the frame whose boundary raises S_n to 7 does not (DESIGN CHOICE,
notes/assumptions/122.md). -/
def boundarySlack (s : State) (o : Nat) : State :=
  let m := s.rt o
  let q := s.seqAt o
  let mn := q.runningMin
  let held := q.heldThisFrame
  let low := decide (mn < slackTemper m o)
  let warn := decide (mn < slackWarn m o)
  let well := if warn then 0 else q.sinceWell + 1
  let sReq := if held then min 7 (q.sReq + 2) else if low then min 7 (q.sReq + 1) else if 256 ≤ well then q.sReq - 1 else q.sReq
  let at7 := if q.sReq = 7 ∧ low then q.lowAt7 + 1 else 0
  let s1 := s.modSeq o fun q => { q with
    slackFrameMin := mn, runningMin := 0xFFFFFFFF, heldThisFrame := false, sReq := sReq, lowAt7 := min at7 32
    sinceWell := if sReq ≠ q.sReq then 0 else min well 256 }
  let s2 := if !held && low && sReq != q.sReq then raise s1 0x0A03 o else s1
  let s3 := if warn then raiseLimited s2 0x0A02 o o oneSecond .internal else s2
  if at7 = 32 then raiseHalt s3 0x0A04 o else s3

end Sys2Proof.Machine
end

