-- ==== Sys2Proof/Machine/Frame.lean ====
section
/-! DEFINITION. Frame boundaries: what a boundary of an output does, the frame-head events, stolen frames, Vesper probes, the
flip log, genlock, timing-mode changes and retired disables (R26, R87, R119, R232 to R237, R253 to R261, R383). -/
namespace Sys2Proof.Machine

/-! ### Settings and their effect at a boundary (R252, R255) -/

/-- The output with the lowest index whose generator runs. -/
def lowestRunning (s : State) : Option Nat := outputs.find? fun o => (s.tgAt o).running

/-- A generator starts (R87, R474): its first frame start lies 4,096 ticks ahead, with the settings in force. -/
def startGenerator (s : State) (o : Nat) : State :=
  let m := s.act
  let s1 := deriveChanged (s.modLadle fun l => { l with rt := listSet l.rt o m }) o (s.rt o) m
  startLink (s1.modTg o fun t => { t with
    running := true, den := max 1 (tgDen m o), pos := (s.tb.tick + 4096) * 25 * max 1 (tgDen m o), len := 0, ctaken := false }) o

/-- A generator stops because its output has no partition. -/
def stopGenerator (s : State) (o : Nat) : State :=
  ((s.modTg o fun t => { t with running := false }).modPort o fun p => { p with link := 0 }).modScan o fun x => { x with jesd := 0 }

/-- Strings of an output that its new settings no longer enable stop: command 0, no group policy (R257). -/
def stopDisabled (s : State) (o : Nat) (old : WordMap) : State :=
  let gone := (outStrings old o).filter fun nn => !(strEnabled (s.rt o) nn && strOut (s.rt o) nn == o)
  gone.foldl offString s

/-- Strings that new settings enable on an output that runs queue for start pacing (R122). -/
def startEnabled (s : State) (o : Nat) (old : WordMap) : State :=
  if !lights s o then s
  else ((outStrings (s.rt o) o).filter fun nn => !(strEnabled old nn && strOut old nn == o)).foldl (fun s nn =>
    enqueue (s.rt o) s nn) s

/-- A generator whose source changed forgets the old one's reference. -/
def sourceChange (s : State) (o : Nat) (old : WordMap) : State :=
  if genSrc old o = genSrc (s.rt o) o ∧ srcIdx old o = srcIdx (s.rt o) o then s
  else s.modTg o fun t => { t with ref := none, refPrev := none, refLost := false, locked := false, goodRun := 0, badRun := 0 }

/-- The device's settings come into force with the lowest-numbered running output (R252). -/
def takeDevice (s : State) (new : WordMap) : State :=
  let old := s.rt 4
  let s1 := changeReference (s.modLadle fun l => { l with rt := listSet l.rt 4 new }) old
  if ilkAntivalent old = ilkAntivalent new then s1 else judgeIlk s1

/-- The settings `new` come into force for the real-time engines of an output. -/
def takeSettings (s : State) (o : Nat) (new : WordMap) : State :=
  let old := s.rt o
  let s1 := deriveChanged (s.modLadle fun l => { l with rt := listSet l.rt o new }) o old new
  let s2 := sourceChange (startEnabled (stopDisabled s1 o old) o old) o old
  if lowestRunning s = some o then takeDevice s2 new else s2

/-- The settings captured at C_k act from B_k (R252): whole on an output in STANDBY, without its timing fields on one that
runs (R255). -/
def boundarySettings (s : State) (o : Nat) : State :=
  let new := (s.tgAt o).cfgAtC
  if !(s.tgAt o).ctaken then s
  else
    let old := s.rt o
    let still := (s.outAt o).mode = 1 ∧ ¬ (s.outAt o).trans
    let s1 := takeSettings (s.modTg o fun t => { t with ctaken := false }) o (if still then new else keepTiming old new o)
    if ¬ still then s1
    else
      let den := max 1 (tgDen new o)
      let s2 := relink (s1.modTg o fun t => { t with den := den, pos := t.pos * den / t.den, len := t.len * den / t.den }) o old
      if fsSize new o = 0 then stopGenerator s2 o else s2

/-! ### The end of a frame -/

/-- The accounting of the frame that ends (R25, R88, R89, R414, R524): unposted events, slack, and recoveries that end at this
boundary. -/
def endFrame (s : State) (o : Nat) : State :=
  let s1 := boundarySlack (boundaryUnposted s o) o
  let k := (s.tgAt o).counter
  let s2 := s1.modSeq o fun q => { q with holding := q.holding && decide (k < q.holdUntil) }
  recoveredAll s2 [0x0210, 0x0A05, 0x0B05, 0x0B04, 0x0B03] o

/-- A dark output whose link is up and whose array is unparked, UNPARK_TIME after an UNPARK, resumes (R151). -/
def resumeLink (s : State) (o : Nat) : State :=
  let p := s.portAt o
  let up := if isScan (s.rt o) o then decide ((s.scanAt o).jesd = 2) else decide (p.link = 5 ∧ p.status.state = 1 ∧ p.unparkUntil ≤ s.tb.tick)
  if p.darkByLink && p.resumeWait && up then s.modPort o fun p => { p with darkByLink := false, resumeWait := false } else s

/-- The scan engine at a frame start: forced blanks of the last frame end, and the line count and loop start afresh (R85,
R167, R176). An output that is not shown stays blank. -/
def boundaryScan (s : State) (o : Nat) : State :=
  let x := s.scanAt o
  let fired : Bool := match x.slowFire with | some f => decide (25 * (frameStart s o).1 ≤ f) | none => false
  let blank := blankFrame s o || (s.seqAt o).holding
  let s1 := s.modScan o fun x => { x with
    lines := x.linesNow
    linesNow := 0
    rows := []
    epsPrev := List.replicate 6 0
    forced := List.replicate 16 none
    allForced := blank }
  if fired then s1 else s1.modOut o fun y => { y with slowFired := 0 }

/-! ### Flip, repeat and the flip log (R253, R254) -/

/-- Why a frame of an output emits no light, as a CAUSE (R254): none when it is lit. -/
def darkCause (s : State) (o : Nat) (flipping : Bool) : Option Nat :=
  let x := s.outAt o
  if s.aod.latch then some 10
  else if x.entry.isSome then some 11
  else if (s.portAt o).darkByLink then some 8
  else if (s.seqAt o).holding then some 6
  else if x.mode = 5 ∨ !isLit s o then some 0
  else if (if flipping then backBuf s o else frontBuf s o).dark then some 9
  else match (s.tgAt o).tm with
    | .idle => if x.exit = .stopping ∨ (!flipping && !(frontBuf s o).complete) then some 0 else none
    | .stopped => none
    | .ramp => none
    | _ => some 7

/-- The record of a boundary and FLIP_STATUS (R254). -/
def logFlip (s : State) (o kind cause : Nat) (dark : Bool) : State :=
  let t := s.tgAt o
  let (tick, fine) := posInstant t t.pos
  let loc := (25 * tick + fine) / 10
  let b := frontBuf s o
  let r : FlipRec := {
    count := t.counter, tLocal := loc, kind := kind, dark := dark, cause := cause, tag := b.tag, prog := b.prog
    tPtp := if s.ptp.valid then ((loc : Int) + s.ptp.offset).toNat else 0xFFFFFFFFFFFFFFFF }
  s.modTg o fun t => { t with
    flipLog := listSet t.flipLog (t.counter % 16) r
    lastKind := kind + (if dark then 128 else 0)
    lastCause := cause }

/-- Whether the output flips at a boundary: its back buffer holds the complete frame of this boundary (R31, R253). -/
def flips (s : State) (o : Nat) : Bool :=
  let b := backBuf s o
  b.complete && b.frame == (s.tgAt o).counter && !b.withhold
    && (decide ((s.outAt o).mode = 2 ∨ (s.outAt o).mode = 3 ∨ (s.outAt o).mode = 5) || (s.outAt o).entry.isSome)

/-- Whether composition of an output is stopped by a timing-mode change or an exit's ramp frame (R255 steps 1 to 3). -/
def ramps (s : State) (o : Nat) : Bool :=
  (s.outAt o).exit == .ramp || (s.tgAt o).tm == .stopped || (s.tgAt o).tm == .ramp || (s.tgAt o).halted

/-- The cause of a repeat (R254). -/
def repeatCause (s : State) (o : Nat) : Nat :=
  if ramps s o then 7
  else if (backBuf s o).withhold ∧ (backBuf s o).frame = (s.tgAt o).counter then 9
  else match (s.compAt o).fuc with
    | some f => (match f.phase with
      | .complete => 5
      | .poisoned => 2
      | .abandoned => (s.compAt o).lastCause
      | _ => 1)
    | none => (s.compAt o).lastCause

/-- The buffers change roles (R60, R253). -/
def swapBuffers (s : State) (o : Nat) : State :=
  s.modEnc o fun e =>
    { e with bufs := e.bufs.modify e.frontIdx (fun b => { b with complete := false }), frontIdx := 1 - e.frontIdx }

/-- A frame that was not finished by its boundary is given up; the composer of the output is idle (R31, R38). -/
def clearFrame (s : State) (o : Nat) : State :=
  let s1 := match (s.compAt o).fuc with
    | some f => if f.phase == FramePhase.complete || f.phase == FramePhase.abandoned || f.phase == FramePhase.poisoned then s else releaseFrame s o .abandoned
    | none => s
  (s1.modComp o fun c => { c with fuc := none, lastCause := 12 }).modEnc o fun e =>
    { e with bufs := e.bufs.modify (1 - e.frontIdx) (fun b => { b with complete := false, withhold := false }) }

/-- The flip or repeat at a boundary, with its record and its events (R253, R254, R260). -/
def flipOrRepeat (s : State) (o : Nat) : State :=
  let x := s.outAt o
  let dark := darkCause s o (flips s o)
  if flips s o then
    let s1 := (swapBuffers s o).modTg o fun t => { t with flips := (t.flips + 1) % 2 ^ 32 }
    clearFrame (logFlip s1 o 0 (dark.getD 0) dark.isSome) o
  else if x.mode = 4 ∧ x.exit = .none_ then logFlip s o 2 (dark.getD 0) dark.isSome
  else
    let cause := repeatCause s o
    let counts := x.mode = 2 ∨ x.mode = 3 ∨ x.entry.isSome
    let s1 := logFlip s o 1 (if x.mode = 5 then 0 else cause) dark.isSome
    let s2 := if counts then
        raise (s1.modTg o fun t => { t with repeats := satAdd 0xFFFF t.repeats 1 }) 0x0223 (o + cause * 2 ^ 8)
      else s1
    clearFrame s2 o

/-- Whether a scanner is ready for light (R160): the tracker locked, the link up, and the slow axis running, with events fired at the
last `n` frame starts. -/
def scanReady (s : State) (o n : Nat) : Bool :=
  decide ((s.scanAt o).fast = 3 ∧ (s.scanAt o).jesd = 2 ∧ n ≤ (s.outAt o).slowFired)

/-- An entry completes at a boundary that flips (R480, R481); that boundary's frame is the first lit one. -/
def finishEntry (s : State) (o : Nat) (flipped : Bool) : State :=
  let x := s.outAt o
  let p := s.portAt o
  let ready := if isScan (s.rt o) o then scanReady s o 2 else decide (p.link = 5 ∧ p.status.state = 1) && p.cmd.isNone && p.cmdQueue.isEmpty
  if x.entry.isSome && flipped && ready && stringsReady s o then
    modeChange (s.modOut o fun y => { y with mode := showMode s o, trans := false, entry := none }) o x.mode (showMode s o)
  else s

/-- A flipped STILL frame puts its output in STILL (R259). -/
def enterStill (s : State) (o : Nat) (flipped : Bool) : State :=
  let x := s.outAt o
  if flipped && (frontBuf s o).still && (x.mode == 2 || x.mode == 3) then
    let s1 := dropRefs (((interruptRun s o).modOut o fun y => { y with mode := 4 }).modTg o fun t => { t with stillSpent := true, stillIdle := 0 }) o
    modeChange (raise s1 0x0225 o) o x.mode 4
  else s

/-! ### Exits and timing-mode changes (R255, R257, R483) -/

/-- Step 3 of R255: the old generator stops, the strings ramp to idle, and the array parks or the lasers are forced blank. The
fast axis stops here when it must restart. Blank converters, or an array without its link, need no PARK to complete. -/
def stopTiming (s : State) (o : Nat) : State :=
  let s1 := stopStrings s o
  let s2 := (s1.modDrive fun d => { d with half := listSet d.half o false }).modTg o fun t => { t with running := false, tm := .parked s.tb.tick }
  if isScan (s.rt o) o then
    let s3 := s2.modScan o fun x => { x with allForced := true, slowFire := none }
    let s4 := if sameFields (s.rt o) s.act [(aFax o, 0xFFFFFFFF), (aPortCfg o, 0x80000000)] then s3
      else (applyRun s3 o 0).modTg o fun t => { t with waitMore := true }
    parkDone s4 o
  else if (s2.portAt o).link = 5 then portSend s2 o 0x10 0
  else parkDone s2 o

/-- The exit and the timing-mode change of an output move on at its boundary; the first of their frames is the ramp frame, with
the light target halved. -/
def boundarySteps (s : State) (o : Nat) : State :=
  let ramp := fun (s : State) => s.modDrive fun d => { d with half := listSet d.half o true }
  match (s.outAt o).exit with
  | .rampNext => ramp (s.modOut o fun x => { x with exit := .ramp })
  | .ramp => stopOutput s o
  | .stopping => s
  | .none_ =>
    match (s.tgAt o).tm with
    | .stopped => ramp (s.modTg o fun t => { t with tm := .ramp })
    | .ramp => stopTiming s o
    | _ => s

/-- Step 5 of R255: the first lit frame of the new timing, once the array is unparked or the scanner and its link are ready and a
complete frame is shown; a scanner or JESD204 link that restarted leaves the output dark for one frame more (R256). -/
def finishTiming (s : State) (o : Nat) (flipped : Bool) : State :=
  match (s.tgAt o).tm with
  | .restarted t0 =>
    let x := s.outAt o
    let p := s.portAt o
    let ready := if isScan (s.rt o) o then scanReady s o 1 else decide (p.link = 5 ∧ p.status.state = 1)
    if ready && (s.tgAt o).waitMore then s.modTg o fun t => { t with waitMore := false }
    else if ready && (flipped || (frontBuf s o).complete) && stringsReady s o then
      let s1 := raise (s.modTg o fun t => { t with tm := .idle }) 0x0224 (o + (s.tb.tick - t0) / 400 % 2 ^ 32 * 2 ^ 32)
      let m := showMode s1 o
      if x.mode = m ∨ x.mode = 1 then s1 else modeChange (s1.modOut o fun y => { y with mode := m }) o x.mode m
    else s
  | _ => s

/-! ### Anneal at a boundary (R380 to R384) -/

/-- A full run takes its outputs from the first boundary after the request, and gives them back at their first boundary 1 ms
after its end; to SCAN only with the scanner ready (R160). Every boundary counts the frames since the output's last stolen one (R383). -/
def boundaryAnneal (s : State) (o : Nat) : State :=
  let x := s.outAt o
  let back := if x.prev = 4 then showMode s o else x.prev
  if nth s.ann.resume o false && decide (s.ann.resumeAt ≤ s.tb.tick) && (back != 3 || scanReady s o 1) then
    modeChange ((s.modOut o fun y => { y with mode := back }).modAnn fun a => { a with resume := listSet a.resume o false }) o 5 back
  else
  let s1 := s.modSeq o fun q => { q with sinceSteal := satAdd 255 q.sinceSteal 1 }
  match s.ann.run with
  | none => s1
  | some r =>
    if r.kind = 0 ∧ nbit r.outputs o ∧ x.mode ≠ 5 ∧ x.entry.isNone ∧ x.exit = .none_ then
      let s2 := s1.modAnn fun a => { a with run := some { r with prevModes := listSet r.prevModes o x.mode, enteredAt := s.tb.tick } }
      let s3 := darken (modeChange (s2.modOut o fun y => { y with prev := x.mode, mode := 5 }) o x.mode 5) o
      if x.mode = 1 then
        queueStrings (s3.modAnn fun a => { a with run := a.run.map fun r => { r with started := listSet r.started o true } }) o
      else s3
    else s1

/-- Ticks of one measurement point of a step (R378). -/
def pointTicks (step : Nat) : Nat := [0, 20000, 8000, 16000, 80000, 0, 0, 8000].getD step 0
/-- STEAL_GAP. -/
def stealGap (m : WordMap) : Nat := max 24 (m.fld 0xE0008 7 0)

/-- Whether the next frame of an output is stolen (R383, R384), judged when its head events are posted. -/
def steals (s : State) (o : Nat) : Bool :=
  let x := s.outAt o
  match s.ann.run with
  | none => false
  | some r =>
    r.kind == 1 && r.st == 2 && nbit r.outputs o && (match r.todo with | (_, p) :: _ => p == o | [] => false)
      && decide (stealGap s.act ≤ (s.seqAt o).sinceSteal) && (x.mode == 2 || x.mode == 4) && x.exit == .none_
      && (match s.ladle.pending with | some p => !nbit p.mask o | none => true)
      && (s.seqAt o).sReq == 0 && (s.seqAt o).steal.isNone

/-- The points of a stolen frame: item, point and time from frame start, from the run's place (R383). -/
def stolenPoints (m : WordMap) (o : Nat) (r : AnnRun) : List (Nat × Nat × Nat) :=
  match r.todo with
  | [] => []
  | (step, _) :: _ =>
    let per := max 1 (pointTicks step)
    let n := (pMin m o - 160000) / per
    let all := match r.items with
      | [] => []
      | i :: rest => ((List.range (r.points - r.point)).map fun k => (i, r.point + k)) ++ rest.flatMap fun j => (List.range r.points).map fun k => (j, k)
    (List.range (min n all.length)).map fun k => let a := nth all k (0, 0); (a.1, a.2, 80000 + k * per)

/-- The measurement events of a stolen frame: each string held at its point's amplitude, then released (R378, R383). -/
def stolenEvents (m : WordMap) (o : Nat) (r : AnnRun) : List ProgEvent :=
  let pts := stolenPoints m o r
  let step := (r.todo.headD (0, 0)).1
  if step = 1 then []
  else
    let per := pointTicks step
    (pts.flatMap fun p =>
      let last := decide (p.2.1 + 1 = r.points)
      (⟨2, p.1, p.2.2, effAmp p.2.1 + 2 * 2 ^ 16⟩ : ProgEvent) :: if last then [⟨2, p.1, p.2.2 + per - 1, 0⟩] else [])
    ++ (match pts.getLast? with
        | some p => ⟨2, p.1, p.2.2 + per, 0⟩ :: (List.range 6).map fun c => (⟨1, c, p.2.2 + per + 1 + c / 4, 0⟩ : ProgEvent)
        | none => [])

/-! ### Posting a frame's events (R66, R86, R87) -/

/-- A program event at a frame start: its tick and fine offset, with the skew of its class. -/
def placeEvent (m : WordMap) (o tick fine k : Nat) (e : ProgEvent) : Post :=
  let f := fine + (if e.cls = 0 then strobeFine m o else if e.cls = 1 then ampFine m o else 0)
  let f' := if e.cls ≤ 1 then f else 0
  { cls := e.cls, idx := e.idx, fire := tick + e.t + f' / 25, fine := if e.cls ≤ 1 then f % 25 else fine, payload := e.payload, slack := 0, frame := k }

/-- Whether a frame of an output runs its program: shown, lit, not stolen and not given up. -/
def showsProgram (s : State) (o : Nat) : Bool :=
  isLit s o && (s.outAt o).exit != .stopping && !(s.portAt o).darkByLink && !(s.seqAt o).holding && (frontBuf s o).complete
    && (match (s.tgAt o).tm with | .idle => true | .stopped => true | .ramp => true | _ => false)
    && (s.seqAt o).steal != some (s.tgAt o).counter

/-- The events that the present frame posts (R75, R85, R174, R383). -/
def frameEvents (s : State) (o : Nat) : List ProgEvent :=
  let m := frontCfg s o
  if showsProgram s o then
    let p := (frontBuf s o).prog
    if isScan m o then scanProgEvents m o p else planeEvents m o p
  else if (s.seqAt o).steal = some (s.tgAt o).counter then
    (match s.ann.run with | some r => stolenEvents m o r | none => [])
  else if (s.outAt o).mode = 5 ∧ !isScan (s.rt o) o ∧ (frontBuf s o).complete then
    [⟨0, 0, 1024, strobePayload (2 ^ progNblocks m o (frontBuf s o).prog - 1) 1 0⟩]
  else []

/-! ### Genlock (R235 to R237) -/

/-- The alignment point of ST 2059-1 at or before `pos`, for a frame rate NUM / DEN (R235): the multiples of the period since the
PTP epoch, in local time; positions in units of 1/(25 × DEN) tick, of which 10 × DEN make a nanosecond. -/
def alignPoint (num den : Nat) (offset pos : Int) : Int :=
  let o := 10 * offset * den
  let per : Int := 25 * num
  if per = 0 then pos else (pos + o) / per * per - o

/-- The latest of some instants in fine steps that lies at or before `pos`, newest first. -/
def latestRef (den : Nat) (pos : Int) (l : List Nat) : Option Int :=
  (l.find? fun r => decide (((r * den : Nat) : Int) ≤ pos)).map fun r => ((r * den : Nat) : Int)

/-- The two frame starts that a Relvor stream last announced, newest first. -/
def announcedOf (s : State) (k : Nat) : List Nat :=
  ([nth s.rlv.announced k none, nth s.rlv.announcedPrev k none].filterMap id).map (·.1)

/-- The reference instant R_k that counts for a frame start at `pos`, with the settings `m` (R235), in units of
1/(25 × DEN) tick; none without a source or after the loss of its reference. -/
def genRef (s : State) (m : WordMap) (o den : Nat) (pos : Int) : Option Int :=
  let t := s.tgAt o
  if t.refLost then none
  else match genSrc m o with
    | 1 => latestRef den pos ([t.ref, t.refPrev].filterMap id)
    | 2 => if s.ptp.valid then some (alignPoint (tgNum m o) den s.ptp.offset pos) else none
    | 3 => latestRef den pos (announcedOf s (srcIdx m o))
    | 4 => latestRef den pos ((s.inAt (srcIdx m o)).refTimes)
    | _ => none

/-- PHASE of an output, in fine steps. -/
def tgPhase (m : WordMap) (o : Nat) : Int := signedOf 32 (m.nat (0x20108 + 0x40 * o))

/-- err of R236 in units of 1/(25 × DEN) tick, in the range from −P/2 to P/2. -/
def genErr (t : TgState) (num : Nat) (phase r : Int) : Int :=
  let p : Int := 25 * num
  let e := (r + phase * t.den - t.pos) % p
  if p < 2 * e then e - p else e

/-- The length of a pulled frame (R236), rounded as R232 rounds lengths: all in units of 1/(25 × DEN) tick. -/
def pulledLen (p e : Int) : Int := divAway (2000 * p + clampInt (-p) p (250 * e)) 2000

/-- The generator places its next frame start (R232, R236, R237). -/
def nextStart (s : State) (o : Nat) : State :=
  let m := s.rt o
  let t := s.tgAt o
  let p := periodUnits s o
  match genRef s m o t.den t.pos with
  | none => s.modTg o fun t => { t with len := p, pos := t.pos + p, stretching := false }
  | some r =>
    let e := genErr t (tgNum m o) (tgPhase m o) r
    let fine := divAway e t.den
    let good := if e.natAbs ≤ 2 * t.den then min 16 (t.goodRun + 1) else 0
    let bad := if 40 * t.den < e.natAbs then min 4 (t.badRun + 1) else 0
    let stretch := m.bit (aTgCfg o) 15 && decide ((p : Int) < 8 * e.natAbs)
    let len := if stretch then p + (e % (p : Int)).toNat else (pulledLen p e).toNat
    let locks := !t.locked && decide (good = 16)
    let unlocks := t.locked && decide (bad = 4)
    let s1 := s.modTg o fun t => { t with
      err := fine, len := len, pos := t.pos + len, stretching := stretch, goodRun := good, badRun := bad
      locked := (t.locked || locks) && !unlocks }
    let s2 := if locks then raise s1 0x0220 o else s1
    let s3 := if unlocks then raise s2 0x0221 o else s2
    if stretch then raise s3 0x0222 o else s3

/-- Whether 4 periods of an output have passed since an instant in fine steps; an instant that never came is past. -/
def longPast (s : State) (o : Nat) (r : Option Nat) : Bool :=
  match r with
  | none => true
  | some x => decide ((x : Rat) / 25 + 4 * (tgNum (s.rt o) o : Rat) / (max 1 (tgDen (s.rt o) o) : Nat) ≤ s.tb.tick)

/-- Whether the reference of an output's GEN_SRC is lost, by the table of R236. -/
def genRefGone (s : State) (o : Nat) : Bool :=
  let m := s.rt o
  let k := srcIdx m o
  match genSrc m o with
  | 1 => longPast s o (s.tgAt o).ref
  | 2 => !s.ptp.valid
  | 3 => s.rlv.state == 3 || longPast s o ((nth s.rlv.frameAt k none).map (25 * ·))
  | 4 => (s.inAt k).st == 1 || longPast s o (s.inAt k).lastRef
  | _ => false

/-- A reference instant of an output's source arrives (R235), in fine steps. Only a SYNC_IN edge is new to the device; the sources 2
to 4 have theirs in the PTP time, in the stream's announcements and in the input's frames. A reference that was lost counts again
(R236). -/
def execGenlockReference (o instant : Nat) (s : State) : Host.Outcome State Fault Refusal :=
  let s1 := if genSrc (s.rt o) o = 1 then s.modTg o fun t => { t with ref := some instant, refPrev := t.ref } else s
  .next (if genRefGone s1 o then s1 else s1.modTg o fun t => { t with refLost := false })

/-- A reference instant has come for the generators that follow a source and, beside GEN_SRC 2, its index (R236). -/
def regainRef (s : State) (src k : Nat) : State :=
  outputs.foldl (fun s o =>
    if genSrc (s.rt o) o = src ∧ (src = 2 ∨ srcIdx (s.rt o) o = k) then s.modTg o fun t => { t with refLost := false } else s) s

/-- The generator's reference is lost (R236): it unlocks, and continues at length P until an instant arrives again. -/
def loseGenRef (s : State) (o : Nat) : State :=
  let t := s.tgAt o
  if genSrc (s.rt o) o = 0 ∨ t.refLost then s
  else
    let s1 := s.modTg o fun t => { t with refLost := true, ref := none, refPrev := none, locked := false, goodRun := 0, badRun := 0 }
    if t.locked then raise s1 0x0221 o else s1

/-- The reference's time limit has passed (R236). -/
def execTgRefLost (o : Nat) (s : State) : Host.Outcome State Fault Refusal :=
  .next (if genRefGone s o then loseGenRef s o else s)

/-! ### Vesper probe windows (R119, R120, R175) -/

/-- The probe windows of a PLANE frame, as start and length in ticks after frame start (R119). -/
def planeWindows (m : WordMap) (o p frameLen : Nat) : List (Nat × Nat) :=
  let l := progInstrs m o p
  (l.filterMap fun i => if i.op = 4 ∧ i.probe ∧ ¬ i.bal ∧ 960 ≤ i.len then some (i.t + 480, i.len - 960) else none)
  ++ (if l.any fun i => i.op == 4 && i.probe && i.bal then
        (match l.getLast? with
         | some e => if e.t + 960 ≤ frameLen then [(e.t + 480, frameLen - 960 - e.t)] else []
         | none => [])
      else [])

/-- The turnarounds of a SCAN frame that may hold probes (R175). -/
def scanWindows (s : State) (m : WordMap) (o p frameLen : Nat) : List (Nat × Nat) :=
  let x := s.scanAt o
  let (f, _) := posInstant (s.tgAt o) (s.tgAt o).pos
  let pd : Rat := (x.pHat : Rat) / 256
  if x.pHat ≤ 0 then []
  else
    let off : Rat := (signedOf 16 (m.fld (aUact o) 31 16) : Int) / 25
    let half := pd * fxRat (fxAsin (fxOf (uActive m o))) / (2 * piRat)
    let t0 : Rat := (x.t0 : Rat) / 256 - off - f
    let darks := (progInstrs m o p).filter fun i => i.op == 4 && i.probe
    let n0 := (-(t0) / (pd / 2)).ceil - 1
    (List.range (((frameLen : Rat) / (pd / 2)).floor.toNat + 2)).filterMap fun k =>
      let a := t0 + (n0 + k : Int) * (pd / 2) + half
      let b := a + pd / 2 - 2 * half
      let inImage := decide ((scanLag m o : Rat) ≤ a ∧ b ≤ scanLag m o + scanTact m o)
      let inDark := darks.any fun i => decide ((i.t : Rat) ≤ a ∧ b ≤ i.t + i.len)
      if 1760 ≤ b - a ∧ (inImage || inDark) then some (a.ceil.toNat + 480, (b - a).floor.toNat - 960) else none

/-- The events of one probe at `w` ticks after frame start (R120, R175). -/
def probeEvents (m : WordMap) (o nn cur w : Nat) : List ProgEvent :=
  let base : List ProgEvent := [⟨2, nn, w, cur + 2 ^ 16⟩, ⟨2, nn, w + 800, 0⟩]
  if !isScan m o then base
  else
    let convs := (List.range (converters m o)).filter fun j => convRole m o j == 1 && nbit (convEntry m o j) nn
    let others := (List.range 24).filter fun t => t != nn && convs.any fun j => nbit (convEntry m o j) t
    base ++ (others.mapIdx fun i t => (⟨2, t, w - 240 + i / 4, 2 * 2 ^ 16⟩ : ProgEvent))
      ++ (others.mapIdx fun i t => (⟨2, t, w + 1040 + i / 4, 0⟩ : ProgEvent))
      ++ convs.flatMap fun j => [⟨3, j, w, 2⟩, ⟨3, j, w + 800, 0⟩]

/-- Whether a probe's events keep every tick at 4 events or fewer of its output (R119). -/
def probeFits (posted new : List Post) : Bool :=
  new.all fun e => decide ((posted ++ new).countP (fun p => p.fire == e.fire) ≤ 4)

/-- The probes of one window: strings in order, each in the next free place; the strings left, the probes placed and the posts
(R119). -/
def fillWindow (place : ProgEvent → Post) (m : WordMap) (o cur w len : Nat) :
    List Nat → Nat → Nat → List Post → List Post → List Nat × Nat × List Post
  | [], _, n, _, new => ([], n, new)
  | nn :: rest, j, n, posted, new =>
    if len < 800 + 1000 * j ∨ 4 ≤ j ∨ 4 ≤ n then (nn :: rest, n, new)
    else
      let ev := (probeEvents m o nn cur (w + 1000 * j)).map place
      if probeFits (posted ++ new) ev then fillWindow place m o cur w len rest (j + 1) (n + 1) posted (new ++ ev)
      else let r := fillWindow place m o cur w len rest j n posted new; (nn :: r.1, r.2)

/-- The probes of a frame (R118, R119). -/
def vesperPosts (s : State) (o : Nat) (posted : List Post) : List Post :=
  let m := frontCfg s o
  let rt := s.rt o
  let t := s.tgAt o
  let (tick, fine) := posInstant t t.pos
  let len := ((nextStart s o).tgAt o).len / (25 * t.den)
  let p := (frontBuf s o).prog
  let pend := (outStrings rt o).filter fun nn => (s.strAt nn).probePending && liveString rt s.drive nn
  if pend.isEmpty || !showsProgram s o then []
  else
    let wins := if isScan rt o then scanWindows s rt o p len else planeWindows m o p len
    (wins.foldl (fun (a : List Nat × Nat × List Post) w =>
      if a.1.isEmpty || decide (4 ≤ a.2.1) then a
      else
        let r := fillWindow (placeEvent m o tick fine t.counter) rt o (probeI (s.rt 4)) w.1 w.2 a.1 0 a.2.1 posted a.2.2
        (r.1, r.2.1, r.2.2)) (pend, 0, [])).2.2

/-- The sequencer takes the frame's events and the port its loads (R81, R86). -/
def boundaryPosts (s : State) (o : Nat) : State :=
  let m := frontCfg s o
  let t := s.tgAt o
  let (tick, fine) := posInstant t t.pos
  let ev := (frameEvents s o).map (placeEvent m o tick fine t.counter)
  let probes := vesperPosts s o (ev ++ (s.seqAt o).queue ++ (s.seqAt o).unposted)
  let s1 := s.modSeq o fun q => { q with unposted := q.unposted ++ ev ++ probes, curChan := none }
  if showsProgram s o && !isScan (s.rt o) o then
    s1.modPort o fun p => { p with loads := frameLoads m o (frontBuf s o).prog tick, current := none }
  else s1.modPort o fun p => { p with loads := [] }

/-! ### Adoption of a stream's counter (R243) -/

/-- R243: an output in STANDBY takes its stream's frame counter once, at the first frame after lock. -/
def adoptCounter (s : State) (o : Nat) : State :=
  let m := s.rt o
  let t := s.tgAt o
  match nth s.rlv.announced (srcIdx m o) none with
  | some (i, c) =>
    if m.bit (aTgCfg o) 16 && genSrc m o == 3 && t.locked && !t.adopted && (s.outAt o).mode == 1 && !(s.outAt o).trans then
      let n := roundRat ((((i * t.den : Nat) : Rat) - t.pos) / (periodUnits s o : Nat))
      raise (s.modTg o fun t => { t with counter := ((c : Int) - n).toNat, adopted := true }) 0x0233 o
    else s
  | none => s

/-! ### Relvor: what the root sends (R240, R241) -/

def rlvRoot (m : WordMap) : Bool := m.bit 0x20200 31
def rlvId (m : WordMap) : Nat := m.fld 0x20200 10 0
def rlvExport (m : WordMap) : Nat := m.fld 0x20200 27 24

/-- A Relvor message with its CRC (R240). -/
def rlvBytes (typ hops stream origin delay tx count delta fine : Nat) : List Byte :=
  let b := leBytes 1 typ ++ leBytes 1 (hops % 16 + stream % 4 * 16) ++ leBytes 2 (origin % 2048) ++ leBytes 3 delay ++ leBytes 1 0
    ++ leBytes 8 tx ++ leBytes 8 count ++ leBytes 4 (delta % 2 ^ 27 + fine % 32 * 2 ^ 27)
  b ++ leBytes 2 (crc16 b)

/-- A message leaves on the downstream pairs; the last 16 are kept. -/
def rlvSend (s : State) (l : List Byte) : State :=
  if (s.rt 4).fld 0x20200 30 28 = 0 then s else { s with rlv := { s.rlv with sent := (l :: s.rlv.sent).take 16 } }

/-- The root announces the next frame of an exported output (R241). -/
def rlvFrame (s : State) (o : Nat) : State :=
  let m := s.rt 4
  let t := s.tgAt o
  if rlvRoot m && nbit (rlvExport m) o then
    let (tick, fine) := posInstant t t.pos
    rlvSend s (rlvBytes 2 0 o (rlvId m) 0 s.tb.tick (t.counter + 1) (tick - s.tb.tick) fine)
  else s

/-! ### The boundary -/

/-- POUR_APPLIED at the B_k of its output (R252, R262). -/
def pourApplied (s : State) (o : Nat) : State :=
  let now := s.ladle.applied.filter fun e => e.2.2.1 == o && e.2.2.2
  let s1 := s.modLadle fun l => { l with applied := l.applied.filter fun e => !(e.2.2.1 == o && e.2.2.2) }
  now.foldl (fun s e => raise s 0x0101 (e.1 + e.2.1 % 4096 * 2 ^ 16 + (s.tgAt o).counter % 2 ^ 32 * 2 ^ 32)) s1

/-- A composition start of an output has come: the Pours it takes are announced at the boundary of its frame (R252). -/
def markApplied (s : State) (o : Nat) : State :=
  s.modLadle fun l => { l with applied := l.applied.map fun e => if e.2.2.1 = o then (e.1, e.2.1, o, true) else e }

/-- What a frame start does once the frame's settings are in force: the exit or timing change, flip or repeat with its record,
the drive, the frame's events, and the next frame start. At `first`, the first start of a new timing, nothing is lit yet. -/
def boundaryBody (s : State) (o : Nat) (first : Bool) : State :=
  let s1 := boundaryAnneal (boundarySteps (resumeLink s o) o) o
  let flipped := flips s1 o
  let s2 := finishEntry s1 o flipped
  let s3 := enterStill (flipOrRepeat (if first then s2 else finishTiming s2 o flipped) o) o flipped
  let s4 := pourApplied (boundaryDrive (boundaryScan s3 o) o) o
  let s5 := s4.modSeq o fun q => { q with
    steal := match q.steal with | some f => if f < (s4.tgAt o).counter then none else some f | none => none }
  if (s5.tgAt o).running then rlvFrame (nextStart (boundaryPosts s5 o) o) o else s5

/-- A frame boundary of an output (R233, R253): the ending frame's accounting, the settings that come into force, then what
every frame start does. -/
def frameBoundary (s : State) (o : Nat) : State :=
  let started := (s.tgAt o).started
  let s1 := if started then countFrame (endFrame s o) o else markApplied s o
  let s2 := s1.modTg o fun t => { t with started := true, counter := if started then t.counter + 1 else t.counter }
  let s3 := adoptCounter (boundarySettings s2 o) o
  if (s3.tgAt o).running then boundaryBody s3 o false else s3

/-- An output's frame boundary arrives; buffers whose fences it released are reclaimed. -/
def execFrameBoundary (o : Nat) (s : State) : Host.Outcome State Fault Refusal :=
  if (s.tgAt o).running then .next (pruneAll (msix (frameBoundary s o) (4 + o))) else .next s

/-- The new generator makes its first start at the instant fixed for it (N_0, R255 step 4): the new settings act, its counter goes
on, composition begins again and UNPARK is sent, or the fast axis starts. A new partition, layout or mode leaves the old buffers
unusable. An output that has left meanwhile stays in STANDBY, or goes on with its entry, on the new timing. -/
def restartTiming (s : State) (o since : Nat) : State :=
  let old := s.rt o
  let new := s.act
  let stays := (s.outAt o).mode = 1 ∨ (s.outAt o).exit ≠ .none_
  let den := max 1 (tgDen new o)
  let s1 := takeSettings (s.modTg o fun t => { t with tm := if stays then .idle else .restarted since, running := true }) o new
  let s2 := s1.modTg o fun t => { t with
    counter := t.counter + 1, pos := t.pos * den / t.den, den := den, ctaken := false
    composeStopped := t.composeStopped && decide stays }
  let s3 := relink s2 o old
  let s4 := if sameFields old new [(aFsBase o, 0xFFFFFFFF), (aFsSize o, 0xFFFFFFFF), (aFsLayout o, 0xFFFFFFFF), (aPortCfg o, 0x80000000)] then s3
    else s3.modEnc o fun e => { e with bufs := e.bufs.map fun b => { b with complete := false } }
  if fsSize new o = 0 then stopGenerator s4 o
  else
    let s5 := boundaryBody (if stays then s4 else queueStrings s4 o) o true
    if stays then s5
    else if isScan new o then (if (s5.scanAt o).fast = 0 then applyRun s5 o 1 else s5)
    else if (s5.portAt o).link = 5 then portSend s5 o 0x11 0 else s5

/-- The first start of an output's new timing arrives. -/
def execTgRestart (o : Nat) (s : State) : Host.Outcome State Fault Refusal :=
  match (s.tgAt o).tm with
  | .fixed since => if (posInstant (s.tgAt o) (s.tgAt o).pos).1 ≤ s.tb.tick then .next (restartTiming s o since) else .next s
  | _ => .next s

/-- The head events of an output's next frame with the settings `m` (R87, R174, R383): those of a stolen PLANE frame, or the slow axis
and envelope of a SCAN frame. -/
def headEvents (s : State) (m : WordMap) (o : Nat) (steal : Bool) : List ProgEvent :=
  if isScan m o then (if isLit s o ∨ (s.outAt o).entry.isSome ∨ (s.outAt o).mode = 5 then scanHeadEvents m o else [])
  else if steal then
    let nb := progNblocks (frontCfg s o) o (frontBuf s o).prog
    ⟨0, 0, 0, strobePayload (2 ^ nb - 1) 1 0⟩ :: (List.range 6).map fun c => ⟨1, c, (c + 1) / 4, 0⟩
  else []

/-- How long before their frame the head events are posted (R87): 4,096 ticks, or the delivery lead of R173 where it is longer. -/
def headLead (m : WordMap) (o : Nat) : Nat := if isScan m o then max 4096 (minLead m o 3) else 4096

/-- The first start of a new timing (R87, R255 step 4), in units of 1/(25 × DEN) tick: the earliest instant that leaves the head
events their lead, at which the phase is right when a reference is known (notes/assumptions/119.md). -/
def firstStart (s : State) (m : WordMap) (o : Nat) : Nat :=
  let den := max 1 (tgDen m o)
  let soon := (s.tb.tick + headLead m o) * 25 * den
  match genRef s m o den soon with
  | none => soon
  | some r => soon + ((r + tgPhase m o * den - soon) % (max 1 (25 * tgNum m o) : Nat)).toNat

/-- The frame-head events of the frame `k` that starts at the generator's next start are posted. -/
def postHeads (s : State) (m : WordMap) (o k : Nat) (steal : Bool) : State :=
  let (tick, fine) := posInstant (s.tgAt o) (s.tgAt o).pos
  postAll s o ((headEvents s m o steal).map (placeEvent (frontCfg s o) o tick fine k))

/-- A steal of the next frame is decided (R383): its pre-check begins with that frame. -/
def markStolen (s : State) (o k : Nat) : State :=
  raiseLimited ((s.modSeq o fun q => { q with steal := some k, sinceSteal := 0 }).modAnn fun a => { a with
    run := a.run.map fun r => { r with since := (posInstant (s.tgAt o) (s.tgAt o).pos).1, stolen := true } }) 0x0E05 o o oneSecond .internal

/-- At least 4,096 ticks before the next frame start, its frame-head events are posted and a steal is decided (R87, R383). After
step 3 of a timing-mode change, the first start of the new timing is fixed here, with the settings committed (R87, R255). -/
def execFrameHeadPost (o : Nat) (s : State) : Host.Outcome State Fault Refusal :=
  let t := s.tgAt o
  match t.tm with
  | .ready since =>
    let m := s.act
    let s1 := s.modTg o fun t => { t with tm := .fixed since, den := max 1 (tgDen m o), pos := firstStart s m o, len := 0 }
    .next (postHeads s1 m o (t.counter + 1) false)
  | _ =>
    if !t.running || (s.outAt o).exit == .stopping then .next s
    else
      let k := if t.started then t.counter + 1 else t.counter
      let steal := steals s o && !isScan (s.rt o) o
      .next (postHeads (if steal then markStolen s o k else s) (s.rt o) o k steal)

/-! ### Retired disables (R257) -/

/-- Kind and index of a disabled item: layer, input, stage, string, output. -/
def Disable.code : Disable → Nat × Nat
  | .layer l => (0, l)
  | .input i => (1, i)
  | .stage _ k => (2, k)
  | .string nn => (3, nn)
  | .output o => (4, o)

/-- DISABLE_DONE's data (R257, R262): MASK and SEQ of its Pour as every Ladle event has them, 0 for an exit that no Pour asked for,
and the kind in bits 35:32, the index in bits 47:40 and the output in bits 55:48 (the places and that 0 are a DESIGN CHOICE,
notes/assumptions/48.md and 104.md). -/
def disableData (d : Retire) : Nat :=
  d.mask % 32 + d.seq % 4096 * 2 ^ 16 + d.item.code.1 * 2 ^ 32 + d.item.code.2 * 2 ^ 40 + d.out * 2 ^ 48

/-- Whether a layer stands among some sources. -/
def amongSources (l : Nat) (x : List (Nat × Source)) : Bool := x.any fun e => e.1 == l

/-- The frame under construction that still has work in flight. -/
def CompState.live (c : CompState) : Option FrameUC :=
  c.fuc.filter fun f => f.phase != .complete && f.phase != .poisoned && f.phase != .abandoned

/-- Whether the work in flight of a disabled item has retired (R257): the front frame has no such layer and no frame holds its
source; the input's Runner has no request; no frame under construction has the stage; the string's stage has stopped; the output
is in STANDBY with its frame released. -/
def retired (s : State) (d : Retire) : Bool :=
  let c := s.compAt d.out
  match d.item with
  | .layer l => !amongSources l c.frameSources && (c.live.all fun f => !amongSources l f.sources)
      && (!(s.tgAt d.out).running || !lyEnable (frontCfg s d.out) l)
  | .input i => (s.inAt i).run.isNone && s.run.chans.all fun h => h.owner != some i && h.waiting.all fun w => w.1 != i
  | .stage o k => c.live.all fun f => !f.snap.cfg.bit (aPixCtrl o) k
  | .string nn => !(s.strAt nn).stageOn
  | .output o => decide ((s.outAt o).mode = 1) && c.live.isNone

/-- The last work in flight of the k-th disabled item has retired (R257). -/
def execDisableDone (k : Nat) (s : State) : Host.Outcome State Fault Refusal :=
  match s.ladle.disables[k]? with
  | none => .next s
  | some d =>
    if retired s d then .next (raise (s.modLadle fun l => { l with disables := l.disables.eraseIdx k }) 0x0106 (disableData d))
    else .next s

end Sys2Proof.Machine
end

