-- ==== Sys2Proof/Machine/Arbiter.lean ====
section
/-! DEFINITION. The Runner arbiter (R318 to R330): the lottery and its ceilings, grants and releases, tokens, locked
sequences and the checks of R324, as operations on the state. -/
namespace Sys2Proof.Machine

/-- One step of the 32-stage Galois register of polynomial x^32 + x^22 + x^2 + x + 1, shifting right (R309; the shift
direction is DEDUCED, notes/assumptions/13.md). -/
def lfsrStep (x : Nat) : Nat := if x % 2 = 1 then (x / 2) ^^^ 0x80200003 else x / 2
/-- `n` steps. -/
def lfsrSteps : Nat → Nat → Nat
  | 0, x => x
  | n + 1, x => lfsrSteps n (lfsrStep x)
/-- The sixteen steps of one activate or draw (R309, R321). -/
def lfsr16 (x : Nat) : Nat := lfsrSteps 16 x

def aRunCfg (r : Nat) : Nat := 0x50100 + 0x10 * r
/-- HOLD_r (R319). -/
def runHold (m : WordMap) (r : Nat) : Nat := m.fld (aRunCfg r) 6 0
/-- CEILING_r (R322). -/
def runCeiling (m : WordMap) (r : Nat) : Nat := m.fld (aRunCfg r) 22 16
/-- TICKETS[h][r] (R347). -/
def tickets (m : WordMap) (h r : Nat) : Nat := m.byte (0x06000000 + 16 * h + r)

/-- Whether grants to a Runner are withheld: during a set-point change to RUNNER_08 to RUNNER_15 and, once every held
grant is released, to all (R299); in training at Dawn and in self-refresh to all (R301, R310, R311). -/
def withheld (s : State) (r : Nat) : Bool :=
  match s.hbm.st with
  | 1 => false
  | 2 => s.hbm.drained || decide (8 ≤ r)
  | _ => true

def State.chanAt (s : State) (h : Nat) : ChanArb := nth s.run.chans h {}
def State.modArb (s : State) (h : Nat) (f : ChanArb → ChanArb) : State :=
  s.modRun fun x => { x with chans := upd x.chans h f }

/-- The Runner that the ceiling rule names among the requesters (R322): RUNNER_00 to RUNNER_07 first, then the one that
reached its ceiling first. -/
def ceilingWinner (c : ChanArb) (req : List Nat) : Option Nat :=
  let l := c.atCeil.filter req.contains
  match l.filter (· < 8) with
  | r :: _ => some r
  | [] => l.head?

/-- The Runner whose interval holds `j` when each is as long as its tickets (R321). -/
def intervalOf (tk : Nat → Nat) : Nat → List Nat → Option Nat
  | _, [] => none
  | j, r :: rest => if j < tk r then some r else intervalOf tk (j - tk r) rest

/-- The winner of a draw among requesters listed in increasing index, with the register's low half `x` (R321). -/
def lotteryWinner (tk : Nat → Nat) (x : Nat) (req : List Nat) : Option Nat :=
  let p := req.filter fun r => tk r ≠ 0
  if p.isEmpty then req.head?
  else intervalOf tk (x * (p.map tk).sum / 65536) p

/-- The requesters of a channel that may be granted, in increasing index. -/
def requesters (s : State) (h : Nat) : List Nat :=
  (List.range 16).filter fun r => ((s.chanAt h).waiting.any fun w => w.1 == r) && !withheld s r

/-- The losers of a draw each count it; those that reach their ceiling take their place in the order (R322). -/
def countLosses (m : WordMap) (c : ChanArb) (losers : List Nat) : ChanArb :=
  losers.foldl (fun c r =>
    let n := nth c.losses r 0 + 1
    { c with losses := listSet c.losses r n,
             atCeil := if runCeiling m r ≤ n ∧ ¬ c.atCeil.contains r then c.atCeil ++ [r] else c.atCeil }) c

/-- A draw of the next owner on a channel (R320 to R322). -/
def drawOwner (s : State) (h : Nat) : State :=
  let req := requesters s h
  if req.isEmpty then s
  else
    let c := s.chanAt h
    let x := lfsr16 c.lfsr
    let byCeil := ceilingWinner c req
    let win := match byCeil with | some r => some r | none => lotteryWinner (tickets (s.rt 4) h) (x % 65536) req
    s.modArb h fun c => { countLosses (s.rt 4) c (req.filter fun r => some r ≠ win) with
      lfsr := x, drawn := win, drawnCeil := byCeil.isSome }

/-- The grant passes to a Runner (R319, R320, R322). -/
def grantTo (s : State) (h r : Nat) : State :=
  let c := s.chanAt h
  let since := ((c.waiting.find? fun w => w.1 == r).map (·.2)).getD s.tb.tick
  let s1 := s.modArb h fun c => { c with
    owner := some r, locked := c.lockWait.contains r, lockAt := s.tb.tick, shadows := 0, accepted := false, carried := 0,
    waiting := c.waiting.filter fun w => w.1 != r, lockWait := c.lockWait.erase r, drawn := none,
    losses := listSet c.losses r 0, atCeil := c.atCeil.erase r, drawnCeil := false }
  s1.modRun fun x => { x with
    waitMax := upd x.waitMax r fun v => max v (min 0xFFFF (s.tb.tick - since)),
    ceilGrants := if c.drawnCeil && c.drawn == some r then upd x.ceilGrants r (satAdd 0xFF 1) else x.ceilGrants }

/-- While a Runner owns a channel and another requests, the next owner is drawn (R320). -/
def drawNext (s : State) (h : Nat) : State :=
  let c := s.chanAt h
  if c.owner.isSome ∧ c.drawn.isNone then drawOwner s h else s

/-- A channel that no Runner was drawn for is granted to a lone requester at once, or by a draw (R320). -/
def grantAnew (s : State) (h : Nat) : State :=
  match requesters s h with
  | [] => s
  | [r] => grantTo s h r
  | _ => let s1 := drawOwner s h
         match (s1.chanAt h).drawn with | some r => drawNext (grantTo s1 h r) h | none => s1

/-- A free channel is granted: to the drawn Runner, or anew (R320). While a set-point change withholds the grant from the drawn
Runner, the capture Runners continue (R299). -/
def grantFree (s : State) (h : Nat) : State :=
  let c := s.chanAt h
  if c.owner.isSome then drawNext s h
  else match c.drawn with
    | some r => if withheld s r then grantAnew s h else drawNext (grantTo s h r) h
    | none => grantAnew s h

/-- Every channel is granted as far as grants are allowed. -/
def grantAll (s : State) : State := (List.range 16).foldl grantFree s

/-- The owner drops its request and the grant passes on (R320). -/
def releaseOwner (s : State) (h : Nat) : State :=
  grantFree (s.modArb h fun c => { c with owner := none, locked := false, accepted := false, carried := 0, shadows := 0 }) h

/-- A request that is waiting is dropped; a drawn Runner's place is drawn again, and it counts as no loser (R320). -/
def dropRequest (s : State) (h r : Nat) : State :=
  let c := s.chanAt h
  let s1 := s.modArb h fun c => { c with waiting := c.waiting.filter (fun w => w.1 != r), lockWait := c.lockWait.erase r }
  if c.drawn = some r then
    let s2 := s1.modArb h fun c => { c with drawn := none, drawnCeil := false }
    if c.owner.isSome then drawOwner s2 h else grantFree s2 h
  else s1

/-- A request is raised on a channel (R319, R320); in automatic self-refresh it starts the exit (R311). -/
def addRequest (s : State) (h r : Nat) (lock : Bool) : State :=
  let c := s.chanAt h
  if c.owner = some r ∨ c.waiting.any (fun w => w.1 == r) then s
  else
    let s1 := s.modArb h fun c => { c with waiting := c.waiting ++ [(r, s.tb.tick)],
                                           lockWait := if lock then c.lockWait ++ [r] else c.lockWait }
    let s2 := s1.modHbm fun x => { x with lastUse := listSet x.lastUse h s.tb.tick,
                                          st := if x.st = 4 ∧ ¬ x.srDusk then 5 else x.st }
    grantFree s2 h

/-! ### Tokens (R363, R364) -/

/-- The shared bucket of RUNNER_08 to RUNNER_15 brought up to now: 2 × (8 − k) tokens a tick, 1 µs of them at most. -/
def tokensNow (s : State) : Nat :=
  let k := temperLevel s
  min (800 * (8 - k)) (s.run.tokens + 2 * (8 - k) * (s.tb.tick - s.run.tokensAt))

/-- Take `n` tokens when the level asks for them and they are there. -/
def takeTokens (s : State) (r n : Nat) : Option State :=
  if r < 8 ∨ temperLevel s = 0 then some s
  else if n ≤ tokensNow s then some (s.modRun fun x => { x with tokens := tokensNow s - n, tokensAt := s.tb.tick })
  else none

/-- Insert a waiting Runner by increasing index. -/
def insertWait (w : Nat × Nat × Nat × Bool) : List (Nat × Nat × Nat × Bool) → List (Nat × Nat × Nat × Bool)
  | [] => [w]
  | x :: r => if w.1 < x.1 then w :: x :: r else x :: insertWait w r

/-- Serve the Runners waiting for tokens in increasing index order while the bucket lasts (R364). -/
def serveTokens : State → List (Nat × Nat × Nat × Bool) → State
  | s, [] => s
  | s, (r, h, n, lock) :: rest =>
    match takeTokens s r n with
    | some s1 =>
      let s2 := s1.modRun fun x => { x with tokenWait := x.tokenWait.filter fun w => !(w.1 == r && w.2.1 == h) }
      serveTokens (addRequest s2 h r lock) rest
    | none => s

/-- A Runner asks for a channel (R364): it takes its tokens first, or waits for them. While others wait, it takes its place among them, and
they are served in increasing index. -/
def askChannel (s : State) (h r n : Nat) (lock : Bool) : State :=
  if s.run.tokenWait.any fun w => w.1 == r && w.2.1 == h then s
  else if 8 ≤ r ∧ s.run.tokenWait ≠ [] then
    let l := s.run.tokenWait ++ [(r, h, n, lock)]
    serveTokens (s.modRun fun x => { x with tokenWait := l }) (l.foldl (fun l w => insertWait w l) [])
  else match takeTokens s r n with
    | some s1 => addRequest s1 h r lock
    | none => s.modRun fun x => { x with tokenWait := [(r, h, n, lock)] }

/-! ### Commands of the arbiter -/

/-- A Runner raises its request on a channel (R319). -/
def execRunnerRequest (r h : Nat) (s : State) : Host.Outcome State Fault Refusal := .next (askChannel s h r 1 false)

/-- The owner drops its request and the grant passes to the drawn Runner; a waiting Runner withdraws (R319, R320). -/
def execRunnerRelease (r h : Nat) (s : State) : Host.Outcome State Fault Refusal :=
  if (s.chanAt h).owner = some r then .next (releaseOwner s h) else .next (dropRequest s h r)

/-- Tempered Runners obtain their tokens and raise their requests (R364). -/
def execHbmTokenWaitEnd (s : State) : Host.Outcome State Fault Refusal :=
  .next (serveTokens s (s.run.tokenWait.foldl (fun l w => insertWait w l) []))

/-- Whether a Runner already waits for a grant on another channel, or holds a lock there (R325, R329). -/
def waitsElsewhere (s : State) (r h : Nat) : Bool :=
  (List.range 16).any fun k => k != h && (((s.chanAt k).waiting.any fun w => w.1 == r)
    || ((s.chanAt k).owner == some r && (s.chanAt k).locked))

/-- A lock request (R325, R329): only from RUNNER_14 and RUNNER_15, for at most 8 transactions on one channel; refused
while the function waits for a resource of classes 1 to 4 or for a grant elsewhere. -/
def execLockRequest (r h : Nat) (waits : Bool) (count : Nat) (s : State) : Host.Outcome State Fault Refusal :=
  if r < 14 ∨ waits ∨ waitsElsewhere s r h ∨ 8 < count then
    .next (s.modRun fun x => { x with refused := upd x.refused r (satAdd 0xFF 1) })
  else .next (askChannel s h r count true)

/-- A Runner's requests on every channel are dropped; the channels it owned with a lock, with whether the commit was
accepted (R327). -/
def resetChannels (s : State) (r : Nat) : State × List (Nat × Bool) :=
  (List.range 16).foldl (fun a h =>
    let (s, l) := a
    let c := s.chanAt h
    if c.owner = some r then (releaseOwner s h, if c.locked then l ++ [(h, c.accepted)] else l)
    else (dropRequest s h r, l)) (s, [])

/-- LOCK_ORPHAN's data: the Runner, the channel and, in bit 16, whether the commit was accepted (R327, R349; the bit is
a DESIGN CHOICE, notes/assumptions/14.md). -/
def orphanData (r h : Nat) (acc : Bool) : Nat := r + h * 2 ^ 8 + (if acc then 2 ^ 16 else 0)

/-- A Runner is reset (R327): its requests go, its grants are released, its shadow writes are abandoned; each lock it
held raises LOCK_ORPHAN, recovered at once because the grant is released and the commit resolved (R414). -/
def execRunnerReset (r : Nat) (s : State) : Host.Outcome State Fault Refusal :=
  let (s1, locks) := resetChannels (s.modRun fun x => { x with tokenWait := x.tokenWait.filter fun w => w.1 != r }) r
  .next (locks.foldl (fun s l =>
    let s2 := s.modRun fun x => { x with orphans := satAdd 0xFFFF x.orphans 1 }
    recovered (fault s2 0x0501 (orphanData r l.1 l.2) r) 0x0501 r) s1)

/-- A Runner meets an error within its own locked sequence (R327, R38): it abandons the sequence as a reset owner does, its shadow
writes with it, and asks for the lock again to restart from the first read. -/
def abandonSequence (s : State) (r h : Nat) : State :=
  let acc := (s.chanAt h).accepted
  let s1 := (resetChannels s r).1.modRun fun x => { x with orphans := satAdd 0xFFFF x.orphans 1 }
  addRequest (raise s1 0x0501 (orphanData r h acc)) h r true

/-- The locked channels that the members of a cycle own. -/
def cycleLocks (s : State) (members : List Nat) : List (Nat × Nat × Nat) :=
  (List.range 16).filterMap fun h => match (s.chanAt h).owner with
    | some r => if (s.chanAt h).locked ∧ members.contains r then some (r, h, (s.chanAt h).lockAt) else none
    | none => none

/-- The lock holder whose sequence began last (R330). -/
def youngest : List (Nat × Nat × Nat) → Option (Nat × Nat × Nat)
  | [] => none
  | e :: r => match youngest r with
    | none => some e
    | some f => if f.2.2 ≤ e.2.2 then some e else some f

/-- A wait-for cycle has closed (R330): its youngest lock holder is aborted; a cycle with none is WAIT_DEADLOCK. -/
def execWaitCycle (members : List (Fin 16)) (s : State) : Host.Outcome State Fault Refusal :=
  match youngest (cycleLocks s (members.map (·.val))) with
  | none => .next (raiseHalt s 0x0504 0)
  | some (r, h, _) => .next (fault (s.modRun fun x => { x with rollback := some (r, h) }) 0x0502 (r + h * 2 ^ 8) 0)

/-- The abort of the youngest lock holder completes (R330): as a reset owner it drops its requests on every
channel, its grant is released, and LOCK_ROLLBACK names WAIT_CYCLE. -/
def execLockRollback (s : State) : Host.Outcome State Fault Refusal :=
  match s.run.rollback with
  | none => .next s
  | some (r, h) =>
    let s1 := s.modRun fun x => { x with
      rollback := none, rollbacks := satAdd 0xFFFF x.rollbacks 1, tokenWait := x.tokenWait.filter fun w => w.1 != r }
    let s2 := if (s1.chanAt h).owner = some r then (resetChannels s1 r).1 else s1
    let s3 := { s2 with log := { s2.log with recovering := s2.log.recovering.erase (0x0502, 0) } }
    .next (raise s3 0x0503 0x0502)

/-! ### Checks (R323, R324) -/

/-- Whether capture input `i` counts as enabled: itself or as a link of an enabled SDI group (R323). -/
def inputCounts (m : WordMap) (i : Nat) : Bool :=
  inEnable m i || ((List.range 4).any fun l => inEnable m l && (groupOf m l).contains i && decide (i < 4))

/-- N_RT (R323). -/
def nRt (m : WordMap) : Nat := ((List.range 8).filter (inputCounts m)).length
/-- G (R323). -/
def gMax (m : WordMap) : Nat := (List.range 16).foldl (fun a r => max a (runHold m r)) 8
/-- W_r in nanoseconds, with t_OCC of 48 ns (R323, R346). -/
def waitBound (m : WordMap) (r : Nat) : Nat := (runCeiling m r + (if r < 8 then nRt m else 16)) * gMax m * 48

/-- The checks of R324: the failing check and its Runner. -/
def runnerChecks (m : WordMap) : Option (Nat × Nat) :=
  match (List.range 16).find? fun r => !(decide (1 ≤ runHold m r) && decide (runHold m r ≤ 64) && decide (1 ≤ runCeiling m r)
      && decide (runCeiling m r ≤ 64) && (m.fld (aRunCfg r) 31 23 == 0) && (m.fld (aRunCfg r) 15 7 == 0)) with
  | some r => some (1, r)
  | none => match (List.range 8).find? fun r => inputCounts m r && decide (4000 < waitBound m r) with
    | some r => some (2, r)
    | none => none

/-- RUN_BOUND (R347): the capture Runner with the largest W_r in force among those enabled, and that W_r. -/
def runBound (m : WordMap) : Nat :=
  let l := (List.range 8).filter (inputCounts m)
  match l.foldl (fun (a : Option (Nat × Nat)) r => match a with
      | some (_, w) => if w < waitBound m r then some (r, waitBound m r) else a
      | none => some (r, waitBound m r)) none with
  | none => 0
  | some (r, w) => r * 2 ^ 16 + min w 0xFFFF

end Sys2Proof.Machine
end

