-- ==== Sys2Proof/Machine/Hbm.lean ====
section
/-! DEFINITION. The HBM3 controller (R293 to R316): address orders, refresh debt, set-point changes, training,
neighbour refresh, self-refresh, errors and the checks of R314. -/
namespace Sys2Proof.Machine

/-- Capacity in bytes (R294). -/
def hbmCapacity (s : State) : Nat := s.fuse.hbmGb * 2 ^ 30

/-- The place of a transaction in the stack (R295, R296). -/
structure HbmPlace where
  ch : Nat
  pc : Nat
  sid : Nat
  bg : Nat
  bank : Nat
  row : Nat
  col : Nat
  deriving DecidableEq, Repr

/-- The fields of an address under an order (R295); from 0x4_0000_0000 upward SID 2 and the row of A' (R296). -/
def hbmPlace (order addr : Nat) : HbmPlace :=
  let high := 0x400000000 ≤ addr
  let a := if high then addr - 0x400000000 else addr
  let row := if high then nbits a 32 19 else nbits a 33 20
  let sid := if high then 2 else nbits a 19 19
  let c0 := nbits a 5 5
  match order with
  | 0 => ⟨nbits a 9 6, nbits a 10 10, sid, nbits a 16 15, nbits a 18 17, row, 2 * nbits a 14 11 + c0⟩
  | 1 => ⟨nbits a 13 10, nbits a 14 14, sid, nbits a 16 15, nbits a 18 17, row, 2 * nbits a 9 6 + c0⟩
  | 2 => ⟨nbits a 11 8, nbits a 12 12, sid, nbits a 7 6, nbits a 18 17, row, 2 * nbits a 16 13 + c0⟩
  | _ => ⟨nbits a 9 6 ^^^ nbits row 3 0, nbits a 10 10, sid, nbits a 16 15 ^^^ nbits row 7 6, nbits a 18 17 ^^^ nbits row 5 4, row,
          2 * nbits a 14 11 + c0⟩

/-- The key of a bank: channel, pseudo-channel, SID, bank group and bank. -/
def HbmPlace.bankKey (p : HbmPlace) : Nat := (((p.ch * 2 + p.pc) * 4 + p.sid) * 4 + p.bg) * 4 + p.bank
/-- The pseudo-channel of a bank key, from 0 to 31. -/
def pcOfBank (k : Nat) : Nat := k / 64

/-! ### Refresh debt (R305, R306) -/

/-- The refresh interval in half nanoseconds (R305). -/
def refreshT (h : HbmState) : Int := if h.hot then 3900 else 7800

/-- A channel's debt at a tick, in half nanoseconds: it rises 1 ns per ns while the stack is not refreshing itself (in self-refresh, or
from step 3 of R299 on). -/
def debtNow (h : HbmState) (tick ch : Nat) : Int :=
  nth h.debt ch 0 + (if h.st = 4 ∨ h.st = 0 ∨ h.drained then 0 else ((tick - nth h.debtAt ch 0) * 5 : Nat))

/-- The debts of every channel set at a tick. -/
def settleDebts (h : HbmState) (tick : Nat) : HbmState :=
  { h with debt := (List.range 16).map (debtNow h tick), debtAt := List.replicate 16 tick }

/-- Every debt set to 0 at a tick (R299, R311). -/
def zeroDebts (h : HbmState) (tick : Nat) : HbmState :=
  { h with debt := List.replicate 16 0, debtAt := List.replicate 16 tick, flushing := List.replicate 16 false }

/-- HBM events carry the channel and the set point (R317). -/
def hbmData (s : State) (ch : Nat) : Nat := ch + s.hbm.fspNow * 2 ^ 8

/-- A channel whose debt exceeds the limit begins a debt flush (R306). -/
def flushCheck (s : State) (ch : Nat) : State :=
  if !(nth s.hbm.flushing ch false) && decide (8 * refreshT s.hbm < debtNow s.hbm s.tb.tick ch) then
    raise (s.modHbm fun h => { h with flushing := listSet h.flushing ch true }) 0x0601 (hbmData s ch)
  else s

def hbmUrgent (m : WordMap) : Nat := m.fld 0x60008 2 0
def hbmPullin (m : WordMap) : Nat := m.fld 0x60008 11 8
def hbmRetrain (m : WordMap) : Nat := m.fld 0x60008 23 16
def hbmNrProb (m : WordMap) : Nat := m.fld 0x6000C 15 0

/-- No request waits on a channel. -/
def channelQuiet (s : State) (ch : Nat) : Bool := (s.chanAt ch).owner.isNone && (s.chanAt ch).waiting.isEmpty

/-- Whether a refresh is issued on a channel now (R306). -/
def refreshDue (s : State) (ch : Nat) : Bool :=
  let d := debtNow s.hbm s.tb.tick ch
  let t := refreshT s.hbm
  nth s.hbm.flushing ch false || decide ((hbmUrgent (s.rt 4) : Int) * t ≤ d) || (decide (t ≤ d) && channelQuiet s ch)
    || (decide (-((hbmPullin (s.rt 4) : Int) * t) < d) && channelQuiet s ch && decide (nth s.hbm.lastUse ch 0 + 400 ≤ s.tb.tick))

/-- The rows of a channel close; the neighbour refreshes queued on its banks are issued (R308). -/
def closeChannel (h : HbmState) (ch : Nat) : HbmState :=
  { h with openRows := h.openRows.filter fun e => pcOfBank e.1 / 2 != ch,
           nrDone := h.nrDone + ((nth h.nrq (2 * ch) []).length + (nth h.nrq (2 * ch + 1) []).length),
           nrq := listSet (listSet h.nrq (2 * ch) []) (2 * ch + 1) [] }

/-- The stack carries transactions: while running, and before a set-point change until every grant is released (R299). -/
def carrying (s : State) : Bool := (s.hbm.st == 1 || s.hbm.st == 2) && !s.hbm.drained

/-- A refresh is issued on a channel (R306); its PHY loads the trained values of the set point in force (R303). -/
def execHbmRefresh (ch : Nat) (s : State) : Host.Outcome State Fault Refusal :=
  let s1 := flushCheck s ch
  if carrying s1 then
    if refreshDue s1 ch then
      .next (s1.modHbm fun h =>
        let h1 := settleDebts (closeChannel h ch) s1.tb.tick
        { h1 with debt := upd h1.debt ch fun d => d - refreshT h1, phy := listSet h1.phy ch (nth h1.trained h1.fspNow 0) })
    else .next s1
  else .next s

/-- A refresh completes: a flush ends once the debt is at or below limit − t (R306). -/
def execHbmRefreshDone (ch : Nat) (s : State) : Host.Outcome State Fault Refusal :=
  if nth s.hbm.flushing ch false && decide (debtNow s.hbm s.tb.tick ch ≤ 7 * refreshT s.hbm) then
    .next (s.modHbm fun h => { h with flushing := listSet h.flushing ch false })
  else .next (flushCheck s ch)

/-- The stack temperature is read (R305): hot from the first read of 85 °C, normal after 8 ms below 81 °C; a halved
interval may start flushes. -/
def execHbmTempRead (temp : Int) (s : State) : Host.Outcome State Fault Refusal :=
  if s.hbm.st = 4 then .next s
  else
    let cool := if temp < 648 then (match s.hbm.coolSince with | some t => some t | none => some s.tb.tick) else none
    let s1 := s.modHbm fun h => { settleDebts h s.tb.tick with temp := temp, coolSince := cool }
    if !s1.hbm.hot && decide (680 ≤ temp) then
      let s2 := raise (s1.modHbm fun h => { h with hot := true, coolSince := none }) 0x0602 1
      .next ((List.range 16).foldl flushCheck s2)
    else if s1.hbm.hot && (match cool with | some t => decide (t + 3200000 ≤ s.tb.tick) | none => false) then
      .next (raise (s1.modHbm fun h => { h with hot := false }) 0x0602 0)
    else .next s1

/-! ### Set-point changes and training (R298 to R304) -/

/-- The stack leaves the present set point: grants are withheld from now (R299 step 1). -/
def beginChange (s : State) : State := s.modHbm fun h => { h with st := 2, drained := false }

/-- A new set point is asked for (R299): at once while running, after a pass, or by the exit from self-refresh. -/
def requestFsp (s : State) (f : Nat) : State :=
  if f = s.hbm.fspNow ∧ s.hbm.target.isNone then s
  else
    let s1 := s.modHbm fun h => { h with target := some f }
    if s1.hbm.st = 1 ∧ ¬ s1.hbm.training then beginChange s1
    else if s1.hbm.st = 4 ∧ ¬ s1.hbm.srDusk then s1.modHbm fun h => { h with st := 5 }
    else s1

/-- A change asked for during a pass begins when the pass has committed or failed. -/
def resumeChange (s : State) : State := if s.hbm.target.isSome ∧ s.hbm.st = 1 then beginChange s else s

/-- The valid set point that replaces `f` (R304): the next lower pin rate, otherwise the highest pin rate. -/
def fallbackFsp (valid f : Nat) : Option Nat :=
  match ((List.range 4).filter fun g => decide (f < g) && nbit valid g).head? with
  | some g => some g
  | none => ((List.range 4).filter fun g => nbit valid g).head?

/-- A set point loses its VALID bit (R303, R304): when it is in force another is taken without a Pour and written into
both copies of HBM_FSP; with none valid, HBM_NO_FSP. -/
def loseFsp (s : State) (f : Nat) : State :=
  let s1 := s.modHbm fun h => { h with valid := if nbit h.valid f then h.valid - 2 ^ f else h.valid }
  if f ≠ s1.hbm.fspNow then s1
  else match fallbackFsp s1.hbm.valid f with
    | none => raiseHalt s1 0x060A (hbmData s1 0)
    | some g =>
      let w : Word := BitVec.ofNat 32 g
      requestFsp (s1.modLadle fun l => { l with act := l.act.set 0x60004 w, stg := l.stg.set 0x60004 w }) g

/-- A debt refreshed until it is 0 or less (R299 step 2): each refresh repays one interval. -/
def repaid (t d : Int) : Int := if d ≤ 0 then d else d - (d + t - 1) / t * t

/-- Every pseudo-channel enters self-refresh (R299 steps 2 and 3): banks precharged, each channel refreshed until its debt is 0 or
less, no row open and no neighbour refresh left queued. -/
def enterSelfRefresh (h : HbmState) (tick : Nat) : HbmState :=
  let h1 := settleDebts h tick
  { h1 with debt := h1.debt.map (repaid (refreshT h1)), flushing := List.replicate 16 false, openRows := [],
            nrDone := h1.nrDone + (h1.nrq.map (·.length)).sum, nrq := List.replicate 32 [] }

/-- Every grant held on a channel has been released: banks precharge, refresh and self-refresh (R299 steps 1 to 3); the PLL and
the PHY follow until the change is done. -/
def execHbmFspDrained (s : State) : Host.Outcome State Fault Refusal :=
  if s.hbm.st = 2 ∧ ¬ s.hbm.drained ∧ (s.run.chans.all fun c => c.owner.isNone) then
    .next (s.modHbm fun h => { enterSelfRefresh h s.tb.tick with drained := true })
  else .next s

/-- The set-point change completes (R299 step 5). -/
def execHbmFspDone (s : State) : Host.Outcome State Fault Refusal :=
  if s.hbm.st = 2 ∧ s.hbm.drained then
    let f := s.hbm.target.getD s.hbm.fspNow
    let s1 := s.modHbm fun h => { zeroDebts h s.tb.tick with
      st := 1, drained := false, fspNow := f, target := none, phy := List.replicate 16 (nth h.trained f 0) }
    .next (grantAll (raise s1 0x0603 (hbmData s1 0)))
  else .next s

/-- A retraining pass begins (R302): RETRAIN seconds or 8 °C since the last pass ended, or 16 parity events (R313). -/
def startPass (s : State) : State := s.modHbm fun h => { h with training := true, slots := 0, retry := false }

/-- RETRAIN seconds or an 8 °C change start a pass (R302). -/
def execHbmRetrainStart (s : State) : Host.Outcome State Fault Refusal :=
  let due := decide (s.hbm.passTick + hbmRetrain (s.rt 4) * 400000000 ≤ s.tb.tick) || decide (64 ≤ (s.hbm.temp - s.hbm.passTemp).natAbs)
  if s.hbm.st = 1 ∧ ¬ s.hbm.training ∧ due then .next (startPass s) else .next s

/-- One of the 128 slots of a pass gathers its data (R302), at least 50 µs after the slot before. -/
def execHbmTrainSlot (s : State) : Host.Outcome State Fault Refusal :=
  if s.hbm.training ∧ s.hbm.slots < 128 ∧ (s.hbm.slots = 0 ∨ s.hbm.slotAt + 20000 ≤ s.tb.tick) then
    .next (s.modHbm fun h => { h with slots := h.slots + 1, slotAt := s.tb.tick })
  else .next s

/-- The pass ends at this instant. -/
def endPass (h : HbmState) (tick : Nat) : HbmState := { h with training := false, slots := 0, passTick := tick, passTemp := h.temp }

/-- All slots are complete (R303): the new values replace the set point's in one write, or the pass fails; the third
failure in a row clears VALID. -/
def execHbmTrainCommit (within : Bool) (s : State) : Host.Outcome State Fault Refusal :=
  if s.hbm.training ∧ s.hbm.slots = 128 then
    let s1 := s.modHbm fun h => endPass h s.tb.tick
    if within then
      .next (resumeChange (s1.modHbm fun h => { h with trained := upd h.trained h.fspNow (· + 1), fails := 0 }))
    else
      let s2 := recovered (fault (s1.modHbm fun h => { h with fails := h.fails + 1, retry := true }) 0x0604 (hbmData s1 0) 0) 0x0604 0
      if 3 ≤ s2.hbm.fails then .next (loseFsp (s2.modHbm fun h => { h with fails := 0, retry := false }) s2.hbm.fspNow)
      else .next (resumeChange s2)
  else .next s

/-- A failed pass is repeated 1 s after it ended (R303). -/
def execHbmTrainRetry (s : State) : Host.Outcome State Fault Refusal :=
  if s.hbm.retry ∧ s.hbm.st = 1 ∧ ¬ s.hbm.training ∧ s.hbm.passTick + 400000000 ≤ s.tb.tick then .next (startPass s) else .next s

/-! ### Transactions (R294, R308, R312, R313) -/

/-- An activate of a row: the draw of its pseudo-channel, and on a hit a queued neighbour refresh; a full queue frees its
oldest entry first, because a hit withholds activates until one frees (R308, R309). -/
def activate (m : WordMap) (h : HbmState) (p : HbmPlace) : HbmState :=
  let k := p.bankKey
  let pc := pcOfBank k
  let q0 := (nth h.nrq pc []).filter fun e => e.1 != k
  let h1 := { h with nrDone := h.nrDone + ((nth h.nrq pc []).length - q0.length), nrq := listSet h.nrq pc q0,
                     openRows := (k, p.row) :: h.openRows.filter fun e => e.1 != k,
                     lfsr := upd h.lfsr pc lfsr16 }
  if nth h1.lfsr pc 0 % 65536 < hbmNrProb m then
    let q := if 8 ≤ q0.length then q0.drop 1 else q0
    { h1 with nrq := listSet h1.nrq pc (q ++ [(k, p.row)]), nrDone := h1.nrDone + (q0.length - q.length) }
  else h1

/-- Record an error in HBM_ERR_A and HBM_ERR_B while none is recorded (R316). -/
def recordErr (h : HbmState) (p : HbmPlace) (kind runner : Nat) : HbmState :=
  if h.errValid then h
  else { h with errValid := true, errKind := kind, errCh := p.ch, errPc := p.pc, errSid := p.sid, errBg := p.bg, errBank := p.bank,
                errRow := p.row, errRunner := runner, errCol := p.col }

/-- A frame under construction is poisoned with the cause of its repeat; the tiles running on it stop, and stand noted as stopped for
the rest of the tick, in which their engines may still report a fault (R193, R205). -/
def poisonFrame (s : State) (o cause : Nat) : State :=
  let s1 := s.modComp o fun c => { c with lastCause := cause, fuc := c.fuc.map fun f => { f with phase := .poisoned } }
  let running := (List.range 16).filterMap fun e => match nth s.composer.engines e none with | some (a, t) => if a = o then some (e, a, t) else none | none => none
  s1.modComposer fun x => { x with
    engines := x.engines.map fun e => match e with | some (a, t) => if a = o then none else some (a, t) | none => none
    stopped := (if x.stoppedAt = s.tb.tick then x.stopped else []) ++ running, stoppedAt := s.tb.tick }

/-- The fault of an uncorrectable read on a layer fetch: the frame the engine works for is poisoned, its layer kept
(R414). -/
def fetchPoison (s : State) (engine : Nat) : State :=
  match nth s.composer.engines engine none with
  | some (o, _) => poisonFrame (fault s 0x0606 (hbmData s 0) o) o 2
  | none => s

/-- Count parity events; the sixteenth within 1 s starts a pass unless one runs (R313). -/
def countParity (s : State) (ch n : Nat) : State :=
  let l := ((List.replicate n s.tb.tick ++ nth s.hbm.parity ch []).filter fun t => s.tb.tick < t + 400000000).take 16
  let s1 := s.modHbm fun h => { h with parity := listSet h.parity ch l }
  if 16 ≤ l.length ∧ s1.hbm.st = 1 ∧ ¬ s1.hbm.training then startPass s1 else s1

/-- Corrected and replayed errors of a channel (R312). -/
def countCorrected (s : State) (ch n : Nat) : State := s.modHbm fun h => { h with corrected := upd h.corrected ch (satAdd 0xFFFF n) }
/-- Uncorrectable reads and failed writes of a channel (R312). -/
def countUncorrected (s : State) (ch : Nat) : State := s.modHbm fun h => { h with uncorrected := upd h.uncorrected ch (satAdd 0xFFFF 1) }

/-- What a transaction answers its Runner: 0 delivered, 1 poisoned, 2 write failed (R312). -/
def answerRunner (s : State) (runner kind : Nat) (d : List Byte) : State :=
  s.modHbm fun h => { h with ansRunner := runner, ansKind := kind, ansData := d }

/-- The error handling of a read (R312): `ecc` is 0 clean, 1 corrected on the die, 2 uncorrectable; `parity` counts the
reads that failed parity. -/
def finishRead (s : State) (p : HbmPlace) (runner engine addr ecc parity : Nat) : State :=
  let d := Memory.bytes ramDefault s.hbm.mem addr 64
  if ecc = 2 ∨ 3 ≤ parity then
    let s1 := (countUncorrected s p.ch).modHbm fun h => recordErr h p 1 runner
    let s2 := answerRunner s1 runner 1 d
    if runner = engineRunner engine ∧ engine < 16 ∧ (nth s.composer.engines engine none).isSome then fetchPoison s2 engine
    else raise s2 0x0606 (hbmData s2 p.ch)
  else answerRunner (countCorrected s p.ch (parity + ecc)) runner 0 d

/-- The error handling of a write (R312): a third parity error leaves the data unchanged and reports the write failed. -/
def finishWrite (s : State) (p : HbmPlace) (runner addr : Nat) (data : List Byte) (parity : Nat) : State :=
  if 3 ≤ parity then
    let s1 := (countUncorrected s p.ch).modHbm fun h => recordErr h p 2 runner
    raise (answerRunner s1 runner 2 []) 0x0607 (hbmData s1 p.ch)
  else
    let s1 := (countCorrected s p.ch parity).modHbm fun h => { h with mem := Memory.store ramDefault h.mem addr (data.take 64) }
    answerRunner s1 runner 0 []

/-- The owner has carried one more transaction; at HOLD_r it drops its request, a locked sequence apart (R319, R325). -/
def carryOne (s : State) (ch runner : Nat) (write : Bool) : State :=
  let s1 := s.modArb ch fun c => { c with carried := c.carried + 1, shadows := if c.locked && write then c.shadows + 1 else c.shadows }
  if !(s1.chanAt ch).locked && decide (runHold (s.rt 4) runner ≤ (s1.chanAt ch).carried) then releaseOwner s1 ch else s1

/-- Whether a transaction at `a` can be issued for a Runner: only for the channel's owner, below the capacity, while the stack
carries transactions, and not while a flush withholds the activate it needs (R294, R306, R319). -/
def canIssue (s : State) (r a : Nat) : Bool :=
  let p := hbmPlace s.hbm.mapOrder a
  decide (a < hbmCapacity s) && ((s.chanAt p.ch).owner == some r) && carrying s
    && (s.hbm.openRows.contains (p.bankKey, p.row) || !(nth s.hbm.flushing p.ch false))

/-- The row of a transaction is opened where it is not open, and the channel notes its use. -/
def openRow (s : State) (p : HbmPlace) : State :=
  s.modHbm fun h =>
    let h1 := if h.openRows.contains (p.bankKey, p.row) then h else activate (s.rt 4) h p
    { h1 with lastUse := listSet h1.lastUse p.ch s.tb.tick }

/-- Whether the arbiter's locked sequence admits one more transaction before its commit write (R325): at most 8 in all, and no
read after a shadow write. -/
def sequenceAdmits (c : ChanArb) (write : Bool) : Bool := !c.locked || (decide (c.carried < 7) && (write || c.shadows == 0))

/-- A granted 64-byte transaction (R294). An uncorrectable read or a failed write within a locked sequence ends the sequence (R38,
R327). -/
def execHbmTransaction (runner engine addr : Nat) (write : Bool) (data : List Byte) (ecc parity : Nat) (s : State) :
    Host.Outcome State Fault Refusal :=
  let a := addr / 64 * 64
  let p := hbmPlace s.hbm.mapOrder a
  if !(canIssue s runner a && sequenceAdmits (s.chanAt p.ch) write) then .next s
  else
    let s1 := openRow s p
    let s2 := if write then finishWrite s1 p runner a data parity else finishRead s1 p runner engine a ecc parity
    let failed := decide (3 ≤ parity) || (!write && ecc == 2)
    let s3 := if (s.chanAt p.ch).locked && failed then abandonSequence s2 runner p.ch else carryOne s2 p.ch runner write
    .next (countParity s3 p.ch (min parity 3))

/-- The commit write of a locked sequence (R326): whole or, after a third parity error, not at all; then the grant is
released. A failed commit is an error within the sequence, so the Runner asks for the lock again (R327). -/
def execLockCommit (r addr : Nat) (data : List Byte) (parity : Nat) (s : State) : Host.Outcome State Fault Refusal :=
  let a := addr / 64 * 64
  let p := hbmPlace s.hbm.mapOrder a
  if canIssue s r a && (s.chanAt p.ch).locked then
    let s1 := (openRow s p).modArb p.ch fun c => { c with accepted := true }
    let s2 := countParity (finishWrite s1 p r a data parity) p.ch (min parity 3)
    .next (if 3 ≤ parity then abandonSequence s2 r p.ch else releaseOwner s2 p.ch)
  else .next s

/-! ### Self-refresh (R310, R311) -/

/-- The conditions of automatic self-refresh (R310). -/
def autoSelfRefresh (s : State) : Bool :=
  (s.rt 4).bit 0x60010 31 && s.input.all (fun i => i.st == 0) && s.mode.outs.all (fun x => !(decide (2 ≤ x.mode ∧ x.mode ≤ 5)))
    && (List.range 16).all fun h => channelQuiet s h && decide (nth s.hbm.lastUse h 0 + (s.rt 4).fld 0x60010 15 0 * 400 ≤ s.tb.tick)

/-- The stack enters self-refresh and its clocks stop (R310): at Dusk step 5, or automatically; a pass that runs is not aborted by
either, and ends first (R304). -/
def execHbmSrEnter (s : State) : Host.Outcome State Fault Refusal :=
  let dusk := decide (s.mode.dev = 7) && decide (s.mode.duskStep = 5)
  if s.hbm.st ≠ 4 ∧ ¬ s.hbm.training ∧ (dusk || (decide (s.hbm.st = 1) && autoSelfRefresh s)) = true then
    .next (s.modHbm fun h => { enterSelfRefresh h s.tb.tick with st := 4, srDusk := dusk, drained := false })
  else .next s

/-- The exit from automatic self-refresh that a request, a host access or a set-point change began completes (R311): the pattern passes, or the set point is trained anew; a failed
training ends as three failed passes do. A change that fell due meanwhile takes effect here. -/
def execHbmSrExit (pattern train : Bool) (s : State) : Host.Outcome State Fault Refusal :=
  if s.hbm.st = 5 ∧ ¬ s.hbm.srDusk then
    let f := s.hbm.target.getD s.hbm.fspNow
    let s1 := s.modHbm fun h => { zeroDebts h s.tb.tick with st := 1, fspNow := f, target := none,
                                                             phy := List.replicate 16 (nth h.trained f 0), lastUse := List.replicate 16 s.tb.tick }
    let s2 := if s.hbm.target.isSome then raise s1 0x0603 (hbmData s1 0) else s1
    if pattern then .next (grantAll s2)
    else
      let s3 := raise s2 0x0608 (hbmData s2 0)
      if train then .next (grantAll (s3.modHbm fun h =>
        { h with trained := upd h.trained f (· + 1), phy := List.replicate 16 (nth h.trained f 0 + 1) }))
      else .next (grantAll (loseFsp (recovered (fault s3 0x0604 (hbmData s3 0) 0) 0x0604 0) f))
  else .next s

/-- The checks of R314. -/
def hbmChecks (m : WordMap) (valid : Nat) : Option Nat :=
  if !nbit valid (m.fld 0x60004 1 0) then some 1
  else if decide (1 ≤ hbmUrgent m) && decide (hbmPullin m ≤ 8) && decide (1 ≤ hbmRetrain m) && decide (100 ≤ m.fld 0x60010 15 0)
      && (m.fld 0x60004 31 2 == 0) && (m.fld 0x60008 31 24 == 0) && (m.fld 0x60008 15 12 == 0) && (m.fld 0x60008 7 3 == 0)
      && (m.fld 0x6000C 31 16 == 0) && (m.fld 0x60010 30 16 == 0) then none
  else some 2

end Sys2Proof.Machine
end

