-- ==== Sys2Proof/Machine/Surface.lean ====
section
/-! DEFINITION. Surfaces, their tables, the TLB, frame fences and translation faults (R331 to R345). -/
namespace Sys2Proof.Machine

/-- Surface `i` (R331); one never mapped is free. -/
def State.surfAt (s : State) (i : Nat) : Surface := Sparse.get (fun _ => {}) s.surf.surfs i
def State.setSurf (s : State) (i : Nat) (x : Surface) : State :=
  s.modSurf fun m => { m with surfs := Sparse.set (fun _ => {}) m.surfs i x }
def State.modSurfAt (s : State) (i : Nat) (f : Surface → Surface) : State := s.setSurf i (f (s.surfAt i))

/-- log2 of the page size a PAGE code names (R331). -/
def pageLog (code : Nat) : Nat := match code with | 0 => 12 | 1 => 16 | _ => 21
def Surface.pageLog (x : Surface) : Nat := Machine.pageLog (nbits x.attr 1 0)
def Surface.lo (x : Surface) : Nat := x.base * 2 ^ 21
def Surface.bytes (x : Surface) : Nat := x.size * 4096
def Surface.hi (x : Surface) : Nat := x.lo + x.bytes
def Surface.hostW (x : Surface) : Bool := nbit x.attr 4
def Surface.hostR (x : Surface) : Bool := nbit x.attr 5
def Surface.prot (x : Surface) : Bool := nbit x.attr 6

/-! ### Pools (R332) -/

/-- `a` rounded up to a multiple of `n`. -/
def alignUp (a n : Nat) : Nat := (a + n - 1) / n * n

/-- Take up to `n` bytes in pages of `page` bytes from one extent: the piece taken and what is left of the extent. -/
def takeFrom (page n : Nat) (e : Nat × Nat) : Nat × Nat × List (Nat × Nat) :=
  let lo := alignUp e.1 page
  let avail := (e.1 + e.2 - lo) / page * page
  let k := if e.1 + e.2 < lo then 0 else min n avail
  if k = 0 then (lo, 0, [e])
  else (lo, k, ([(e.1, lo - e.1), (lo + k, e.1 + e.2 - (lo + k))] : List (Nat × Nat)).filter fun x => x.2 ≠ 0)

/-- Take `n` bytes in pages from a pool, first fit (DESIGN CHOICE, notes/assumptions/16.md): the extents taken, the pool
left, and how many bytes were missing. -/
def takePages (page : Nat) : Nat → List (Nat × Nat) → List (Nat × Nat) × List (Nat × Nat) × Nat
  | n, [] => ([], [], n)
  | n, e :: r =>
    if n = 0 then ([], e :: r, 0)
    else
      let (lo, k, left) := takeFrom page n e
      let (t, p, miss) := takePages page (n - k) r
      (if k = 0 then t else (lo, k) :: t, left ++ p, miss)

/-- Take one run of `n` bytes from a pool (R334). -/
def takeRun (n : Nat) : List (Nat × Nat) → Option (Nat × List (Nat × Nat))
  | [] => none
  | e :: r => if n ≤ e.2 then some (e.1, if e.2 = n then r else (e.1 + n, e.2 - n) :: r)
              else (takeRun n r).map fun x => (x.1, e :: x.2)

/-- The bytes of a pool. -/
def poolBytes (p : List (Nat × Nat)) : Nat := (p.map (·.2)).sum

/-- The HBM3 address of page `i` of the extents. -/
def pageAt (page : Nat) : Nat → List (Nat × Nat) → Nat
  | _, [] => 0
  | i, e :: r => if i * page < e.2 then e.1 + i * page else pageAt page (i - e.2 / page) r

/-! ### Tables (R334, R335) -/

/-- CHECK of an entry: CRC-8 over bits 55 down to 0 (R335; the bit order is DEDUCED, notes/assumptions/15.md). -/
def entryCrc (w : Nat) : Nat := crcMsb 8 0x07 0 (msbBits 56 w)

/-- A table entry (R335). -/
def tableEntry (page level addr surf : Nat) : Nat :=
  let w := 1 + page * 2 + level * 8 + addr / 4096 % 2 ^ 23 * 4096 + surf * 2 ^ 44
  w + entryCrc w * 2 ^ 56

/-- Level-1 entries of a surface (R334). -/
def Surface.l1Count (x : Surface) : Nat := ceilDiv x.bytes (2 ^ (x.pageLog + 9))
/-- Bytes of its level-1 table, in whole 4 KB units. -/
def Surface.l1Bytes (x : Surface) : Nat := alignUp (8 * x.l1Count) 4096

/-- The tables of a surface written into HBM3 (R332 step 4). -/
def buildTables (i : Nat) (x : Surface) (mem : Memory) : Memory :=
  let pg := nbits x.attr 1 0
  let l2s := x.tables.drop 1
  let m1 := (List.range x.l1Count).foldl (fun m k =>
    Memory.store ramDefault m (x.l1 * 4096 + 8 * k) (leBytes 8 (tableEntry pg 1 (pageAt 4096 k l2s) i))) mem
  (List.range (x.bytes / 2 ^ x.pageLog)).foldl (fun m k =>
    Memory.store ramDefault m (pageAt 4096 (k / 512) l2s + 8 * (k % 512))
      (leBytes 8 (tableEntry pg 0 (pageAt (2 ^ x.pageLog) k x.pages) i))) m1

/-- Whether an extent lies within a pool's whole area. -/
def inArea (area : List (Nat × Nat)) (a n : Nat) : Bool := area.any fun e => decide (e.1 ≤ a) && decide (a + n ≤ e.1 + e.2)

/-- Judge a table entry read by a walk (R335, R343): the address, or kind 4 or 5. -/
def judgeEntry (s : State) (i : Nat) (x : Surface) (level w : Nat) : Nat × Option Nat :=
  let size := if level = 1 then 4096 else 2 ^ x.pageLog
  let a := nbits w 34 12 * 4096
  if !(nbit w 0 && (nbits w 2 1 == nbits x.attr 1 0) && (nbits w 3 3 == level) && (nbits w 55 44 == i) && (nbits w 63 56 == entryCrc (w % 2 ^ 56))
      && decide (a % size = 0)) then (4, none)
  else if hbmCapacity s < a + size ∨ ¬ inArea (if level = 1 then s.surf.tableAll else s.surf.poolAll) a size then (5, none)
  else (0, some a)

/-- A walk of the tables of a surface at an offset (R334, R335): the page's HBM3 address, or the fault kind (R343). -/
def walkTables (s : State) (i offset : Nat) (host poison : Bool) : Nat × Option Nat :=
  let x := s.surfAt i
  if (host && x.st == 3) || !(x.st == 2 || x.st == 3) then (3, none)
  else if x.bytes ≤ offset then (1, none)
  else if poison then (6, none)
  else
    let p := x.pageLog
    match judgeEntry s i x 1 (Memory.le ramDefault s.hbm.mem (x.l1 * 4096 + 8 * (offset / 2 ^ (p + 9))) 8) with
    | (k, none) => (k, none)
    | (_, some t) => judgeEntry s i x 0 (Memory.le ramDefault s.hbm.mem (t + 8 * (offset / 2 ^ p % 512)) 8)

/-! ### The TLB (R336) -/

def tlbSet (i page : Nat) : Nat := page % 256 ^^^ i % 256

/-- The entry of a page in the TLB. -/
def tlbFind (s : State) (i page : Nat) : Option TlbEntry := s.surf.tlb.find? fun e => e.surf == i && e.page == page

/-- Enter a completed walk in the TLB: a free way of its set, or the way that pseudo-LRU names, a free value. -/
def tlbEnter (s : State) (i page phys : Nat) : State :=
  let x := s.surfAt i
  let set := tlbSet i page
  let used := (s.surf.tlb.filter fun e => e.set == set).map (·.way)
  let (v, s1) := s.draw 1
  let way := ((List.range 8).find? fun w => !used.contains w).getD (v % 8)
  let s2 := if used.length < 8 then s else s1
  let e : TlbEntry := { set := set, way := way, surf := i, page := page, phys := phys, hostR := x.hostR && x.st == 2, hostW := x.hostW && x.st == 2 }
  s2.modSurf fun m => { m with tlb := e :: m.tlb.filter fun f => !(f.set == set && f.way == way) }

/-- A miss starts a walk in a free walk slot (R336); a layer fetch comes through its engine's own Runner (R187). A host access that
arrives after the revoke point faults with kind 3; one accepted before it completes under the old rights (R340). -/
def execTlbMiss (i offset runner engine : Nat) (write : Bool) (o layer queue frag : Nat) (s : State) : Host.Outcome State Fault Refusal :=
  if (tlbFind s i (offset / 2 ^ (s.surfAt i).pageLog)).isSome ∨ 8 ≤ s.surf.walks.length ∨ (9 ≤ runner ∧ runner ≤ 12 ∧ runner ≠ engineRunner engine) then .next s
  else
    let w : Walk := ⟨i, offset, runner, engine, write, o, layer, queue, frag, runner == 8 && (s.surfAt i).st == 3⟩
    .next (s.modSurf fun m => { m with walks := m.walks ++ [w] })

/-- Whether a fault of queue `q` at fragment `f` goes before one recorded at tick `t` for queue `q0` at fragment `f0`: faults reported
in one tick are ordered by lower queue, then by lower fragment (R205). -/
def faultFirst (now t q f q0 f0 : Nat) : Bool := now == t && decide (q < q0 ∨ (q = q0 ∧ f < f0))

/-- Record a translation fault while none is recorded (R345, R348), or one of the same tick that R205 orders after it. -/
def recordXlate (s : State) (w : Walk) (kind : Nat) : State :=
  let layer := decide (9 ≤ w.runner ∧ w.runner ≤ 12)
  s.modSurf fun m => if m.fltValid && !(layer && decide (9 ≤ m.fltRunner ∧ m.fltRunner ≤ 12) && faultFirst s.tb.tick m.fltAt w.queue w.frag m.fltQueue m.fltFrag) then m else { m with
    fltValid := true, fltAt := s.tb.tick, fltQueue := w.queue, fltFrag := w.frag, fltKind := kind, fltWrite := w.write, fltRunner := w.runner,
    fltEngine := if layer then w.engine else 0, fltSurf := w.surf, fltOfs := w.offset }

/-- SURFACE events carry the surface in bits 11:0, faults the kind in bits 15:12 (R349). -/
def xlateData (surf kind : Nat) : Nat := surf + kind * 2 ^ 12

/-- A walk completes (R336, R345): its result enters the TLB, or its fault is held with its tag; a fault of a host access
raises HOST_XLATE_FAULT (R344). -/
def execTlbWalkDone (k : Nat) (poison : Bool) (s : State) : Host.Outcome State Fault Refusal :=
  match s.surf.walks[k]? with
  | none => .next s
  | some w =>
    let s1 := s.modSurf fun m => { m with walks := m.walks.eraseIdx k }
    match if w.gone then (3, none) else walkTables s1 w.surf w.offset false poison with
    | (_, some phys) => .next (tlbEnter s1 w.surf (w.offset / 2 ^ (s1.surfAt w.surf).pageLog) phys)
    | (kind, none) =>
      if 9 ≤ w.runner ∧ w.runner ≤ 12 then .next (s1.modSurf fun m => { m with heldFaults := m.heldFaults ++ [(w, kind)] })
      else if w.runner = 8 then .next (raiseLimited (recordXlate s1 w kind) 0x0406 0 (xlateData w.surf kind) oneSecond .bar0)
      else .next (recordXlate s1 w kind)

/-- The translation of an address of a surface: through the TLB, or by a walk that enters it (R336). -/
def translate (s : State) (i offset : Nat) (host : Bool) : Nat × Option Nat × State :=
  let page := offset / 2 ^ (s.surfAt i).pageLog
  match tlbFind s i page with
  | some e => (0, some (e.phys + offset % 2 ^ (s.surfAt i).pageLog), s)
  | none => match walkTables s i offset host false with
    | (_, some phys) => (0, some (phys + offset % 2 ^ (s.surfAt i).pageLog), tlbEnter s i page phys)
    | (k, none) => (k, none, s)

/-- The mapped, freed or reclaiming surface that holds a surface address (R336, R343). -/
def surfaceOf (s : State) (addr : Nat) : Option Nat :=
  (s.surf.surfs.find? fun e => decide (2 ≤ e.2.st) && decide (e.2.lo ≤ addr) && decide (addr < e.2.hi)).map (·.1)

/-- The surface that a host access reaches: none at or above 2^BAR2_LOG (R331, R282; that such an access faults with kind 1 is DEDUCED,
notes/assumptions/129.md). -/
def hostSurface (s : State) (addr : Nat) : Option Nat := if addr < 2 ^ s.mgmt.bar2Log then surfaceOf s addr else none

/-- The translation of a host access (R337, R343): the surface and HBM3 address, or the kind of the fault. -/
def hostAccess (s : State) (addr : Nat) (write : Bool) : Nat × Option (Nat × Nat) × State :=
  match hostSurface s addr with
  | none => (1, none, s)
  | some i =>
    let x := s.surfAt i
    let s0 := s.modSurf fun m => { m with cache := (i :: m.cache.filter (· != i)).take 64 }
    if 3 ≤ x.st then (3, none, s0)
    else if (if write then !x.hostW else !x.hostR) then (2, none, s0)
    else match translate s0 i (addr - x.lo) true with
      | (_, some a, s1) => (0, some (i, a), s1)
      | (k, none, s1) => (k, none, s1)

/-- The bytes of a surface from an offset, as a device Runner reads them (R337). -/
def surfaceByte (s : State) (i offset : Nat) : Byte :=
  match walkTables s i offset false false with
  | (_, some a) => Sparse.get ramDefault s.hbm.mem (a + offset % 2 ^ (s.surfAt i).pageLog)
  | _ => 0

/-! ### SURF_CMD (R332, R340, R348) -/

/-- SURF_CMD_STATUS after a command; a failed one raises SURF_CMD_FAIL (R332). -/
def surfResult (s : State) (i result : Nat) (path : PathId) : State :=
  let s1 := s.modSurf fun m => { m with result := result, cmdSurf := i }
  if result = 0 then s1 else raiseP s1 0x0402 i path

/-- The surface that SURF_ARG_* describe. -/
def argSurface (s : State) : Surface :=
  { st := 1, attr := (s.act).fld 0x4000C 6 0, base := (s.act).fld 0x40004 26 0, size := (s.act).fld 0x40008 22 0 }

/-- RESULT of a MAP's arguments (R331, R332): 2 for a bad argument, 3 for an overlap, 0 for none. -/
def mapArgs (s : State) (x : Surface) : Nat :=
  if nbits x.attr 1 0 = 3 ∨ nbits x.attr 3 2 ≠ 0 ∨ (x.prot && x.hostR) ∨ x.size = 0 ∨ 4194304 < x.size
    ∨ x.bytes % 2 ^ x.pageLog ≠ 0 ∨ 2 ^ 48 < x.hi then 2
  else if s.surf.surfs.any fun e => e.2.st != 0 && decide (e.2.lo < x.hi) && decide (x.lo < e.2.hi) then 3
  else 0

/-- MAP (R332): pages and tables are taken, and zeroing begins; a failed command changes nothing but its result. -/
def surfMap (s : State) (i : Nat) (path : PathId) : State :=
  if s.surf.busy ∨ (s.surfAt i).st ≠ 0 then surfResult s i 1 path
  else
    let x := argSurface s
    let r := mapArgs s x
    if r ≠ 0 then surfResult s i r path
    else match takePages (2 ^ x.pageLog) x.bytes s.surf.pool with
      | (pages, pool, 0) =>
        (match takeRun x.l1Bytes s.surf.tablePool with
        | none => surfResult s i 5 path
        | some (l1, tp1) => match takePages 4096 (4096 * x.l1Count) tp1 with
          | (l2s, tp2, 0) =>
            let y := { x with l1 := l1 / 4096, pages := pages, tables := (l1, x.l1Bytes) :: l2s, mapNo := s.surf.maps + 1 }
            surfResult ((s.setSurf i y).modSurf fun m => { m with pool := pool, tablePool := tp2, busy := true, maps := m.maps + 1 }) i 0 path
          | _ => surfResult s i 5 path)
      | _ => surfResult s i 4 path

/-- FREE (R340): the revoke point; the surface goes to state 3. An armed Pour notes it (R342). -/
def surfFree (s : State) (i : Nat) (path : PathId) : State :=
  if s.surf.busy then surfResult s i 1 path
  else if (s.surfAt i).st ≠ 2 then surfResult s i 6 path
  else
    let s1 := s.modLadle fun l => if l.armed then { l with pending := l.pending.map fun p => { p with freed := i :: p.freed } } else l
    raiseP (surfResult (s1.modSurfAt i fun x => { x with st := 3, revoking := true }) i 0 path) 0x0403 i path

/-- A write of SURF_CMD (R332, R348). -/
def surfCmd (s : State) (v : Nat) (path : PathId) : State :=
  match nbits v 31 28 with
  | 1 => surfMap s (nbits v 11 0) path
  | 2 => surfFree s (nbits v 11 0) path
  | _ => surfResult s (nbits v 11 0) (if s.surf.busy then 1 else 2) path

/-- SURF_CMD with OP = MAP (R332), by a path with the SURFACE role. -/
def execSurfCmdMap (path : PathId) (i : Nat) (s : State) : Host.Outcome State Fault Refusal :=
  .next (withRole s path 2 0x40000 fun s => surfCmd s (2 ^ 28 + i) path)
/-- SURF_CMD with OP = FREE (R340). -/
def execSurfCmdFree (path : PathId) (i : Nat) (s : State) : Host.Outcome State Fault Refusal :=
  .next (withRole s path 2 0x40000 fun s => surfCmd s (2 * 2 ^ 28 + i) path)
/-- SURF_CMD with an undefined OP yields RESULT 2 (R348); a defined OP acts as its own command. -/
def execSurfCmdBadOp (path : PathId) (v : Word) (s : State) : Host.Outcome State Fault Refusal :=
  .next (withRole s path 2 0x40000 fun s => surfCmd s v.toNat path)

/-- Zeroing and table building complete (R332): the last step makes the surface reachable. -/
def execSurfMapped (s : State) : Host.Outcome State Fault Refusal :=
  match s.surf.surfs.find? fun e => e.2.st == 1 with
  | some (i, x) =>
    if !s.surf.busy then .next s
    else
      let s1 := s.modHbm fun h => { h with mem := buildTables i x (zeroExtents h.mem x.pages) }
      .next (raise ((s1.modSurfAt i fun x => { x with st := 2 }).modSurf fun m => { m with busy := false }) 0x0401 i)
  | none => .next s

/-- The host rights of a freed surface are cleared in the TLB and the surface cache (R340). -/
def execSurfRevokeDone (i : Nat) (s : State) : Host.Outcome State Fault Refusal :=
  if (s.surfAt i).st = 3 then
    .next ((s.modSurfAt i fun x => { x with revoking := false }).modSurf fun m => { m with
      tlb := m.tlb.map fun e => if e.surf = i then { e with hostR := false, hostW := false } else e
      cache := m.cache.filter (· != i) })
  else .next s

/-- A surface's fence holds no reference (R339). -/
def Surface.unreferenced (x : Surface) : Bool := x.refs.all (·.isNone)

/-- Reclaim begins (R340): state 4, and the TLB entries are removed; a walk that has not committed enters nothing and faults with
kind 3 (R336). -/
def execSurfReclaimStart (i : Nat) (s : State) : Host.Outcome State Fault Refusal :=
  if (s.surfAt i).st = 3 ∧ (s.surfAt i).unreferenced then
    .next ((s.modSurfAt i fun x => { x with st := 4, revoking := false }).modSurf fun m => { m with
      tlb := m.tlb.filter fun e => e.surf != i
      walks := m.walks.map fun w => if w.surf = i then { w with gone := true } else w
      cache := m.cache.filter (· != i) })
  else .next s

/-- Reclaim completes (R337, R340): a PROT surface's pages are overwritten, pages and tables return to their pools. -/
def execSurfReclaimed (i : Nat) (s : State) : Host.Outcome State Fault Refusal :=
  let x := s.surfAt i
  if x.st = 4 then
    let s1 := if x.prot then s.modHbm fun h => { h with mem := zeroExtents h.mem x.pages } else s
    let s2 := (s1.setSurf i {}).modSurf fun m => { m with
      pool := x.pages.foldl (fun p e => giveBack e p) m.pool
      tablePool := x.tables.foldl (fun p e => giveBack e p) m.tablePool }
    .next (raise s2 0x0404 i)
  else .next s

/-- The 32-byte descriptor of a surface (R333). -/
def descriptorByte (s : State) (i b : Nat) : Nat :=
  let x := s.surfAt i
  if b = 0 then x.st else if b = 1 then x.attr
  else if 4 ≤ b ∧ b < 8 then nbits (x.base / 2 ^ (8 * (b - 4))) 7 0
  else if 8 ≤ b ∧ b < 12 then nbits (x.size / 2 ^ (8 * (b - 8))) 7 0
  else if 12 ≤ b ∧ b < 16 then nbits (x.l1 / 2 ^ (8 * (b - 12))) 7 0
  else if b = 16 then (outputs.map fun n => if (nth x.refs n none).isSome then 2 ^ n else 0).sum
  else if 20 ≤ b ∧ b < 28 then nbits (((nth x.refs ((b - 20) / 2) none).getD 0) / 2 ^ (8 * ((b - 20) % 2))) 7 0
  else 0

end Sys2Proof.Machine
end

