-- ==== Sys2Proof/Machine/Compose.lean ====
section
/-! DEFINITION. Tile-binned composition and encoding: composition starts, readiness, binning, Sprue records, the engines, faults
in the middle of a tile, the warp, and the encoder (R50 to R62, R183 to R208, R209 to R231, R433 to R436). -/
namespace Sys2Proof.Machine

/-- The composer's data field (R208): output in bits 7:0, layer or queue in bits 31:16. -/
def compData (o x : Nat) : Nat := o + x * 2 ^ 16

/-! ### Readiness (R197 to R199, R221) -/

/-- The settings in force with the surfaces presented to the layers of an output in place of their descriptors' (R199): what a frame
that starts now is composed with (R190, R210). -/
def shownSettings (s : State) (o : Nat) : WordMap :=
  (s.composer.presents.filter fun e => lyOutput s.act e.1 == o).foldl (fun m e =>
    m.set (aLayer e.1 + 4) (BitVec.ofNat 32 (m.fld (aLayer e.1 + 4) 15 0 + e.2 % 4096 * 2 ^ 16 + m.fld (aLayer e.1 + 4) 31 28 * 2 ^ 28))) s.act

/-- Whether a layer's source rectangle lies within a source of `w` by `h` (R197); FIT takes the whole source. -/
def rectWithin (m : WordMap) (l w h : Nat) : Bool := lyFit m l || decide (lySX0 m l + lySW m l ≤ w ∧ lySY0 m l + lySH m l ≤ h)

/-- The newest complete frame of an input, as a source. -/
def newestFrame (s : State) (i : Nat) : Option (CapFrame × Source) :=
  match (s.inAt i).newest.bind (s.inAt i).holds with
  | none => none
  | some x => some (x.frame, .capture i x.frame.buffer x.frame.count x.frame.fmt.w x.frame.fmt.h x.frame.fmtOut)

/-- The source of a layer that is ready now (R197). -/
def readySource (s : State) (m : WordMap) (o l : Nat) : Option Source :=
  if lyKind m l = 0 then
    (let f := lySurface m l
     if (s.surfAt f).st = 2 then some (.host f (s.surfAt f).mapNo) else none)
  else
    match newestFrame s (lyInput m l) with
    | none => none
    | some (f, src) =>
      let fresh := lyStale m l == 0 || decide (((s.tb.tick - f.completed : Nat) : Rat) ≤ lyStale m l * period m o)
      if fresh && rectWithin m l f.fmt.w f.fmt.h then some src else none

/-- Whether a capture layer with FIT = 1 meets a frame beyond its scaler's limits (R221). -/
def beyondScaler (m : WordMap) (l : Nat) (src : Source) : Bool :=
  match src with
  | .capture i _ _ w h _ =>
    lyFit m l && (w != lyDW m l || h != lyDH m l)
      && (decide (4 * lyDW m l < w ∨ 4 * lyDH m l < h) || (match stripesOf w with
          | none => true
          | some n => decide ((stripesOf (inMaxW m i)).getD 4 < n)))
  | .host _ _ => false

/-- Whether a source still holds what it held and the source rectangle in force lies within it: the surface is the one mapped then and
its reclaim has not begun, or the buffer still holds that frame (R198, R341). -/
def sourceLives (s : State) (m : WordMap) (l : Nat) (src : Source) : Bool :=
  match src with
  | .host f k => (s.surfAt f).mapNo == k && ((s.surfAt f).st == 2 || (s.surfAt f).st == 3) && surfaceHolds m l (s.surfAt f)
  | .capture i _ n w h _ => ((s.inAt i).holds n).isSome && rectWithin m l w h

/-- The source of a layer's last completed composition, where HOLD may use it (R198). -/
def heldSource (s : State) (m : WordMap) (o l : Nat) : Option Source :=
  match (s.compAt o).held.find? fun e => e.1 == l with
  | some e => if sourceLives s m l e.2 then some e.2 else none
  | none => none

/-- A layer is disabled in both copies of its descriptor (R205, R221). -/
def disableLayer (s : State) (l : Nat) : State :=
  let off := fun (m : WordMap) => m.set (aLayer l) (BitVec.ofNat 32 (m.nat (aLayer l) / 2 * 2))
  s.modLadle fun x => { x with act := off x.act, stg := off x.stg }

/-- LAYER_STATUS_L after a frame's outcome; a changed outcome is a layer change (R198, R258). SRC_FRAME keeps the frame used last
where no source was used (R207). -/
def setStatus (s : State) (o l st : Nat) (src : Option Nat) : State :=
  let old := nth s.composer.layerStatus l (0, 0)
  let s1 := s.modComposer fun x => { x with layerStatus := listSet x.layerStatus l (st, src.getD old.2) }
  if old.1 = st then s1 else s1.modTg o fun t => { t with layerChange := true }

/-- SRC_FRAME of a source. -/
def sourceFrame : Source → Nat
  | .host _ _ => 0
  | .capture _ _ n _ _ _ => n % 65536

/-- A layer beyond its scaler's limits is disabled, with SCALE_LIMIT and its recovery (R221, R414). -/
def scaleLimit (s : State) (o l : Nat) : State :=
  recovered (disableLayer (fault s 0x0802 (compData o l) l) l) 0x0802 l

/-- STRIPE_CHANGE when a FIT layer's stripes change within those assigned (R221). -/
def noteStripes (s : State) (m : WordMap) (o l : Nat) (src : Source) : State :=
  match src with
  | .capture _ _ _ w _ _ =>
    if lyFit m l then
      let n := (stripesOf w).getD 4
      let old := (s.compAt o).stripes.find? fun e => e.1 == l
      let s1 := s.modComp o fun c => { c with stripes := (l, n) :: c.stripes.filter fun e => e.1 != l }
      match old with
      | some e => if e.2 = n then s1 else raise s1 0x0803 (compData o l)
      | none => s1
    else s
  | .host _ _ => s

/-- One layer is judged when binning begins: the source it is binned with, if any (R198, R221). -/
def judgeLayer (m : WordMap) (o : Nat) (a : State × List (Nat × Source)) (l : Nat) : State × List (Nat × Source) :=
  let s := a.1
  let ready := readySource s m o l
  let beyond := match ready with | some src => beyondScaler m l src | none => false
  match (if beyond then none else ready) with
  | some src => (setStatus (noteStripes s m o l src) o l 1 (some (sourceFrame src)), a.2 ++ [(l, src)])
  | none =>
    let s1 := if beyond then scaleLimit s o l else s
    match (if lyPolicy m l = 0 then heldSource s1 m o l else none) with
    | some src =>
      let s2 := raiseLimited s1 0x0701 l (compData o l) oneSecond .internal
      (setStatus s2 o l (if beyond then 5 else 2) (some (sourceFrame src)), a.2 ++ [(l, src)])
    | none =>
      let s2 := raiseLimited s1 0x0702 l (compData o l) oneSecond .internal
      (setStatus s2 o l (if beyond then 5 else 3) none, a.2)

/-! ### Binning (R190 to R195) -/

/-- The on-chip entries that frames under construction hold (R193). -/
def onChipUsed (s : State) : Nat :=
  (outputs.map fun o => match (s.compAt o).fuc with
    | none => 0
    | some f => (f.entries.map fun e => e.2.length).sum).sum

/-- A list cut into runs of up to `n`. -/
def chunks {α : Type} (n : Nat) : Nat → List α → List (List α)
  | 0, _ => []
  | k + 1, l => if l.isEmpty then [] else l.take n :: chunks n k (l.drop n)

/-- The entries that do not fit on chip, per tile, taken in binning order: layer by layer, then tile by tile (R190, R193). -/
def spilledEntries (m : WordMap) (o ntiles free : Nat) (sources : List (Nat × Source)) : List (Nat × Entry) :=
  let all := sources.flatMap fun src => (List.range ntiles).filterMap fun t =>
    ((tileEntries m o t sources).find? fun e => e.layer == src.1).map fun e => (t, e)
  all.drop free

/-- The lowest record of the pool that is not taken. -/
def freeRecord (used : List Nat) : Nat := ((List.range (used.length + 1)).find? fun i => !used.contains i).getD 0
/-- Records numbered with the lowest free ones, in order (DESIGN CHOICE, notes/assumptions/109.md). -/
def numbered (used : List Nat) : List SprueRec → List SprueRec
  | [] => []
  | r :: l => { r with idx := freeRecord used } :: numbered (freeRecord used :: used) l

/-- The Sprue records that spilled entries fill, in binning order: up to 7 entries of one queue each, FRAME the low 32 bits of the
frame counter (R193). -/
def sprueRecords (qbase ntiles frame : Nat) (used : List Nat) (spilled : List (Nat × Entry)) : List SprueRec :=
  numbered used ((List.range ntiles).flatMap fun t =>
    let es := (spilled.filter fun e => e.1 == t).map (·.2)
    (chunks 7 es.length es).map fun c => { queue := qbase + t, frame := frame % 2 ^ 32, entries := c, linked := false, tries := 0 })

/-- SPRUE_SIZE × 64 records (R193). -/
def sprueSize (m : WordMap) : Nat := m.fld 0x70004 15 0 * 64

/-- The fences of the sources: the output's mark on those it binned, none on the others (R338, R339). -/
def markRefs (s : State) (o frame : Nat) (sources : List (Nat × Source)) : State :=
  let s1 := dropRefs s o
  let s2 := sources.foldl (fun s e => match e.2 with
    | .host f _ => s.modSurfAt f fun x => { x with refs := listSet x.refs o (some frame) }
    | .capture i _ n _ _ _ =>
      let mark := fun (y : CapBuf) => if y.fence && y.frame.count == n then { y with refs := (o, frame) :: y.refs } else y
      s.modIn i fun x => { x with bufs := x.bufs.map mark, oldBufs := x.oldBufs.map mark }) s1
  pruneAll s2

/-- The frame under construction is abandoned with a cause for its repeat (R38, R202, R254). -/
def abandonFrame (s : State) (o cause : Nat) : State := (releaseFrame s o .abandoned).modComp o fun c => { c with lastCause := cause }

/-- The entries of a tile that stay on chip: those neither spilled nor culled by any entry of the tile (R191, R193). -/
def onChipEntries (all : List Entry) (spilled : List Entry) : List Entry := (cull all).filter fun e => !spilled.contains e

/-- Binning of a frame, with the settings its composition start took: every layer is judged, its entries enter the queues, and what
does not fit on chip goes to Sprue records that are still to be written (R190 to R193). A full pool abandons the frame; SPRUE_FULL
names the queue of the first record without room (notes/assumptions/111.md). -/
def bin (s : State) (o : Nat) (f : FrameUC) : State :=
  let m := f.snap.cfg
  let (s1, sources) := (layersOf m o).foldl (judgeLayer m o) (s, [])
  let c := s1.compAt o
  let spilled := spilledEntries m o c.ntiles (262144 - onChipUsed s1) sources
  let recs := sprueRecords c.qbase c.ntiles f.frame (s1.composer.sprue.map (·.idx)) spilled
  let g : FrameUC := { f with
    phase := .binning, sources := sources, tiles := List.replicate c.ntiles .binned
    entries := (List.range c.ntiles).map fun t =>
      (t, onChipEntries (tileEntries m o t sources) ((spilled.filter fun e => e.1 == t).map (·.2))) }
  let s2 := markRefs (s1.modComp o fun c => { c with fuc := some g, frameSources := sources }) o f.frame sources
  let room := sprueSize m - s2.composer.sprue.length
  match recs.drop room with
  | r :: _ => recovered (abandonFrame (fault s2 0x0708 (compData o r.queue) o) o 4) 0x0708 o
  | [] => s2.modComposer fun x => { x with sprue := x.sprue ++ recs, spruePeak := max x.spruePeak (x.sprue.length + recs.length) }

/-- The layers under WAIT_ALL of a frame composed with settings `m` that are not ready (R198). -/
def waitingLayers (s : State) (m : WordMap) (o : Nat) : List Nat :=
  (layersOf m o).filter fun l => lyPolicy m l == 2 && (match readySource s m o l with
    | some src => beyondScaler m l src
    | none => true)

/-- Throughout a wait, a WAIT_ALL layer whose newest frame is beyond the scaler's limits is disabled from the next composition start
on, once; the wait goes on (R221). -/
def judgeWaiting (s : State) (m : WordMap) (o : Nat) : State :=
  (waitingLayers s m o).foldl (fun s l =>
    match readySource s m o l with
    | some _ => setStatus (if lyEnable s.act l then scaleLimit s o l else s) o l 5 none
    | none => setStatus s o l 4 none) s

/-! ### The start of encoding: dither phase, reduced dither and marking (R54 to R56, R433 to R436) -/

/-- The 80 bits that mark a frame: DEV_ID[23:0], the output, whether secure time stands, M, and the CRC-16 (R434). -/
def markPayload (s : State) (o minutes : Nat) : List Nat :=
  let p := s.fuse.devId % 2 ^ 24 * 2 ^ 40 + o * 2 ^ 38 + (if (secureNow s).isSome then 2 ^ 37 else 0) + minutes % 2 ^ 32
  let b := beBytes 8 p
  msbBits 64 p ++ msbBits 16 (crc16 b)

/-- Whole minutes of secure time, or of local time since Dawn (R434). -/
def markMinutes (s : State) : Nat := ((secureNow s).getD (localNs s)) / 60000000000

/-- Marking of an output while it is active (R433): the key, M and the payload. -/
def marking (s : State) (o : Nat) : Option (List Byte × Nat × List Nat) :=
  if !(s.act).bit (0x100100 + 0x40 * o) 31 then none
  else (heldKey s 0xFFFE).map fun k => (k.key, markMinutes s, markPayload s o (markMinutes s))

/-- The tag of a buffer (R62): the set index and its version. -/
def bufferTag (s : State) (o t : Nat) : Nat := t % 8 + nth (s.encAt o).versions t 0 % 32 * 8

/-- Encoding of a frame begins at its composition start (notes/assumptions/63.md): the count of frames advances and gives the dither
phase, reduced dither is judged on a PLANE output, the marking is taken (R54, R55, R436), and the program and the tag of the plane set
are recorded with the back buffer (R62, R83). PHASE_MODE 2 and 3 are reserved without an effect, and act as 0 (DESIGN CHOICE,
notes/assumptions/106.md); a SCAN output's buffer, which has no plane set, carries tag 0 (DESIGN CHOICE, notes/assumptions/108.md). -/
def beginEncoding (s : State) (o : Nat) (f : FrameUC) : State :=
  let m := f.snap.cfg
  let e := s.encAt o
  let plane := !isScan m o
  let red := plane && decide (m.fld (aDither o) 26 24 ≤ temperLevel s)
  let n := e.phaseCount + 1
  let ph := if red || m.fld (aDither o) 17 16 == 1 then 0 else n % 4
  let t := if plane then progPlaneSet m o f.prog else 0
  let tag := if plane then bufferTag s o t else 0
  let back := backBuf s o
  let g := { f with dither := ph, reduced := red, mark := marking s o, tag := tag }
  let s1 := (s.modEnc o fun e => { e with
    phaseCount := n, phase := if plane then ph else e.phase, reduced := if plane then red else e.reduced
    bufs := if back.complete then e.bufs else listSet e.bufs (1 - e.frontIdx) { back with tag := tag, prog := f.prog, planeSet := t, snap := f.snap } }).modComp o
      fun c => { c with fuc := some g }
  let s2 := s1.modCruc fun c => match g.mark with
    | some (_, mm, _) => { c with markM := listSet c.markM o mm }
    | none => c
  if plane && red != e.reduced then raise s2 0x0902 o else s2

/-! ### Composition starts (R26, R234, R255, R259 to R261, R521) -/

/-- Layers that a fault disabled are absent from this composition start on (R205); one that has been enabled again since is not. -/
def announceDisabled (s : State) (o : Nat) : State :=
  let mine := s.composer.disabledByFault.filter fun l => lyOutput s.act l == o
  let s0 := s.modComposer fun x => { x with disabledByFault := x.disabledByFault.filter fun l => !mine.contains l }
  (mine.filter fun l => !lyEnable s.act l).foldl (fun s l => raise (setStatus s o l 5 none) 0x0707 (compData o l)) s0

/-- LAYER_STATUS_L of layers the output no longer uses; those disabled after a fault keep state 5. -/
def statusDisabled (s : State) : State :=
  let now := (List.range 128).map fun l =>
    let e := nth s.composer.layerStatus l (0, 0)
    if !lyEnable s.act l && e.1 != 5 then (0, e.2) else e
  s.modComposer fun x => { x with layerStatus := now }

/-- STILL_MODE and STILL_IDLE. -/
def stillMode (m : WordMap) (o : Nat) : Nat := m.fld (aTgCfg o) 18 17
def stillIdleOf (m : WordMap) (o : Nat) : Nat := m.fld (aTgCfg o) 27 20

/-- Whether the frame that starts now is composed as a STILL frame (R259, R261). -/
def entersStill (s : State) (o : Nat) : Bool :=
  let t := s.tgAt o
  let x := s.outAt o
  (x.mode == 2 || x.mode == 3)
    && ((stillMode s.act o == 1 && !t.stillSpent) || (stillMode s.act o == 2 && decide (stillIdleOf s.act o ≤ t.stillIdle)))

/-- Whether an output composes at this composition start. -/
def composes (s : State) (o : Nat) : Bool :=
  let t := s.tgAt o
  let x := s.outAt o
  t.started && !t.composeStopped && !s.aod.halt && t.tm != .stopped && (x.mode == 2 || x.mode == 3 || x.mode == 5 || x.entry.isSome)

/-- The presents written since take effect, and the output takes its new queue range (R189, R199). -/
def startRanges (s : State) (o : Nat) : State :=
  let mine := s.composer.presentsNext.filter fun e => lyOutput s.act e.1 == o
  (s.modComposer fun x => { x with
    presents := mine ++ x.presents.filter fun e => !(mine.any fun d => d.1 == e.1)
    presentsNext := x.presentsNext.filter fun e => lyOutput s.act e.1 != o }).modComp o fun c =>
      { c with qbase := c.nextQbase, ntiles := c.nextNtiles }

/-- STILL at a composition start (R258, R259, R261): the count of frames without change, and leaving after one. -/
def stillStep (s : State) (o : Nat) : State :=
  let change := (s.tgAt o).layerChange
  let s1 := s.modTg o fun t => { t with layerChange := false, stillIdle := if change then 0 else min 255 (t.stillIdle + 1) }
  if change ∧ (s.outAt o).mode = 4 ∧ (s.outAt o).exit = .none_ then
    modeChange (raise ((interruptRun s1 o).modOut o fun x => { x with mode := showMode s o }) 0x0226 o) o 4 (showMode s o)
  else s1

/-- In STILL no frame is binned, but a change of readiness counts (R258, R260). -/
def watchStill (s : State) (o : Nat) : State :=
  if (s.outAt o).mode ≠ 4 then s
  else
    let m := shownSettings s o
    let changed := (layersOf m o).any fun l =>
      let st := (nth s.composer.layerStatus l (0, 0)).1
      if (readySource s m o l).isSome then st != 1 else st == 1
    if changed then s.modTg o fun t => { t with layerChange := true } else s

/-- A timing-mode change begins at C_a (R255): composition stops, and an output in STILL leaves it (R256). -/
def startTiming (s : State) (o : Nat) : State :=
  let s1 := (dropRefs (stopComposition s o 7) o).modTg o fun t => { t with tm := .stopped, composeStopped := true }
  if (s1.outAt o).mode = 4 then
    modeChange (raise ((interruptRun s1 o).modOut o fun x => { x with mode := showMode s o }) 0x0226 o) o 4 (showMode s o)
  else s1

/-- Binning begins when every WAIT_ALL layer of the frame is ready; otherwise the frame waits (R198). -/
def startBinning (s : State) (o : Nat) : State :=
  match (s.compAt o).fuc with
  | none => s
  | some f => if (waitingLayers s f.snap.cfg o).isEmpty then bin s o f else judgeWaiting s f.snap.cfg o

/-- A poisoned frame's entries, records and contexts are released (R205, R414): the layers whose translation faulted are disabled in
both copies and COMPOSE_RECOVERED is raised; after a Sprue or HBM3 failure, RECOVERY_DONE names it. -/
def recoverFrame (s : State) (o : Nat) : State :=
  match (s.compAt o).fuc with
  | none => s
  | some f =>
    if f.phase ≠ .poisoned then s
    else
      let s1 := releaseFrame s o .poisoned
      let s2 := if s1.log.recovering.contains (0x0705, o) then
          (let s3 := f.faulted.foldl disableLayer { s1 with log := { s1.log with recovering := s1.log.recovering.erase (0x0705, o) } }
           let s4 := s3.modComposer fun x => { x with disabledByFault := x.disabledByFault.filter (!f.faulted.contains ·) ++ f.faulted }
           raise (s4.modComp o fun c => { c with fuc := c.fuc.map fun g => { g with faulted := [] } }) 0x0706 0x0705)
        else s1
      recoveredAll s2 [0x0606, 0x0709] o

/-- A composition start C_k (R26, R190, R198). A recovery that is still under way is completed first, so that the layer is absent from
this composition (R205; DESIGN CHOICE, notes/assumptions/113.md). -/
def compositionStart (s00 : State) (o : Nat) : State :=
  let s := recoverFrame s00 o
  let s1 := markApplied (s.modTg o fun t => { t with cfgAtC := s.act, ctaken := true }) o
  let t := s1.tgAt o
  let runs := isLit s1 o || (s1.outAt o).entry.isSome
  if t.started ∧ runs ∧ t.tm = .idle ∧ (s1.outAt o).exit = .none_ ∧ timingChange (s1.rt o) s1.act o then startTiming s1 o
  else
    let s2 := statusDisabled (announceDisabled (startRanges s1 o) o)
    let s3 := stillStep (watchStill s2 o) o
    if !composes s3 o then s3
    else
      let still := entersStill s3 o
      let m := s3.act
      let f : FrameUC := {
        frame := t.counter + 1, snap := { cfg := shownSettings s3 o, flux := s3.drive.strings.map (·.weightFlux) }
        prog := if still && !isScan m o then seqStillProg m o else seqProg m o
        still := still, phase := .waiting, start := s.tb.tick, dither := 0, reduced := false, mark := none
        sources := [], tiles := [], entries := [], warpDone := [], canvas := [] }
      let s4 := beginEncoding (s3.modComp o fun c => { c with stalls := 0, warpFirst := none }) o f
      startBinning s4 o

/-- An output's composition start arrives. -/
def execCompositionStart (o : Nat) (s : State) : Host.Outcome State Fault Refusal :=
  if (s.tgAt o).running then .next (compositionStart s o) else .next s

/-- A WAIT_ALL wait may end (R198): binning begins when every such layer is ready. -/
def execWaitAllReady (o : Nat) (s : State) : Host.Outcome State Fault Refusal :=
  match (s.compAt o).fuc with
  | some f =>
    if f.phase = .waiting then .next (startBinning s o) else .next s
  | none => .next s

/-- The WAIT_ALL limit (R198): the frame is not composed, and the front buffer repeats with CAUSE 3. The event names the first layer
waited for (notes/assumptions/111.md). -/
def execWaitRepeat (o : Nat) (s : State) : Host.Outcome State Fault Refusal :=
  match (s.compAt o).fuc with
  | some f => if f.phase = .waiting then .next (raise (abandonFrame s o 3) 0x0703 (compData o ((waitingLayers s f.snap.cfg o).headD 0))) else .next s
  | none => .next s

/-! ### Composing a tile (R187, R194, R196) -/

/-- The raw pixel word of a source at a column and row (R186, R187). -/
def fetchPixel (s : State) (m : WordMap) (l : Nat) (src : Source) (x y : Nat) : Nat :=
  match src with
  | .host f _ =>
    let bpp := bitsPerPixel (lyFormat m l)
    let off := Config.hostPixelOffset x y (s.surfAt f).size bpp
    leNat ((List.range (bpp / 8)).map fun i => surfaceByte s f (off + i))
  | .capture i _ n w _ fmt =>
    let n8 := bitsPerPixel fmt / 8
    Memory.le ramDefault s.hbm.mem ((((s.inAt i).holds n).getD {}).frame.base + (y * w + x) * n8) n8

/-- Three components of a pixel in one number, and back. -/
def packPx (p : Px) : Nat := p.r + p.g * 2 ^ 16 + p.b * 2 ^ 32
def unpackPx (n : Nat) : Px := { r := nbits n 15 0, g := nbits n 31 16, b := nbits n 47 32 }

/-- The entries of a chain of Sprue records in HBM3, from a record's index on (R193). -/
def chainEntries (mem : Memory) : Nat → Nat → List Entry
  | 0, _ => []
  | n + 1, idx =>
    if idx = sprueEnd then []
    else
      let a := sprueAddr idx
      ((List.range (min 7 (Memory.le ramDefault mem (a + 2) 1))).map fun i => entryOf (Memory.le ramDefault mem (a + 16 + 16 * i) 16))
        ++ chainEntries mem n (Memory.le ramDefault mem (a + 4) 4)

/-- The head of a queue's chain of Sprue records. -/
def spillPointer (s : State) (q : Nat) : Nat := match s.composer.spill.find? fun e => e.1 == q with | some e => e.2 | none => sprueEnd

/-- The entries of a tile, on chip and spilled, in blend order (R191, R194). -/
def tileQueue (s : State) (o : Nat) (f : FrameUC) (t : Nat) : List Entry :=
  let q := (s.compAt o).qbase + t
  let chip := match f.entries.find? fun e => e.1 == t with | some e => e.2 | none => []
  rankSorted (cull (chip ++ chainEntries s.hbm.mem (s.composer.sprue.filter fun r => r.queue == q).length (spillPointer s q)))

/-- The accumulators of a tile's pixels, row by row, after the entries that `part` names for a fragment index have been blended over
`base`, given by the place in that list (R194, R196). -/
def blendTile (s : State) (o : Nat) (f : FrameUC) (t : Nat) (part : Nat → List Entry) (base : Nat → Px) : List Px :=
  let m := f.snap.cfg
  let (x0, y0, w, h) := tileRect m o t
  let srcOf := fun l => match f.sources.find? fun e => e.1 == l with | some e => e.2 | none => .host 0 0
  (List.range h).flatMap fun y => (List.range w).map fun x =>
    blendEntries m (part (y * (tileSize m o).1 + x))
      (fun l => layerPixel m o l (srcOf l) (fetchPixel s m l (srcOf l)) (x0 + x) (y0 + y)) x y (base (y * w + x))

/-- The accumulators that a context slot saves of a tile stopped in front of fragment `frag` of its entry `entry` (R201). -/
def savedContext (s : State) (o : Nat) (f : FrameUC) (t entry frag : Nat) : TileCtx :=
  let c : TileCtx := { out := o, tile := t, entry := entry, frag := frag, acc := [] }
  let es := tileQueue s o f t
  { c with acc := (blendTile s o f t (fun k => es.take (entriesDone c k)) fun _ => background f.snap.cfg o).map packPx }

/-- The pixels of a tile by canvas position: the entries not yet blended, over the background or over the accumulators of the context
that the tile resumed from (R194, R196, R201). -/
def composeTile (s : State) (o : Nat) (f : FrameUC) (t : Nat) (ctx : Option TileCtx) : List (Nat × Nat) :=
  let m := f.snap.cfg
  let (x0, y0, w, _) := tileRect m o t
  let es := tileQueue s o f t
  let px := match ctx with
    | none => blendTile s o f t (fun _ => es) fun _ => background m o
    | some c => blendTile s o f t (fun k => es.drop (entriesDone c k)) fun j => unpackPx (nth c.acc j 0)
  px.zipIdx.map fun p => ((y0 + p.2 / w) * fsWidth m o + x0 + p.2 % w, packPx p.1)

/-- The composed canvas at a position: component `c` (R397, TAP 1). -/
def canvasAt (f : FrameUC) (o c x y : Nat) : Nat := (unpackPx (Sparse.get (fun _ => 0) f.canvas (y * fsWidth f.snap.cfg o + x))).comp c

/-! ### Sprue records and the engines (R193, R200 to R202) -/

/-- The output whose frame under construction uses a queue. -/
def queueOwner (s : State) (q : Nat) : Option Nat :=
  outputs.find? fun o => let c := s.compAt o; c.fuc.isSome && decide (c.qbase ≤ q) && decide (q < c.qbase + c.ntiles)

/-- A frame is poisoned by a Sprue record that fails a third time (R193). -/
def sprueFail (s : State) (o q : Nat) : State := poisonFrame (fault s 0x0709 (compData o q) o) o 2

/-- A Sprue record of a queue has been written through RUNNER_15 (R193): its 128 bytes, with the spill pointer in NEXT, stand in HBM3,
and the spill pointer then names it; a failed write is repeated, up to twice. -/
def execSprueSpill (queue : Nat) (ok : Bool) (s : State) : Host.Outcome State Fault Refusal :=
  match s.composer.sprue.findIdx? fun r => r.queue == queue && !r.linked with
  | none => .next s
  | some i =>
    let r := nth s.composer.sprue i { queue := queue, frame := 0, entries := [], linked := false, tries := 0 }
    let put := fun (r : SprueRec) => s.modComposer fun x => { x with sprue := listSet x.sprue i r }
    if ok then
      (let s1 := s.modHbm fun h => { h with mem := Memory.store ramDefault h.mem (sprueAddr r.idx) (sprueBytes r (spillPointer s queue)) }
       .next (s1.modComposer fun x => { x with
        sprue := listSet x.sprue i { r with linked := true }, spill := (queue, r.idx) :: x.spill.filter fun e => e.1 != queue }))
    else if r.tries < 2 then .next (put { r with tries := r.tries + 1 })
    else match queueOwner s queue with
      | some o => .next (sprueFail s o queue)
      | none => .next s

/-- The deadline D_n of an output's frame under construction, in ticks (R200). -/
def frameDeadline (s : State) (o : Nat) : Rat :=
  let t := s.tgAt o
  let m := match (s.compAt o).fuc with | some f => f.snap.cfg | none => s.act
  (t.pos : Rat) / (25 * t.den : Nat) - drainTicks m o

/-- Whether tile `a` comes before tile `b` in the order of R200; a tile is an output and a tile number. -/
def tileAhead (s : State) (a b : Nat × Nat) : Bool :=
  let da := frameDeadline s a.1
  let db := frameDeadline s b.1
  decide (da < db ∨ (da = db ∧ (a.1 < b.1 ∨ (a.1 = b.1 ∧ a.2 < b.2))))

/-- The first of some tiles in that order. -/
def firstTile (s : State) : List (Nat × Nat) → Option (Nat × Nat)
  | [] => none
  | a :: r => match firstTile s r with | none => some a | some b => some (if tileAhead s b a then b else a)

/-- The tiles of composing frames in a state that meets a condition. -/
def tilesIn (s : State) (p : TileState → Bool) : List (Nat × Nat) :=
  outputs.flatMap fun o => match (s.compAt o).fuc with
    | some f => if f.phase == .composing then ((List.range f.tiles.length).filter fun t => p (nth f.tiles t .binned)).map fun t => (o, t) else []
    | none => []

def isEligible : TileState → Bool | .eligible => true | _ => false
def isWaiting : TileState → Bool | .eligible => true | .saved _ => true | _ => false

/-- A tile's state changes. -/
def setTile (s : State) (o t : Nat) (x : TileState) : State :=
  s.modComp o fun c => { c with fuc := c.fuc.map fun f => { f with tiles := listSet f.tiles t x } }

/-- The context of a tile in a slot. -/
def slotOf (s : State) (o t : Nat) : Option TileCtx := (s.composer.contexts.filterMap id).find? fun c => c.out == o && c.tile == t

/-- An engine takes the first eligible or pre-empted tile (R200); a saved tile leaves its context slot and resumes from it (R201). -/
def dispatch (s : State) (e : Nat) : State :=
  match firstTile s (tilesIn s isWaiting) with
  | none => s
  | some (o, t) =>
    (setTile s o t (.running e)).modComposer fun x => { x with
      engines := listSet x.engines e (some (o, t))
      resumed := listSet x.resumed e (slotOf s o t)
      contexts := x.contexts.map fun c => match c with | some k => if k.out = o ∧ k.tile = t then none else some k | none => none }

/-- The context that an engine saves of its tile at its next fragment boundary (R201). How far the tile had come is a free value, no
less far than the context it resumed from (notes/assumptions/110.md). -/
def stopTile (s : State) (e o t : Nat) : Option TileCtx × State :=
  match (s.compAt o).fuc with
  | none => (none, s)
  | some f =>
    let (v, s1) := s.draw 7
    let (w, s2) := s1.draw 7
    let from_ := match nth s.composer.resumed e none with | some c => (c.entry, c.frag) | none => (0, 0)
    let n := (tileQueue s o f t).length
    let size := (tileSize f.snap.cfg o).1 * (tileSize f.snap.cfg o).2
    let entry := from_.1 + v % (n + 1 - from_.1)
    let frag := if entry = from_.1 then from_.2 + w % (size - from_.2) else w % size
    (some (savedContext s o f t entry frag), s2)

/-- Pre-emption (R201): while an eligible tile stands ahead of the last running one, no engine is free and a context slot is,
the last running tile is saved and its engine takes the first tile. -/
def preempt : Nat → State → State
  | 0, s => s
  | n + 1, s =>
    if s.composer.engines.any (·.isNone) then s
    else match firstTile s (tilesIn s isEligible), s.composer.contexts.findIdx? (·.isNone) with
      | some a, some slot =>
        let running := s.composer.engines.filterMap id
        let last := running.foldl (fun (b : Option (Nat × Nat)) r => match b with | none => some r | some c => some (if tileAhead s c r then r else c)) none
        (match last with
        | some (o, t) =>
          if tileAhead s a (o, t) then
            let e := (s.composer.engines.findIdx? (· == some (o, t))).getD 0
            let (ctx, s0) := stopTile s e o t
            let s1 := (setTile s0 o t (.saved slot)).modComposer fun x => { x with
              engines := listSet x.engines e none, resumed := listSet x.resumed e none, contexts := listSet x.contexts slot ctx }
            preempt n (dispatch s1 e)
          else s
        | none => s)
      | _, _ => s

/-- Binning of a frame completes (R200): every record is linked, and every tile becomes eligible. -/
def execBinningDone (o : Nat) (s : State) : Host.Outcome State Fault Refusal :=
  let c := s.compAt o
  match c.fuc with
  | some f =>
    if f.phase = .binning ∧ ¬ (s.composer.sprue.any fun r => !r.linked && decide (c.qbase ≤ r.queue) && decide (r.queue < c.qbase + c.ntiles)) then
      .next (preempt 16 (s.modComp o fun c => { c with fuc := some { f with phase := .composing, tiles := f.tiles.map fun _ => .eligible } }))
    else .next s
  | none => .next s

/-- An engine becomes free and takes its next tile. -/
def execTileDispatch (engine : Nat) (s : State) : Host.Outcome State Fault Refusal :=
  if (nth s.composer.engines engine none).isNone then .next (dispatch s engine) else .next s

/-! ### Committing tiles (R202, R223) -/

/-- Whether an engine's tile waits for a fragment whose translation faulted (R345). -/
def tileFaults (s : State) (o t : Nat) : Bool :=
  let q := (s.compAt o).qbase + t
  let ents := match (s.compAt o).fuc with
    | some f => (match f.entries.find? (fun (e : Nat × List Entry) => e.1 == t) with | some e => e.2 | none => [])
    | none => []
  s.surf.heldFaults.any fun w => w.1.queue == q && ents.any fun e => e.layer == w.1.layer

/-- Held faults of a tile that no fragment needs are dropped (R345). -/
def dropFaults (s : State) (q : Nat) : State := s.modSurf fun m => { m with heldFaults := m.heldFaults.filter fun w => w.1.queue != q }

/-- The composition of a frame is complete once every tile is committed: its sources are those HOLD may use (R198). -/
def finishFrame (s : State) (o : Nat) : State :=
  s.modComp o fun c => match c.fuc with
    | some f =>
      if f.phase == .composing && f.tiles.all (· == .committed) then
        { c with fuc := some { f with phase := .complete }, held := f.sources, lastStalls := c.stalls }
      else c
    | none => c

/-- A read of a tile's Sprue records fails: it is retried, up to twice, and a third failure poisons the frame (R193). -/
def refillFailed (s : State) (o q : Nat) : State :=
  match s.composer.sprue.findIdx? fun r => r.queue == q with
  | none => s
  | some i =>
    let r := nth s.composer.sprue i { queue := q, frame := 0, entries := [], linked := true, tries := 0 }
    if r.reads < 2 then s.modComposer fun x => { x with sprue := listSet x.sprue i { r with reads := r.reads + 1 } }
    else sprueFail s o q

/-- The address of a pixel in the warp canvas of an output: the buffer of the frame's parity, 8 bytes a pixel in raster order (R223; the
order is DESIGN CHOICE, notes/assumptions/114.md); none while the output has no canvas. -/
def warpAddr (s : State) (o frame x y : Nat) : Option Nat :=
  let m := match (s.compAt o).fuc with | some f => f.snap.cfg | none => s.act
  (ownedArea s.surf (8 + o)).map fun e => e.1 + 8 * (frame % 2 * (fsWidth m o * fsHeight m o) + y * fsWidth m o + x)

/-- The colour half writes a committed tile into the output's warp canvas, through RUNNER_12 (R223). -/
def writeWarp (s : State) (o : Nat) (f : FrameUC) (px : List (Nat × Nat)) : State :=
  let m := f.snap.cfg
  if !m.bit (aPixCtrl o) 3 then s
  else
    let put := fun (mem : Memory) (p : Nat × Nat) => match warpAddr s o f.frame (p.1 % fsWidth m o) (p.1 / fsWidth m o) with
      | some a => Memory.store ramDefault mem a (leBytes 8 (packPx (colourHalf m o (unpackPx p.2))))
      | none => mem
    s.modHbm fun h => { h with mem := px.foldl put h.mem }

/-- An engine commits its tile (R202): its pixels reach the colour half, its entries and records are released, and the engine
is free. A Sprue read that failed a third time poisons the frame (R193). -/
def execTileCommit (engine : Nat) (refillOk : Bool) (stall : Nat) (s : State) : Host.Outcome State Fault Refusal :=
  match nth s.composer.engines engine none with
  | none => .next s
  | some (o, t) =>
    match (s.compAt o).fuc with
    | none => .next s
    | some f =>
      let q := (s.compAt o).qbase + t
      if f.phase ≠ .composing ∨ tileFaults s o t then .next s
      else if !refillOk && s.composer.sprue.any fun r => r.queue == q then .next (refillFailed s o q)
      else
        let px := composeTile s o f t (nth s.composer.resumed engine none)
        let s2 := (writeWarp s o f px).modComp o fun c => { c with
          stalls := c.stalls + stall
          warpFirst := some (c.warpFirst.getD s.tb.tick)
          fuc := some { f with
            tiles := listSet f.tiles t .committed
            entries := f.entries.filter fun e => e.1 != t
            canvas := px.foldl (fun m p => Sparse.set (fun _ => 0) m p.1 p.2) f.canvas } }
        let s3 := s2.modComposer fun x => { x with
          engines := listSet x.engines engine none, resumed := listSet x.resumed engine none
          sprue := x.sprue.filter fun r => r.queue != q, spill := x.spill.filter fun e => e.1 != q }
        .next (finishFrame (dropFaults s3 q) o)

/-- The queue of the first tile of a frame that is not committed. -/
def firstUncommitted (s : State) (o : Nat) (f : FrameUC) : Nat := (s.compAt o).qbase + (f.tiles.findIdx? (· != .committed)).getD 0

/-- D_n passes with tiles uncommitted (R202): the frame is abandoned. A poisoned frame raises nothing more (R205). The event names the
queue of the first uncommitted tile (notes/assumptions/111.md). -/
def execComposeLate (o : Nat) (s : State) : Host.Outcome State Fault Refusal :=
  match (s.compAt o).fuc with
  | some f =>
    if f.phase = .binning ∨ f.phase = .composing ∨ f.phase = .waiting then .next (raise (abandonFrame s o 1) 0x0704 (compData o (firstUncommitted s o f))) else .next s
  | none => .next s

/-- An output tile begins the geometry half once every canvas tile in its footprint has been committed (R223); at the last one
PIX_WARP_WAIT_n takes the frame's wait (R230). An abandoned or poisoned frame is discarded there too (R38). -/
def execWarpTileStart (o tile : Nat) (s : State) : Host.Outcome State Fault Refusal :=
  match (s.compAt o).fuc with
  | none => .next s
  | some f =>
    let m := f.snap.cfg
    if !m.bit (aPixCtrl o) 3 || f.warpDone.contains tile || decide (f.tiles.length ≤ tile) || !(f.phase == .composing || f.phase == .complete) then .next s
    else
      let (x0, y0, w, h) := tileRect m o tile
      let need := match tileFootprint m o x0 y0 w h with
        | none => []
        | some (xa, xb, ya, yb) => (List.range f.tiles.length).filter fun t =>
            let (cx, cy, cw, ch) := tileRect m o t
            decide (cx ≤ xb ∧ xa < cx + cw ∧ cy ≤ yb ∧ ya < cy + ch)
      if need.all fun t => nth f.tiles t .binned == .committed then
        .next (s.modComp o fun c => { c with
          fuc := some { f with warpDone := tile :: f.warpDone }
          warpWait := if f.warpDone.length + 1 = f.tiles.length then s.tb.tick - c.warpFirst.getD s.tb.tick else c.warpWait })
      else .next s

/-! ### Faults in the middle of a tile (R205, R345) -/

/-- The tile of an engine that reports a fault: the one it runs, or the one that its poisoned frame stopped in this tick (R205). -/
def faultingTile (s : State) (engine : Nat) : Option (Nat × Nat) :=
  match nth s.composer.engines engine none with
  | some x => some x
  | none =>
    if s.composer.stoppedAt = s.tb.tick then (s.composer.stopped.find? fun e => e.1 == engine).map (·.2) else none

/-- COMP_FAULT_A and COMP_FAULT_B take a fault while none is recorded, or one of the same tick that R205 orders after it. -/
def recordFault (s : State) (o : Nat) (w : Walk) (q : Nat) : State :=
  s.modComposer fun x => if x.faultValid && !faultFirst s.tb.tick x.faultAt q w.frag x.faultQueue x.faultFrag then x else { x with
    faultValid := true, faultAt := s.tb.tick, faultOut := o, faultLayer := w.layer, faultQueue := q, faultSurface := w.surf, faultFrag := w.frag }

/-- An engine reaches a fragment whose translation faulted (R205, R345): the fault is reported and its layer noted, and the frame is
poisoned unless it is already, one recovery serving all reports. -/
def execComposeFault (engine frag : Nat) (s : State) : Host.Outcome State Fault Refusal :=
  match faultingTile s engine with
  | none => .next s
  | some (o, t) =>
    let q := (s.compAt o).qbase + t
    match s.surf.heldFaults.find? (fun w => w.1.queue == q && w.1.frag == frag), (s.compAt o).fuc with
    | some (w, kind), some f =>
      let s1 := recordXlate (dropFaults s q) { w with engine := engine } kind
      let s2 := (recordFault s1 o w q).modComp o fun c =>
        { c with fuc := some { f with faulted := if f.faulted.contains w.layer then f.faulted else f.faulted ++ [w.layer] } }
      let s3 := raise s2 0x0405 (xlateData w.surf kind)
      .next (if f.phase = .poisoned then s3 else poisonFrame (fault s3 0x0705 (compData o w.layer) o) o 2)
    | _, _ => .next s

/-- The poisoned frame's entries, records and contexts have been released (R205, R414). -/
def execComposeRecovered (o : Nat) (s : State) : Host.Outcome State Fault Refusal := .next (recoverFrame s o)

/-! ### LAYER_PRESENT (R199) -/

/-- A write of LAYER_PRESENT. -/
def layerPresent (s : State) (v : Nat) (path : PathId) : State :=
  let l := nbits v 22 16
  let f := nbits v 11 0
  let m := s.act
  if lyKind m l ≠ 0 ∨ (s.surfAt f).st ≠ 2 then raiseP s 0x070B (compData (lyOutput m l) l) path
  else
    (s.modComposer fun x => { x with presentsNext := (l, f) :: x.presentsNext.filter fun e => e.1 != l }).modTg (lyOutput m l) fun t =>
      { t with layerChange := true }

def execLayerPresent (path : PathId) (v : Word) (s : State) : Host.Outcome State Fault Refusal :=
  .next (withRole s path 2 0x7000C fun s => layerPresent s v.toNat path)

/-! ### Encoding (R51 to R62, R394 to R399) -/

/-- The chip of a pixel on a channel (R435): none where the pixel or the channel is not marked. -/
def markChip (m : WordMap) (o c x y : Nat) (mk : List Byte × Nat × List Nat) : Option Int :=
  let a := 0x100100 + 0x40 * o
  let cell := [8, 16, 32].getD (m.fld a 25 24) 16
  let e := Config.aes256Block mk.1 ([0x4D, 0x52, 0x4B, 0x31] ++ beBytes 4 mk.2.1 ++ beBytes 2 (x / cell) ++ beBytes 2 (y / cell) ++ [0, 0, 0, 0])
  let b := fun i => (nth e i 0).toNat
  if !m.bit a c || decide (m.fld a 23 16 ≤ b 2) then none
  else
    let bit := nth mk.2.2 ((256 * b 0 + b 1) % 80) 0
    some (if (256 * b 4 + b 5) / 2 ^ (x % 4 + 4 * (y % 4)) % 2 = bit then 1 else -1)

/-- The canvas after the colour half at a position: out of the warp canvas where the warp is on and has one (R209, R223). -/
def colourAt (s : State) (f : FrameUC) (o x y : Nat) : Px :=
  let m := f.snap.cfg
  match (if m.bit (aPixCtrl o) 3 then warpAddr s o f.frame x y else none) with
  | some a => unpackPx (Memory.le ramDefault s.hbm.mem a 8)
  | none => colourHalf m o (unpackPx (Sparse.get (fun _ => 0) f.canvas (y * fsWidth m o + x)))

/-- The value of a light channel after stage 9 (R209, R226 to R228). -/
def pixelValue (s : State) (f : FrameUC) (o c x y : Nat) : Nat :=
  let m := f.snap.cfg
  let p := if m.bit (aPixCtrl o) 3 then warpSample (fun c x y => (colourAt s f o x y).comp c) (fsWidth m o) (fsHeight m o) (meshPos m o x y)
    else colourAt s f o x y
  geometryChan m o c x y p

/-- The value that leaves stage 10: limited by the zone (R394). -/
def zonedValue (s : State) (f : FrameUC) (o c x y : Nat) : Nat := min (pixelValue s f o c x y) (zoneLimit s o c x y)

/-- The code of a PLANE pixel's channel (R51 to R57). -/
def pixelCode (s : State) (f : FrameUC) (o c x y : Nat) : Nat :=
  let m := f.snap.cfg
  let t0 := threshold m o c f.dither x y
  let thr := match f.mark with
    | some mk => (match markChip m o c x y mk with
      | some chip => markThreshold t0 chip (markDelta (m.fld (0x100104 + 0x40 * o) 13 0) f.reduced)
      | none => t0)
    | none => t0
  encodePixel f.snap o (progPlaneSet m o f.prog) c (zonedValue s f o c x y) (zoneLimit s o c x y) thr f.reduced

/-- The bytes of one plane slot, row by row (R59). -/
def slotBytes (s : State) (f : FrameUC) (o j : Nat) : List Byte :=
  let m := f.snap.cfg
  let t := progPlaneSet m o f.prog
  let c := psChanOf m o t j
  let p := j - psBase m o t c
  (List.range (fsHeight m o)).flatMap fun y => (List.range (rowBytes m o)).map fun xb =>
    BitVec.ofNat 8 (((List.range 8).map fun b =>
      let x := 8 * xb + b
      if x < fsWidth m o ∧ nbit (pixelCode s f o c x y) p then 2 ^ b else 0).sum)

/-- The value of a SCAN pixel's channel (R61). -/
def scanValue (s : State) (f : FrameUC) (o c x y : Nat) : Nat :=
  let m := f.snap.cfg
  let v := zonedValue s f o c x y
  match f.mark with
  | some mk => (match markChip m o c x y mk with
    | some chip => min (zoneLimit s o c x y) (clampNat 65535 ((v : Int) + chip * m.fld (0x100100 + 0x40 * o) 9 8))
    | none => v)
  | none => v

/-- The encoded frame in the back buffer of the frame store (R59 to R61). -/
def storeFrame (s : State) (f : FrameUC) (o : Nat) : Memory :=
  let m := f.snap.cfg
  let b := backIdx s o
  if isScan m o then
    (List.range (fsHeight m o)).foldl (fun fs y =>
      Memory.store ramDefault fs (scanAddr m o b y 0 0)
        ((List.range (fsWidth m o)).flatMap fun x => (List.range (fsChannels m o)).flatMap fun c => leBytes 2 (scanValue s f o c x y))) s.fs
  else
    let t := progPlaneSet m o f.prog
    (List.range (psSlots m o t)).foldl (fun fs j => Memory.store ramDefault fs (planeAddr m o t b j 0 0) (slotBytes s f o j)) s.fs

/-- Whether every tile of a frame has passed the encoder: composed, and warped where the warp is on. -/
def encodable (f : FrameUC) (o : Nat) : Bool :=
  f.phase == .complete && (!f.snap.cfg.bit (aPixCtrl o) 3 || (List.range f.tiles.length).all fun t => f.warpDone.contains t)

/-- Encoding of a frame completes (R396, R399): the zone data read and the rectangles are judged, and the back buffer is
complete unless the zone data failed; ACTION 1 and 3 withhold the frame, ACTION 2 darkens it. -/
def execEncodeComplete (o : Nat) (s : State) : Host.Outcome State Fault Refusal :=
  match (s.compAt o).fuc with
  | none => .next s
  | some f =>
    if !encodable f o || (backBuf s o).complete then .next s
    else
      let m := f.snap.cfg
      let z := nth s.guard.zones o {}
      let sig := crc32 (zoneResident s o z.w z.h)
      if sig ≠ zoneExpect s.act o then .next (zoneFail s o sig)
      else
        let (s1, act) := judgeRects s m o (fun c x y => zonedValue s f o c x y) (fun c x y => canvasAt f o c x y) f.still
        let t := if isScan m o then 0 else progPlaneSet m o f.prog
        let buf : BufState := {
          tag := f.tag, prog := f.prog, planeSet := t, snap := f.snap, complete := true
          frame := f.frame, still := f.still, dark := act == some 2, withhold := act == some 1 || act == some 3 }
        .next { s1.modEnc o fun e => { e with bufs := listSet e.bufs (1 - e.frontIdx) buf } with fs := storeFrame s f o }

end Sys2Proof.Machine
end

