-- ==== Sys2Proof/Machine/Relvor.lean ====
section
/-! DEFINITION. The Relvor link: messages received, forwarded and sent (R239 to R243). -/
namespace Sys2Proof.Machine

/-- CABLE, in fine steps. -/
def rlvCable (m : WordMap) : Nat := m.fld 0x20204 15 0

/-- A little-endian field of a message: `n` bytes from byte `i`. -/
def msgField (l : List Byte) (i n : Nat) : Nat := leNat ((l.drop i).take n)

/-- A message passes its CRC (R240): 28 bytes and the check word. -/
def rlvCrcOk (l : List Byte) : Bool := l.length == 30 && crc16 (l.take 28) == msgField l 28 2

/-- The mapping a message gives: what is added to a root instant in fine steps to make it local (R242). -/
def rlvMapping (m : WordMap) (l : List Byte) (arrival : Nat) : Int :=
  (arrival : Int) - 25 * msgField l 8 8 - (msgField l 4 3 + rlvCable m)

/-- A TIME message refreshes the mapping (R242); 16 mappings within 2 fine steps of each other lock the device once the tick
PLL is locked on the link. -/
def rlvTime (s : State) (l : List Byte) (arrival : Nat) : State :=
  let x := rlvMapping (s.rt 4) l arrival
  let maps := (x :: s.rlv.runMaps).take 16
  let spread := maps.foldl max x - maps.foldl min x
  let locks := s.rlv.state ≠ 2 ∧ maps.length = 16 ∧ spread ≤ 2 ∧ refSel (s.rt 4) = 3 ∧ s.tb.phase = 2
  let s1 := { s with rlv := { s.rlv with
    map := some x, runMaps := maps, hops := msgField l 1 1 % 16, state := if locks then 2 else if s.rlv.state = 2 then 2 else 1 } }
  if locks then raise s1 0x0230 0 else s1

/-- A FRAME message announces the next frame start of a stream (R242, R243), converted with the mapping in force, or with the
message's own before any TIME message. -/
def rlvAnnounce (s : State) (l : List Byte) (arrival : Nat) : State :=
  let map := s.rlv.map.getD (rlvMapping (s.rt 4) l arrival)
  let d := msgField l 24 4
  let root : Int := 25 * (msgField l 8 8 + d % 2 ^ 27 : Nat) + (d / 2 ^ 27 : Nat)
  let k := msgField l 1 1 / 16 % 4
  regainRef { s with rlv := { s.rlv with
    announced := listSet s.rlv.announced k (some ((root + map).toNat, msgField l 16 8))
    announcedPrev := listSet s.rlv.announcedPrev k (nth s.rlv.announced k none)
    frameAt := listSet s.rlv.frameAt k (some (arrival / 25)) } } 3 k

/-- A message arrives on RLV_UP at a reference edge in fine steps (R241, R242). -/
def execRlvMessageReceive (bytes : List Byte) (arrival : Nat) (s : State) : Host.Outcome State Fault Refusal :=
  if !rlvCrcOk bytes then .next { s with rlv := { s.rlv with crcErrs := satAdd 0xFF s.rlv.crcErrs 1 } }
  else
    let origin := msgField bytes 2 2 % 2048
    if origin ≠ (s.rt 4).fld 0x20200 22 12 then .next (raise s 0x0232 0)
    else
      let s1 := { s with rlv := { s.rlv with origin := origin, state := if s.rlv.state = 0 ∨ s.rlv.state = 3 then 1 else s.rlv.state } }
      match msgField bytes 0 1 with
      | 1 => .next (rlvTime s1 bytes arrival)
      | 2 => .next (rlvAnnounce s1 bytes arrival)
      | _ => .next s1

/-- 64 ticks after its arrival a message is forwarded (R241): HOPS and DELAY advance and the CRC is made anew. The root
forwards nothing; a message that fails its CRC or names another root is not forwarded. -/
def execRlvForward (bytes : List Byte) (s : State) : Host.Outcome State Fault Refusal :=
  let m := s.rt 4
  if rlvRoot m || !rlvCrcOk bytes || msgField bytes 2 2 % 2048 != m.fld 0x20200 22 12 then .next s
  else
    let b1 := msgField bytes 1 1
    let delay := msgField bytes 4 3 + rlvCable m + 1600
    let b := bytes.take 1 ++ leBytes 1 (b1 / 16 * 16 + (b1 + 1) % 16) ++ (bytes.drop 2).take 2 ++ leBytes 3 delay ++ (bytes.drop 7).take 21
    .next (rlvSend s (b ++ leBytes 2 (crc16 b)))

/-- Every 1 ms the root sends TIME (R241). -/
def execRlvTimeSend (s : State) : Host.Outcome State Fault Refusal :=
  if rlvRoot (s.rt 4) then .next (rlvSend s (rlvBytes 1 0 0 (rlvId (s.rt 4)) 0 s.tb.tick 0 0 0)) else .next s

/-- The root announces a plane-phase mark at least 2,000 ticks ahead (R241): the `slot`-th mark of the output's queue. -/
def execRlvMarkSend (o slot : Nat) (s : State) : Host.Outcome State Fault Refusal :=
  let m := s.rt 4
  match ((s.seqAt o).queue.filter fun p => p.cls == 5)[slot]? with
  | none => .next s
  | some p =>
    if rlvRoot m && nbit (rlvExport m) o && decide (s.tb.tick + 2000 ≤ p.fire) then
      .next (rlvSend s (rlvBytes 3 0 o (rlvId m) 0 s.tb.tick (p.payload % 256) (p.fire - s.tb.tick) p.fine))
    else .next s

/-- No valid symbol for 64 µs (R67, R236, R242): RLV_LOST, holdover when the tick follows the link, and every generator that
follows a stream loses its reference. -/
def execRlvLost (s : State) : Host.Outcome State Fault Refusal :=
  if s.rlv.state = 0 ∨ s.rlv.state = 3 then .next s
  else
    let s1 := raise { s with rlv := { s.rlv with state := 3, runMaps := [], map := none } } 0x0231 0
    let s2 := if refSel (s1.rt 4) = 3 then loseReference s1 else s1
    .next (outputs.foldl (fun s o => if genSrc (s.rt o) o = 3 then loseGenRef s o else s) s2)

end Sys2Proof.Machine
end

