-- ==== Sys2Proof/Machine/Checks.lean ====
section
/-! DEFINITION. The owners of staged fields and the check lists that a Pour runs, block by block (R246, R250, R251, R206, R229,
R50, R80, R148, R179, R288, R314, R324, R373, R416, R523). -/
namespace Sys2Proof.Machine

/-! ### Owners (R246) -/

/-- What names the owner of a field: an output or the device by address, or the map of a string, photodiode or layer. -/
inductive OwnerKind where
  | out (o : Nat) | dev | string (nn : Nat) | pd (k : Nat) | layer (l : Nat)
  deriving DecidableEq, Repr

/-- Whether `a` lies in `n` parts of `stride` bytes from `base`, and in which. -/
def partIn (a base stride n : Nat) : Option Nat := if base ≤ a ∧ (a - base) / stride < n then some ((a - base) / stride) else none

/-- The tables and registers whose place carries an output's index: base, stride per output. -/
def outputParts : List (Nat × Nat) := [
  (0x20100, 0x40), (0x20440, 4), (0x70100, 0x40), (0x80000, 0x4000), (0x90100, 0x40), (0xA0100, 0x40), (0xB0100, 0x40),
  (0xC0500, 0x20), (0xF0100, 0x40), (0xF1000, 0x400), (0x08004000, 0x4000), (0x08020000, 0x200), (0x09000000, 0x400000),
  (0x0A000000, 0x180000), (0x0A600000, 0x2000), (0x0B000000, 0x20000), (0x0C001000, 0x40), (0x0C010000, 0xC000),
  (0x0D001000, 0x600)]

/-- What names the owner of the word at an address (R246). -/
def ownerKind (a : Nat) : OwnerKind :=
  match outputParts.findSome? fun p => partIn a p.1 p.2 4 with
  | some o => .out o
  | none =>
    match (partIn a 0xC0100 0x20 24).or (partIn a 0x0D000000 0x80 24) with
    | some nn => .string nn
    | none =>
      match (partIn a 0xC0400 0x10 8).or (partIn a 0x0D003000 0x20 8) with
      | some k => .pd k
      | none => match partIn a 0x08000000 0x40 128 with
        | some l => .layer l
        | none => .dev

/-- The output that a map names. -/
def mappedOutput (m : WordMap) : OwnerKind → Nat
  | .out o => o
  | .dev => 4
  | .string nn => strOut m nn
  | .pd k => m.fld (aPdMap k) 25 24
  | .layer l => lyOutput m l

/-- The owners of the word at `a`, in the active and the staged copy (R246). -/
def owners (l : LadleState) (a : Nat) : List Nat := [mappedOutput l.act (ownerKind a), mappedOutput l.stg (ownerKind a)]

/-- The owners of a word with a value about to be staged there, the new output of a map among them. -/
def ownersOf (l : LadleState) (a : Nat) (v : Word) : List Nat := owners { l with stg := l.stg.set a v } a ++ owners l a

/-- Whether every owner of a word lies in a mask. -/
def ownedBy (l : LadleState) (mask a : Nat) : Bool := (owners l a).all (nbit mask)

/-- The addresses of words that the staged copy holds differently from the active copy. -/
def stagedChanges (l : LadleState) : List Nat :=
  (((l.act ++ l.stg).map (·.1)).eraseDups).filter fun a => l.act.get a != l.stg.get a

/-- The addresses a Pour of a mask applies: staged words, changed or not, whose owners all lie in it (R246). -/
def pourWords (l : LadleState) (mask : Nat) : List Nat :=
  ((l.touched.map (·.1) ++ stagedChanges l).eraseDups).filter (ownedBy l mask)

/-- The settings after a Pour that applies the words at `as`, by the staged copy as it stands, reserved bits cleared (R10, R248). -/
def candidate (l : LadleState) (as : List Nat) : WordMap := as.foldl (fun m a => m.set a (l.stg.clean a)) l.act
/-- The same with reserved bits as they are staged, for the checks that name them (R10). -/
def rawCandidate (l : LadleState) (as : List Nat) : WordMap := as.foldl (fun m a => m.set a (l.stg.get a)) l.act

/-! ### What a Pour changes -/

/-- The settings of a Pour under check: in force, after it, after it with the reserved bits as staged, the addresses it applies
and those it changes. -/
structure PourView where
  old : WordMap
  new : WordMap
  raw : WordMap
  words : List Nat
  diff : List Nat
  deriving DecidableEq, Repr

/-- A Pour as it comes into force: no reserved bit acts (R10). -/
def PourView.settled (v : PourView) : PourView := { v with raw := v.new, diff := v.words.filter fun a => v.old.get a != v.new.get a }
/-- Whether a Pour applies a word from `lo` up to below `hi`, changed or not. -/
def PourView.applies (v : PourView) (lo hi : Nat) : Bool := v.words.any fun a => lo ≤ a && a < hi

/-- Whether a Pour changes a word from `lo` up to below `hi`. -/
def PourView.touches (v : PourView) (lo hi : Nat) : Bool := v.diff.any fun a => lo ≤ a && a < hi
/-- Whether a Pour changes some bits of a word. -/
def PourView.changes (v : PourView) (a mask : Nat) : Bool := (v.old.nat a) &&& mask != (v.raw.nat a) &&& mask
/-- Whether an output's part of a table or register group changes. -/
def PourView.part (v : PourView) (base stride o : Nat) : Bool := v.touches (base + stride * o) (base + stride * (o + 1))
/-- Strings mapped to an output before or after the Pour. -/
def PourView.strings (v : PourView) (o : Nat) : List Nat := (List.range 24).filter fun nn => strOut v.old nn == o || strOut v.new nn == o
/-- Layers whose descriptor the Pour changes. -/
def PourView.layers (v : PourView) : List Nat := (List.range 128).filter fun l => v.touches (aLayer l) (aLayer l + 0x40)
/-- Layers whose descriptor the Pour applies, changed or not. -/
def PourView.layersApplied (v : PourView) : List Nat := (List.range 128).filter fun l => v.applies (aLayer l) (aLayer l + 0x40)
/-- Plane sets of an output that a resident program references. -/
def usedSets (m : WordMap) (o : Nat) : List Nat := (residents m o).map (progPlaneSet m o)

/-- A failed check: block window, check number, owner (R251). -/
structure PourFail where
  block : Nat
  check : Nat
  owner : Nat
  deriving DecidableEq, Repr

/-- Every reserved bit of a register is 0. -/
def reservedOk (m : WordMap) (a : Nat) : Bool := m.clean a == m.get a

/-- The first of a list of (check, outputs or none at which it fails), in order. -/
def firstCheck (block : Nat) : List (Nat × Option Nat) → Option PourFail
  | [] => none
  | (n, some o) :: _ => some ⟨block, n, o⟩
  | (_, none) :: r => firstCheck block r

/-! ### TIMEBASE (R232, R234, R235, R238, R251) -/

def syncFmt (m : WordMap) : Nat := m.fld 0x20000 5 4
/-- P lies from 240 Hz to 23.976 Hz, 5,000,000 / 3 to 50,050,000 / 3 ticks. -/
def periodOk (m : WordMap) (o : Nat) : Bool :=
  decide (1 ≤ tgDen m o ∧ 5000000 * tgDen m o ≤ 3 * tgNum m o ∧ 3 * tgNum m o ≤ 50050000 * tgDen m o)
/-- GEN_SRC is defined and its source exists. -/
def sourceOk (m : WordMap) (o : Nat) : Bool :=
  match genSrc m o with
  | 0 => true
  | 1 => syncFmt m == 3
  | 2 => true
  | 3 => decide (srcIdx m o ≤ 3) && !rlvRoot m
  | 4 => inEnable m (srcIdx m o) && groupLead m (srcIdx m o) == srcIdx m o
  | _ => false
def leadOk (m : WordMap) (o : Nat) : Bool := decide (period m o / 4 ≤ leadTicks m o) && decide (leadTicks m o ≤ period m o)
def phaseOk (m : WordMap) (o : Nat) : Bool :=
  decide ((signedOf 32 (m.nat (0x20108 + 0x40 * o))).natAbs * tgDen m o < 25 * tgNum m o)
def stillOk (m : WordMap) (o : Nat) : Bool :=
  stillMode m o == 0 || isScan m o || (seqResident m o (seqStillProg m o) && progKind m o (seqStillProg m o) == 1)

/-- The TIMEBASE list. -/
def timebaseChecks (m : WordMap) : Option PourFail :=
  let out := fun (p : Nat → Bool) => outputs.find? fun o => !p o
  firstCheck 2 [(1, out (periodOk m)), (2, out (sourceOk m)), (3, out (leadOk m)), (4, out (phaseOk m)),
    (5, if refSel m = 1 ∧ syncFmt m = 3 ∧ outputs.all (fun o => genSrc m o != 1) then some 4 else none), (6, out (stillOk m))]

/-! ### COMPOSER (R206) -/

/-- The destination and source sizes, codes and reserved bits of check 2. -/
def layerFormOk (m : WordMap) (l : Nat) : Bool :=
  !lyEnable m l || (formatDefined (lyFormat m l) && decide (lyBlend m l ≤ 2 ∧ lyPolicy m l ≤ 2 ∧ lyKind m l ≤ 1)
    && (lyKind m l == 0 || decide (lyInput m l ≤ 7)) && lySW m l != 0 && lySH m l != 0 && lyDW m l != 0 && lyDH m l != 0)
/-- The registers of an output that check 2 names. -/
def compRegsOk (m : WordMap) (o : Nat) : Bool :=
  decide (m.fld (aCompCtrl o) 1 0 ≤ 2) && reservedOk m (aCompCtrl o) && reservedOk m (0x70104 + 0x40 * o) && reservedOk m (0x70108 + 0x40 * o)
/-- Check 3: a host layer's surface is mapped, and with FIT = 0 its rectangle's last pixel lies within it. -/
def layerSurfaceOk (m : WordMap) (surf : Nat → Surface) (l : Nat) : Bool :=
  !lyEnable m l || lyKind m l != 0 ||
    (let x := surf (lySurface m l)
     x.st == 2 && surfaceHolds m l x)

/-- The COMPOSER list; `given` are the queue ranges last placed and `inForce` those in force, `composing` says whether an output composes, `utils` the outputs
that the load counts. -/
def composerChecks (v : PourView) (surf : Nat → Surface) (given inForce : List (Nat × Nat)) (composing : Bool) (utils : List Nat) :
    Option CompFail :=
  let m := v.new
  let all := List.range 128
  let on := all.filter (lyEnable m)
  match on.find? fun l => fsSize m (lyOutput m l) == 0 with
  | some l => some ⟨1, lyOutput m l, l⟩
  | none => match outputs.find? fun o => 32 < (layersOf m o).length with
    | some o => some ⟨1, o, nth (layersOf m o) 32 0⟩
    | none => match all.find? fun l => !(layerFormOk m l && layerReservedOk v.raw l) with
      | some l => some ⟨2, lyOutput m l, l⟩
      | none => match outputs.find? fun o => !compRegsOk v.raw o with
        | some o => some ⟨2, o, 0⟩
        | none => if !reservedOk v.raw 0x70004 then some ⟨2, 4, 0⟩
          else match on.find? fun l => !layerSurfaceOk m surf l with
            | some l => some ⟨3, lyOutput m l, l⟩
            | none => match outputs.findSome? fun o => (crowdLayer m o).map fun l => (o, l) with
              | some (o, l) => some ⟨4, o, l⟩
              | none => if (placeAll m given inForce).length < 4 then some ⟨5, (placeAll m given inForce).length, 0⟩
                else match outputs.findSome? fun o => (orderFault v.raw o).map fun l => (o, l) with
                  | some (o, l) => some ⟨6, o, l⟩
                  | none => match outputs.find? fun o => !decide (((drainTicks m o + waitTicks m o : Nat) : Rat) < leadTicks m o) with
                    | some o => some ⟨7, o, 0⟩
                    | none => if composing && v.changes 0x70004 0xFFFF then some ⟨8, 4, 0⟩
                      else
                        let costs := utils.map fun o => (o, composerCost m o fun _ => .host 0 0)
                        if m.bit 0x70004 31 && (match utilAt m 0 costs with | none => true | some u => decide (1 < u)) then some ⟨9, 4, 0⟩ else none

/-! ### PIXEL (R229) -/

/-- A failed check of R229: number, layer, slot or coefficient set. -/
structure PixFail where
  check : Nat
  layer : Nat
  slot : Nat
  deriving DecidableEq, Repr

/-- The form of an input slot (R213). -/
def slotOk (m : WordMap) (o sl : Nat) : Bool :=
  let a := aSlot o sl
  let c := slotCurve m o sl
  let g := m.half (a + 4)
  let w := m.half (a + 8)
  m.half a == 3 && decide (c ≤ 4) && (c != 3 || decide (0x0400 ≤ g ∧ g ≤ 0x4000)) && (c != 1 || decide (1 ≤ w ∧ w ≤ 10000))
    && decide (m.byte (a + 3) ≤ 1) && (List.range 6).all (fun i => m.byte (a + 10 + i) == 0)
    && (List.range 9).all (fun i => m.fld (a + 16 + 4 * i) 31 20 == 0) && (List.range 12).all (fun i => m.byte (a + 52 + i) == 0)
/-- The phases of a coefficient set sum to 0x4000. The ROM's do (R212), so a phase of which nothing was replaced passes. -/
def coefSetOk (m : WordMap) (o k : Nat) : Bool :=
  let a := aPix o + 0x80000 + k * 0x800
  let rom := fun (lo n : Nat) => m.all fun e => !(decide (lo ≤ e.1) && decide (e.1 < lo + n))
  (List.range 64).all fun p => (rom (a + 16 * p) 16 || sumInt 8 (coefH m o k p) == 0x4000)
    && (rom (a + 0x400 + 12 * p) 12 || sumInt 6 (coefV m o k p) == 0x4000)
/-- Whether a layer is scaled whatever its source's frame, and its stripes (R217, R220, R221). -/
def fixedRect (m : WordMap) (l : Nat) : Bool := lyKind m l == 0 || !lyFit m l
def fixedScaled (m : WordMap) (l : Nat) : Bool := fixedRect m l && (lySW m l != lyDW m l || lySH m l != lyDH m l)
def layerStripes (m : WordMap) (l : Nat) : Nat :=
  if fixedRect m l then (if fixedScaled m l then (stripesOf (lySW m l)).getD 4 else 0) else (stripesOf (inMaxW m (lyInput m l))).getD 4
/-- The scalers that the layers of an output take (R217). -/
def scalersOf (m : WordMap) (o : Nat) : Nat := ((layersOf m o).map (layerStripes m)).sum
/-- The light channels an output may carry (R226). -/
def lightChannels (m : WordMap) (o : Nat) : Nat :=
  if isScan m o then fsChannels m o else (usedSets m o).foldl (fun a t => max a (psNchan m o t)) 0
def warpOn (m : WordMap) (o : Nat) : Bool := m.bit (aPixCtrl o) 3
/-- Bytes of an output's warp canvas (R223). -/
def canvasBytes (m : WordMap) (o : Nat) : Nat := alignUp (2 * fsWidth m o * fsHeight m o * 8) 4096
def warpOk (m : WordMap) (o : Nat) (room : Bool) : Bool :=
  !warpOn m o || (meshCW m o != 0 && meshCH m o != 0 && decide (ceilDiv (fsWidth m o) (meshCW m o) + 1 ≤ 129)
    && decide (ceilDiv (fsHeight m o) (meshCH m o) + 1 ≤ 73) && room)

/-- The PIXEL list of an output; `room` says whether its warp canvas can be allocated. -/
def pixelChecks (m : WordMap) (o : Nat) (room : Bool) : Option PixFail :=
  let ls := layersOf m o
  match ls.find? fun l => lyInLut m l != 0 && !slotOk m o (lyInLut m l - 1) with
  | some l => some ⟨1, l, lyInLut m l - 1⟩
  | none => if !(reservedOk m (aPixCtrl o) && reservedOk m (aPixChan o) && reservedOk m (aPixLR o) && reservedOk m (aPixTB o)) then some ⟨1, 0, 0⟩
    else match (List.range 4).find? fun k => !coefSetOk m o k with
      | some k => some ⟨2, 0, k⟩
      | none => match ls.find? fun l => fixedScaled m l && !decide (lySW m l ≤ 4 * lyDW m l ∧ lySH m l ≤ 4 * lyDH m l ∧ lySW m l ≤ 16352) with
        | some l => some ⟨3, l, 0⟩
        | none => if 32 < scalersOf m o then some ⟨4, 0, 0⟩
          else if !warpOk m o room then some ⟨5, 0, 0⟩
          else if (List.range (lightChannels m o)).any fun c => m.fld (aPixChan o) (2 * c + 1) (2 * c) == 3 then some ⟨6, 0, 0⟩
          else if fsWidth m o < m.fld (aPixLR o) 12 0 + m.fld (aPixLR o) 28 16 ∨ fsHeight m o < m.fld (aPixTB o) 11 0 + m.fld (aPixTB o) 27 16 then some ⟨7, 0, 0⟩
          else none

/-! ### Device-owned areas (R223, R264) -/

/-- Bytes of the capture buffers of an input (R264). -/
def captureNeed (m : WordMap) (i : Nat) : Nat :=
  if inEnable m i && groupLead m i == i then alignUp (inNbuf m i * inMaxW m i * inMaxH m i * 6) 4096 else 0

/-- An area for a key of `need` bytes in place of the one it had, which goes back to the pool, or lives on under another key
while fences hold it; none when the pool has no room. -/
def replaceArea (x : SurfState) (key need : Nat) (keep : Option Nat) : Option SurfState :=
  let old := ownedArea x key
  let rest := x.owned.filter fun e => e.1 != key
  let y : SurfState := match old, keep with
    | some e, some k => { x with owned := (k, e) :: rest }
    | some e, none => { x with owned := rest, pool := giveBack e x.pool }
    | none, _ => x
  if need = 0 then some y
  else (takeRun need y.pool).map fun r => { y with pool := r.2, owned := (key, r.1, need) :: y.owned }

/-- Whether a fence still holds a capture buffer of an input, or its newest frame does while the input stays enabled (R287). -/
def buffersHeld (x : InputState) (on : Bool) : Bool := x.bufs.any fun b => !b.refs.isEmpty || (on && x.newest == some b.frame.count)

/-- The capture buffers' areas after a Pour (R264, R287). -/
def captureAreas (s : State) (m : WordMap) (x : SurfState) : Option SurfState :=
  (List.range 8).foldl (fun a i => match a with
    | none => none
    | some y =>
      if (ownedArea y i).map (·.2) = (if captureNeed m i = 0 then none else some (captureNeed m i)) then some y
      else replaceArea y i (captureNeed m i) (if buffersHeld (s.inAt i) (inEnable m i) then some (16 + i) else none)) (some x)

/-- The warp canvas of an output after a Pour (R223). -/
def canvasArea (m : WordMap) (o : Nat) (x : SurfState) : Option SurfState :=
  let need := if warpOn m o then canvasBytes m o else 0
  if (ownedArea x (8 + o)).map (·.2) = (if need = 0 then none else some need) then some x else replaceArea x (8 + o) need none

/-! ### The lists in order (R251) -/

/-- A list's outcome: the state with its report and its event, and the failure. -/
abbrev Checked := State × Option PourFail

/-- The strings' fluxes as weights after a Pour (R522): those of strings it maps anew come from their boards. -/
def candidateFlux (s : State) (v : PourView) (blk : List Byte) : List Rat :=
  (List.range 24).map fun nn =>
    let x := s.strAt nn
    let bd := nth s.drive.boards (strBoard v.new nn) {}
    if strEnabled v.new nn && bd.eeprom == 1 && (v.changes (aStrMap nn) 0xFFFFFFFF || blk != s.ann.block) then (deriveOne v.new blk bd nn x).weightFlux
    else x.weightFlux

/-- INPUT (R288). -/
def inputList (s : State) (v : PourView) : Checked :=
  if v.touches 0x30000 0x40000 || v.touches 0x04000000 0x05000000 then
    let room := (captureAreas s v.new s.surf).isSome
    match inputChecks v.new (if room then captureBytes v.new else 0) with
    | some n => (raise s 0x030D 0, some ⟨3, n, 4⟩)
    | none => (s, none)
  else (s, none)

/-- RUNNER (R324). -/
def runnerList (s : State) (v : PourView) : Checked :=
  let opens := (List.range 8).any fun i => (inEnable v.new i && !inEnable v.old i) || inLink v.new i != inLink v.old i
  if opens || v.touches 0x50100 0x50200 || v.touches 0x06000000 0x06000100 then
    match runnerChecks v.raw with
    | some (n, r) => (raise (s.modRun fun x => { x with check := n, checkRunner := r }) 0x0505 r, some ⟨5, n, 4⟩)
    | none => (s.modRun fun x => { x with check := 0, checkRunner := 0 }, none)
  else (s, none)

/-- HBM (R314). -/
def hbmList (s : State) (v : PourView) : Checked :=
  if v.touches 0x60000 0x70000 then
    match hbmChecks v.raw s.hbm.valid with
    | some n => (raise s 0x0609 (s.hbm.fspNow * 2 ^ 8), some ⟨6, n, 4⟩)
    | none => (s, none)
  else (s, none)

/-- The outputs whose load counts (R203). -/
def loadOutputs (s : State) : List Nat := outputs.filter fun o => (s.outAt o).mode == 2 || (s.outAt o).mode == 3
/-- The queue ranges in force (R189). -/
def rangesGiven (s : State) : List (Nat × Nat) := outputs.map fun o => ((s.compAt o).nextQbase, (s.compAt o).nextNtiles)
def rangesInForce (s : State) : List (Nat × Nat) := outputs.map fun o => ((s.compAt o).qbase, (s.compAt o).ntiles)
/-- COMPOSER check 3 and the other failures as reported (R206). -/
def compReport (s : State) (f : CompFail) : Checked :=
  (raise (s.modComposer fun x => { x with chkNo := f.check, chkLayer := f.layer, chkOut := f.out % 4 }) 0x070A (compData (f.out % 4) f.layer),
    some ⟨7, f.check, f.out⟩)
/-- COMPOSER (R206). An output of 4 stands for the device. -/
def composerList (s : State) (v : PourView) : Checked :=
  if !v.layers.isEmpty || v.touches 0x70004 0x70008 || outputs.any fun o => v.part 0x08004000 0x4000 o || v.part 0x08020000 0x200 o
      || v.changes (aCompCtrl o) 0xFFFFFFFF || v.changes (aFsLayout o) 0xFFFFFFFF || v.changes (aFsSize o) 0xFFFFFFFF then
    let composing := outputs.any fun o => (s.outAt o).mode == 2 || (s.outAt o).mode == 3 || (s.outAt o).mode == 5 || (s.outAt o).entry.isSome
    match composerChecks v s.surfAt (rangesGiven s) (rangesInForce s) composing (loadOutputs s) with
    | some f => compReport s f
    | none => (s.modComposer fun x => { x with chkNo := 0, chkLayer := 0, chkOut := 0 }, none)
  else (s, none)

/-- A list that runs output by output: the first failure ends it. -/
def eachOutput (s : State) (affected : Nat → Bool) (f : State → Nat → Checked) : Checked :=
  outputs.foldl (fun a o => match a.2 with
    | some _ => a
    | none => if affected o then f a.1 o else a) (s, none)

/-- PIXEL (R229). The warp canvases are allocated together, in order of output (check 5). -/
def pixelList (s : State) (v : PourView) : Checked :=
  let ofLayer := fun (o l : Nat) => lyOutput v.old l == o || lyOutput v.new l == o
  eachOutput s (fun o => v.part 0x09000000 0x400000 o || v.part 0x80000 0x4000 o || v.changes (aFsLayout o) 0xFFFFFFFF
      || v.part 0x0A600000 0x2000 o || v.layers.any (ofLayer o)) fun s o =>
    let areas := (List.range (o + 1)).foldl (fun a p => match a with | some x => canvasArea v.new p x | none => none) (captureAreas s v.new s.surf)
    match pixelChecks v.raw o areas.isSome with
    | some f => (raise (s.modComp o fun c => { c with pixCheck := f.check, pixSlot := f.slot, pixLayer := f.layer }) 0x0801 (compData o f.layer),
        some ⟨8, f.check, o⟩)
    | none => (s.modComp o fun c => { c with pixCheck := 0, pixSlot := 0, pixLayer := 0 }, none)

/-- Outputs not in STANDBY, whose partitions must not overlap (R58). -/
def busyOutputs (s : State) : List Nat := outputs.filter (occupied s)
/-- PLANE (R50). -/
def planeList (s : State) (v : PourView) (z : Snapshot) : Checked :=
  let moved := fun (o : Nat) => v.changes (aFsBase o) 0xFFFFFFFF || v.changes (aFsSize o) 0xFFFFFFFF
  eachOutput s (fun o => v.part 0x0A600000 0x2000 o || v.part 0x0A000000 0x180000 o || v.changes (aFsLayout o) 0xFFFFFFFF
      || v.changes (aSeqSelect o) 0xFFFFFFFF || v.changes (aPortCfg o) 0xFFFFFFFF || moved o || outputs.any (fun b => moved b && fsOverlap v.new o b)
      || (v.strings o).any fun nn => v.touches (0x0D000000 + 0x80 * nn) (0x0D000080 + 0x80 * nn) || v.changes (aStrMap nn) 0xFFFFFFFF)
    fun s o => match planeChecks z (busyOutputs s) o with
    | some f => (raise (s.modEnc o fun e => { e with cbCheck := f.check, cbEntry := f.entry, cbChan := f.chan, cbSet := f.set, cbGap := planeGap z o })
        0x0901 o, some ⟨9, f.check, o⟩)
    | none => (s.modEnc o fun e => { e with cbCheck := 0, cbEntry := 0, cbChan := 0, cbSet := 0, cbGap := planeGap z o }, none)

/-- SEQ (R80). -/
def seqList (s : State) (v : PourView) : Checked :=
  eachOutput s (fun o => v.part 0x0B000000 0x20000 o || v.touches (0xA0100 + 0x40 * o) (0xA010C + 0x40 * o)
      || (usedSets v.new o).any (fun t => v.touches (aPlaneSet o t) (aPlaneSet o t + 0x400))
      || v.changes (aTgNum o) 0xFFFFFFFF || v.changes (aTgCfg o) 0xFF || v.changes (aPortCfg o) 0x80000033) fun s o =>
    match seqChecks v.raw o with
    | some f => (raise (s.modSeq o fun q => { q with checkNo := f.check, checkProg := f.prog, checkInstr := f.instr, checkBlock := f.block })
        0x0A01 o, some ⟨10, f.check, o⟩)
    | none => (s.modSeq o fun q => { q with checkNo := 0, checkProg := 0, checkInstr := 0, checkBlock := 0 }, none)

/-- PORT (R148, R179). -/
def portList (s : State) (v : PourView) : Checked :=
  let progs := fun (o : Nat) (p : Nat → Bool) => (List.range 8).any fun i => p i && v.touches (aProg o i) (aProg o i + 0x4000)
  let maps := fun (o : Nat) => (v.strings o).any (fun nn => v.changes (aStrMap nn) 0xFFFFFFFF)
    || (List.range 8).any fun k => v.changes (aPdMap k) 0xFFFFFFFF && (v.old.fld (aPdMap k) 25 24 == o || v.new.fld (aPdMap k) 25 24 == o)
  eachOutput s (fun o => v.changes (aPortCfg o) 0xFFFFFFFF || v.changes (aFsLayout o) 0xFFFFFFFF ||
      (if isScan v.new o then v.touches (0xB0118 + 0x40 * o) (0xB0134 + 0x40 * o) || v.part 0x0C001000 0x40 o || v.part 0x0C010000 0xC000 o
          || maps o || progs o fun i => progKind v.new o i == 2
       else v.changes (aSeqLoad o) 0xFFFFFFFF || progs o (seqResident v.new o))) fun s o =>
    if isScan v.new o then
      match scanChecks v.raw o with
      | some n => (raise (s.modScan o fun x => { x with check := n }) 0x0B15 o, some ⟨11, n, o⟩)
      | none => (s.modScan o fun x => { x with check := 0 }, none)
    else match portChecks v.raw o (s.portAt o).ident with
      | some n => (raise s 0x0B09 (portData o n), some ⟨11, n, o⟩)
      | none => (s, none)

/-- DRIVE (R523). -/
def driveList (s : State) (v : PourView) : Checked :=
  match driveChecks v.new (fun o => (s.outAt o).mode == 2 || (s.outAt o).mode == 3) with
  | some (n, who) =>
    let isOut := n == 1 && !((List.range 24).any fun nn => nn == who && strEnabled v.new nn
      && (residents v.new (strOut v.new nn)).any fun p => psNchan v.new (strOut v.new nn) (progPlaneSet v.new (strOut v.new nn) p) ≤ strChan v.new nn)
    (raise s 0x0C10 (who + n * 2 ^ 8), some ⟨12, n, if isOut then who % 4 else strOut v.new who⟩)
  | none => (s, none)

/-- THERMAL (R373). -/
def thermalList (s : State) (v : PourView) : Checked :=
  if v.touches 0xD0000 0xE0000 then
    match thermalChecks v.raw with
    | some n => (raise s 0x0D0F 0, some ⟨13, n, 4⟩)
    | none => (s, none)
  else (s, none)

/-- GUARD (R416); an ingot's own Pour brings the zone masks that check 5 judges (R453), and an output without a resident mask
has none that was built for another size. -/
def guardList (s : State) (v : PourView) (ingot : Bool) : Checked :=
  eachOutput s (fun o => v.part 0xF1000 0x400 o || v.part 0xF0100 0x40 o || v.changes (aFsLayout o) 0xFFFFFFFF || v.part 0x0A600000 0x2000 o)
    fun s o =>
      let z := nth s.guard.zones o {}
      let zone := if ingot then none else if z.resident then some (z.w, z.h) else none
      match guardChecks v.raw o zone with
      | some n => (raise (s.modGuard fun g => { g with checkNo := n }) 0x0F22 o, some ⟨15, n, o⟩)
      | none => (s.modGuard fun g => { g with checkNo := 0 }, none)

/-- One list after another, until one fails. -/
def Checked.andThen (a : Checked) (f : State → Checked) : Checked := match a.2 with | some _ => a | none => f a.1

/-- Every list after LADLE's, in the order of R251. -/
def runLists (s : State) (v : PourView) (flux : List Rat) (ingot : Bool) : Checked :=
  let z : Snapshot := { cfg := v.new, flux := flux }
  let first : Checked := (s, timebaseChecks v.new)
  let video := ((first.andThen fun s => inputList s v).andThen fun s => runnerList s v).andThen fun s => hbmList s v
  let picture := ((video.andThen fun s => composerList s v).andThen fun s => pixelList s v).andThen fun s => planeList s v z
  let light := ((picture.andThen fun s => seqList s v).andThen fun s => portList s v).andThen fun s => driveList s v
  (light.andThen fun s => thermalList s v).andThen fun s => guardList s v ingot

end Sys2Proof.Machine
end

