-- ==== Sys2Proof/Machine/Capture.lean ====
section
/-! DEFINITION. The capture inputs, the DisplayPort AUX channels, the Ethernet ports, the PTP client and the PCIe endpoint
(R263 to R292, R337, R344, R425 to R428). -/
namespace Sys2Proof.Machine

/-- The data of an INPUT event (R292): the input or the port. -/
def inData (i : Nat) : Nat := i

/-! ### The format of a frame (R269 to R273, R278) -/

/-- The format of an ST 2110 stream as its descriptor gives it (R278). -/
def streamFormat (m : WordMap) (i : Nat) : CapFormat :=
  let a := aStream (i - 6)
  let fl := m.byte (a + 31)
  { w := m.half (a + 24), h := m.half (a + 26) * (if nbit fl 0 then 2 else 1), interlaced := nbit fl 0, sampling := m.byte (a + 28)
    depth := m.byte (a + 29), color := m.byte (a + 30), full := nbit fl 1 }

/-- Whether a received format is the one a descriptor states. -/
def streamAgrees (d f : CapFormat) : Bool :=
  d.w == f.w && d.h == f.h && d.interlaced == f.interlaced && d.sampling == f.sampling && d.depth == f.depth

/-- The format a frame is converted with: the overrides of IN_CFG_i, and a colorimetry where none is signalled, BT.601 for
SD (R269). -/
def appliedFormat (m : WordMap) (i : Nat) (f : CapFormat) : CapFormat :=
  let c := m.fld (aInCfg i) 22 20
  let r := m.fld (aInCfg i) 25 24
  { f with
    color := if 1 ≤ c ∧ c ≤ 3 then c else if f.color ≠ 0 then f.color else if f.w ≤ 720 ∧ f.h ≤ 576 then 1 else 2
    full := if r = 1 then false else if r = 2 then true else f.full }

/-- The format a receiver takes a signal to have (R273): an SDI signal without a payload identifier is 4:2:2 at 10 bits, and declares
no colorimetry, range or transfer. -/
def signalFormat (i : Nat) (f : CapFormat) : CapFormat :=
  if i < 4 ∧ f.pid = false then { f with sampling := 2, depth := 10, color := 0, full := false, transfer := 0 } else f

/-- The timecode of a frame's record (R266, R273): ATC_VITC before ATC_LTC, all ones for none. -/
def timecode (t : Timecodes) : Nat := (t.vitc.or t.ltc).getD 0xFFFFFFFF

/-- The instant of an RTP timestamp in fine steps of local time (R267): of the counts of the 90 kHz media clock with these 32 low bits,
the one nearest to PTP time now, converted through the PTP offset and rounded down (DEDUCED, notes/assumptions/127.md). -/
def rtpInstant (s : State) (rtp : Nat) : Nat :=
  let now := ((localNs s : Int) + s.ptp.offset) * 9 / 100000
  let count := now + signedOf 32 (wrapInt 32 ((rtp : Int) - now))
  (count * 1000000 / 9 - s.ptp.offset * 10).toNat

/-- The reference instant of a frame in fine steps (R267): as the receiver measured it, or from the RTP timestamp. -/
def refInstant (s : State) (i tRef fine rtp : Nat) : Nat := if i < 6 then 25 * tRef + fine else rtpInstant s rtp

/-- Two formats agree in size, scan, sampling, depth, colorimetry and range (R287). -/
def sameFormat (a b : CapFormat) : Bool :=
  a.w == b.w && a.h == b.h && a.interlaced == b.interlaced && a.sampling == b.sampling && a.depth == b.depth && a.color == b.color
    && a.full == b.full

/-! ### Sealed frames (R425 to R428) -/

/-- Byte `q` of the key stream of a frame under a content key, its nonce and the frame's index, on a link (R425). -/
def streamKeyByte (k : List Byte × Nat × Nat) (link q : Nat) : Nat :=
  (nth (Config.aes256Block k.1 (beBytes 8 k.2.1 ++ beBytes 4 k.2.2 ++ beBytes 1 link ++ beBytes 3 (q / 16))) (q % 16) 0).toNat

/-- Word `w` of a link of a sealed SDI frame (R426). -/
def openSdiWord (k : List Byte × Nat × Nat) (link w c : Nat) : Nat :=
  let kk := (256 * streamKeyByte k link (2 * w) + streamKeyByte k link (2 * w + 1)) % 1016
  (((c : Int) - 4 - kk) % 1016 + 4).toNat

/-- Sample `j` of `n` bits of a sealed DisplayPort or ST 2110 frame, whose bytes hold the samples most significant bit first
(R426). -/
def openSample (k : List Byte × Nat × Nat) (n j v : Nat) : Nat :=
  ((List.range n).map fun b =>
    let p := j * n + b
    (if nbit (streamKeyByte k 0 (p / 8)) (7 - p % 8) ≠ nbit v (n - 1 - b) then 2 ^ (n - 1 - b) else 0)).sum

/-- The words of a frame as they were sent before sealing; each link of a group carries an equal share. -/
def openWords (i links : Nat) (f : CapFormat) (key : Option (List Byte × Nat × Nat)) (words : List Nat) : List Nat :=
  match key with
  | none => words
  | some k =>
    let share := words.length / max 1 links
    (List.range words.length).map fun j =>
      let v := words.getD j 0
      if i < 4 then openSdiWord k (j / max 1 share) (j % max 1 share) v else openSample k f.depth j v

/-! ### The picture of a frame (R270, R272) -/

/-- Where a pixel is carried: its link, and its column, line and row length there. Square division gives each of four links a
quarter; two-sample interleave gives them pairs of samples of alternate lines, two links alternate lines (PRESUMED,
notes/assumptions/25.md). -/
def linkPlace (links : Nat) (f : CapFormat) (x y : Nat) : Nat × Nat × Nat × Nat :=
  if links = 4 ∧ f.square then
    (x / (f.w / 2) % 2 + y / (f.h / 2) % 2 * 2, x % (f.w / 2), y % (f.h / 2), f.w / 2)
  else if links = 4 then (x / 2 % 2 + y % 2 * 2, x / 4 * 2 + x % 2, y / 2, f.w / 2)
  else if links = 2 then (y % 2, x, y / 2, f.w)
  else (0, x, y, f.w)

/-- The line, in the order sent, of a picture line: the first field carries the even lines, and the second field follows
(R270; which field lies uppermost is a DESIGN CHOICE, notes/assumptions/25.md). -/
def sentLine (f : CapFormat) (y : Nat) : Nat := if f.interlaced then (if y % 2 = 0 then y / 2 else ceilDiv f.h 2 + y / 2) else y

/-- The raw components of each pixel in raster order, from the samples in the order sent: R, G, B; Cb, Y, Cr; or Cb, Y, Cr, Y. -/
def rawPixels (links : Nat) (f : CapFormat) (words : List Nat) : List (Nat × Nat × Nat) :=
  let share := words.length / max 1 links
  (List.range f.h).flatMap fun y => (List.range f.w).map fun x =>
    let p := linkPlace links f x (sentLine f y)
    let at_ := fun k => words.getD (p.1 * share + k) 0
    let px := p.2.2.1 * p.2.2.2 + p.2.1
    if f.sampling = 2 then (at_ (2 * px + 1), at_ (2 * px), at_ (2 * px + 2))
    else if f.sampling = 1 then (at_ (3 * px + 1), at_ (3 * px), at_ (3 * px + 2))
    else (at_ (3 * px), at_ (3 * px + 1), at_ (3 * px + 2))

/-! ### Frames (R265, R266, R286, R287, R427, R428) -/

/-- The frame in progress of an input, if any, is discarded: no fence, no count (R265). -/
def discardRun (s : State) (i : Nat) : State :=
  if (s.inAt i).run.isNone then s
  else s.modIn i fun x => { x with run := none, packets := [], arrived := [], discarded := satAdd 0xFFFF x.discarded 1 }

/-- A frame that is not captured is counted as discarded. -/
def refuseFrame (s : State) (i : Nat) : State := s.modIn i fun x => { x with discarded := satAdd 0xFFFF x.discarded 1 }

/-- Whether an output shows a layer of an input. -/
def showsInput (s : State) (i o : Nat) : Bool :=
  isLit s o && (layersOf s.act o).any fun l => lyKind s.act l == 1 && lyInput s.act l == i

/-- The key with which a sealed frame is decrypted (R428): held for this input with this KEY_ID and valid; one that requires
marking only while every output that shows the input marks. -/
def streamKey (s : State) (i keyId : Nat) : Option KeySlot :=
  if s.cruc.st ≠ 0 then none
  else (s.cruc.keys.find? fun e => match e with
    | some k => k.target == i && k.keyId == keyId && keyValid s k
        && (!nbit k.flags 0 || outputs.all fun o => !showsInput s i o || (marking s o).isSome)
    | none => false).join

/-- The buffer that the next frame is written into: the oldest that no fence holds (R265, R338). -/
def freeBuffer (x : InputState) : Option Nat :=
  let free := (List.range x.bufs.length).filter fun b =>
    let y := nth x.bufs b {}
    y.refs.isEmpty && !(y.fence && x.newest == some y.frame.count)
  free.foldl (fun (a : Option Nat) b => match a with
    | none => some b
    | some c => if (nth x.bufs b {}).age < (nth x.bufs c {}).age then some b else some c) none

/-- The HBM3 address of a capture buffer in its input's area (R264). -/
def bufferBase (s : State) (i b : Nat) : Nat :=
  (match ownedArea s.surf i with | some e => e.1 | none => 0) + b * (inMaxW s.act i * inMaxH s.act i * 6)

/-- A frame gets its buffer, or is discarded (R265). -/
def takeBuffer (s : State) (i : Nat) (f : CapFormat) (tRef fine tc rtp : Nat) (key : Option (List Byte × Nat × Nat)) : State :=
  match freeBuffer (s.inAt i) with
  | none => raise (refuseFrame s i) 0x0305 (inData i)
  | some b => s.modIn i fun x => { x with
      run := some { buf := b, base := bufferBase s i b, fmt := f, tRef := tRef, fine := fine, tc := tc, rtp := rtp, key := key }
      bufs := upd x.bufs b fun y => { y with fence := false, age := x.counter + 1 } }

/-- The key of a frame is looked up when its input is sealed (R427, R428). -/
def sealedFrame (s : State) (i : Nat) (f : CapFormat) (tRef fine tc rtp : Nat) (metas : Option (Nat × Nat)) : State :=
  if !inSealed s.act i then takeBuffer s i f tRef fine tc rtp none
  else match metas with
    | none => raise (refuseFrame s i) 0x1002 i
    | some (keyId, frame) => match streamKey s i keyId with
      | none => raiseLimited (refuseFrame s i) 0x1001 i i oneSecond .internal
      | some k => takeBuffer s i f tRef fine tc rtp (some (k.key, k.nonce, if 6 ≤ i then rtp else frame))

/-- A frame begins on an input (R265, R267, R287); recoveries of its last frame end here (R414). -/
def startCapture (s : State) (i : Nat) (fmt : CapFormat) (tRef fine tc rtp : Nat) (metas : Option (Nat × Nat)) : State :=
  let m := s.act
  let s1 := recoveredAll (pruneOld (discardRun s i) i) [0x0306, 0x0308, 0x0303] i
  let agrees := decide (i < 6) || streamAgrees (streamFormat m i) fmt
  let f := appliedFormat m i (if i < 6 then fmt else { streamFormat m i with transfer := fmt.transfer })
  let timed := decide (i < 6) || s.ptp.valid
  let at_ := refInstant s i tRef fine rtp
  let s2 := s1.modIn i fun x => { x with
    packets := []
    arrived := []
    links := 2 ^ (groupOf m i).length - 1
    rate := fmt.rate
    refTimes := if timed then (at_ :: x.refTimes).take 17 else []
    lastRef := if timed then some at_ else none }
  if inMaxW m i < f.w ∨ inMaxH m i < f.h then
    let s3 := refuseFrame (s2.modIn i fun x => { x with st := 4, tooLarge := true }) i
    if (s.inAt i).tooLarge then s3 else raise s3 0x0304 (inData i)
  else
    let s3 := s2.modIn i fun x => { x with st := if x.up then 3 else 2, tooLarge := false }
    if !agrees then refuseFrame s3 i else sealedFrame s3 i f (at_ / 25) (at_ % 25) tc (if 6 ≤ i then rtp else 0) metas

/-- The pictures that the SDI mappings of a RATE carry on one link, and the rates of multi-link groups (R271, R272). -/
def sdiPicture (links : Nat) (f : CapFormat) : Bool :=
  if links = 4 then f.rate == 3 || f.rate == 5
  else if links = 2 then f.rate == 3
  else match f.rate with
    | 1 => f.interlaced && f.w == 720 && decide (f.h ≤ 576)
    | 2 => f.h == 1080 || (f.h == 720 && !f.interlaced)
    | 3 => f.h == 1080 && !f.interlaced
    | 4 => (f.h == 2160 || f.h == 1080) && !f.interlaced
    | 5 => f.h == 2160 && !f.interlaced
    | _ => false

/-- Whether a receiver accepts a signal's format (R271, R274, R278): SDI by the mappings of its rate, DisplayPort up to DP_RATE. -/
def formatAccepted (m : WordMap) (i : Nat) (f : CapFormat) : Bool :=
  let deep := f.depth == 8 || f.depth == 10 || f.depth == 12
  if i < 4 then
    sdiPicture (groupOf m i).length f && ((f.sampling == 2 && f.depth == 10)
      || ((f.rate == 3 || f.rate == 5) && decide (f.sampling ≤ 1) && (f.depth == 10 || f.depth == 12)))
  else if i < 6 then
    decide (f.sampling ≤ 2) && (deep || (f.sampling == 0 && f.depth == 6)) && decide (1 ≤ f.rate ∧ f.rate ≤ m.fld (aInCfg i) 18 16 + 1)
  else decide (f.sampling ≤ 2) && deep

/-- Whether an input takes frames: enabled, its receiver started, and the leader of its group (R272). -/
def captures (s : State) (i : Nat) : Bool := inEnable s.act i && groupLead s.act i == i && (s.inAt i).st != 0

/-- A frame begins on an input (R265): its receiver takes the format and the timecode as R273 says, and GEN_SRC 4 its reference instant. -/
def execCaptureFrameStart (i : Nat) (fmt : CapFormat) (tRef fine : Nat) (tc : Timecodes) (rtp : Nat) (metas : Option (Nat × Nat)) (s : State) :
    Host.Outcome State Fault Refusal :=
  let f := signalFormat i fmt
  if captures s i && formatAccepted s.act i f then
    (let s1 := startCapture s i f tRef fine (timecode tc) rtp metas
     .next (if (s1.inAt i).lastRef.isSome then regainRef s1 4 i else s1))
  else .next s

/-- The bytes of a frame as its Runner writes them into its buffer (R263, R264, R268): pixels in raster order without gaps (DESIGN
CHOICE, notes/assumptions/124.md). -/
def captureBytesOf (links i : Nat) (r : CapRun) (words : List Nat) : List Byte :=
  let fmt := storeFormat r.fmt
  (convertFrame r.fmt fmt (rawPixels links r.fmt (openWords i links r.fmt r.key words))).flatMap fun p => leBytes (bitsPerPixel fmt / 8) p.2

/-- A complete frame: its bytes in HBM3 through RUNNER_i, its fence, its count, its record, and the input's status (R263, R265, R266,
R270). -/
def storeCapture (s : State) (i : Nat) (r : CapRun) (words : List Nat) : State :=
  let links := (groupOf s.act i).length
  (s.modHbm fun h => { h with mem := Memory.store ramDefault h.mem r.base (captureBytesOf links i r words) }).modIn i fun x =>
    let n := x.counter + 1
    let g : CapFrame := {
      count := n, tRef := r.tRef, fine := r.fine, buffer := r.buf, fmtOut := storeFormat r.fmt, fmt := r.fmt, tc := r.tc, rtp := r.rtp
      completed := s.tb.tick, base := r.base }
    { x with
      counter := n, newest := some n, run := none, packets := [], arrived := [], prev := some r.fmt
      bufs := listSet x.bufs r.buf { frame := g, fence := true, refs := [], age := n }
      records := listSet x.records (n % 4) g
      size := (r.fmt.w, r.fmt.h), signal := signalByte r.fmt, transfer := r.fmt.transfer, depth := r.fmt.depth
      consistent := match x.prev with
        | some p => if x.consistent = 0 then 1 else if sameFormat p r.fmt then x.consistent + 1 else 1
        | none => 1 }

/-- What a complete frame announces (R258, R284, R286, R287). -/
def announceFrame (s : State) (i : Nat) (prev : Option CapFormat) (fmt : CapFormat) : State :=
  let change := match prev with | some p => !sameFormat p fmt | none => false
  let s1 := if change then raise s 0x0303 (inData i) else s
  let x := s1.inAt i
  let s2 := if !x.up && decide (2 ≤ x.consistent) then raise (s1.modIn i fun x => { x with up := true, st := 3 }) 0x0301 (inData i) else s1
  let s3 := msix s2 (8 + i)
  let s4 := pruneOld s3 i
  outputs.foldl (fun s o =>
    if (layersOf s.act o).any fun l => lyKind s.act l == 1 && lyInput s.act l == i then s.modTg o fun t => { t with layerChange := true } else s) s4

/-- The last active line of a frame has been written (R265, R272). -/
def execCaptureFrameComplete (i : Nat) (skew : Bool) (words : List Nat) (s : State) : Host.Outcome State Fault Refusal :=
  match (s.inAt i).run with
  | none => .next s
  | some r =>
    if skew && decide (1 < (groupOf s.act i).length) then .next (fault (discardRun s i) 0x0308 (inData i) i)
    else
      let data := if 6 ≤ i then (s.inAt i).packets.flatMap (·.2) else words
      .next (announceFrame (storeCapture s i r data) i (s.inAt i).prev r.fmt)

/-- PATHS of the stream of an Ethernet input (R278). -/
def streamPaths (m : WordMap) (i : Nat) : Nat := m.byte (aStream (i - 6) + 10)

/-- A path has delivered no packet for two frame periods at the stream's configured rate (R279, R286). -/
def pathQuiet (s : State) (i net : Nat) : Bool :=
  let a := aStream (i - 6)
  decide (800000000 * s.act.half (a + 36) ≤ (s.tb.tick - nth (s.inAt i).pathAt net 0) * s.act.nat (a + 32))

/-- A receiver's signal is gone (R286): a stream's when every enabled path is quiet; an SDI or DisplayPort receiver tells it by its lock. -/
def signalGone (s : State) (i : Nat) : Bool :=
  decide (i < 6) || [0, 1].all fun p => !nbit (streamPaths s.act i) p || pathQuiet s i p

/-- An input's signal is lost (R286): the frame in progress is discarded and the reference instant is lost for R235. -/
def execCapSignalLost (i : Nat) (s : State) : Host.Outcome State Fault Refusal :=
  let x := s.inAt i
  if !captures s i || x.st == 1 || !signalGone s i then .next s
  else
    let s1 := (discardRun s i).modIn i fun x => { x with
      st := 1, up := false, consistent := 0, links := 0, rate := 0, lastRef := none, refTimes := [], losses := satAdd 0xFFFF x.losses 1 }
    let s2 := raise s1 0x0302 (inData i)
    .next (outputs.foldl (fun s o => if genSrc (s.rt o) o = 4 ∧ srcIdx (s.rt o) o = i then loseGenRef s o else s) s2)

/-- A line length, field structure or payload identifier changes inside a frame ("When a frame's signal changes mid-frame"). -/
def execSignalChangeMidFrame (i : Nat) (s : State) : Host.Outcome State Fault Refusal :=
  if (s.inAt i).run.isSome then .next (fault (discardRun s i) 0x0303 (inData i) i) else .next s

/-! ### ST 2110 reception (R279) -/

/-- A packet's place by its 32-bit number, around the first of its frame that arrived. -/
def packetPlace (x : InputState) (seq : Nat) : Nat :=
  let first := match x.packets with | [] => seq | p :: _ => p.1 % 2 ^ 32
  (seq + 2 ^ 32 + 2 ^ 31 - first) % 2 ^ 32 + first + 2 ^ 31

/-- An ST 2110 packet arrives on a port (R279): the first copy enters its frame, the duplicate is discarded. The key of a packet
is its number, raised by a multiple of 2^32 so that numbers keep their order across a wrap. -/
def execEthPacketReceive (i net seq : Nat) (words : List Nat) (s : State) : Host.Outcome State Fault Refusal :=
  if i < 6 ∨ !captures s i ∨ !nbit (streamPaths s.act i) net then .next s
  else
    let s1 := s.modIn i fun x => { x with pathDown := listSet x.pathDown net false, pathAt := listSet x.pathAt net s.tb.tick }
    if (s.inAt i).run.isNone then .next s1
    else .next (s1.modIn i fun x =>
      let k := packetPlace x (seq % 2 ^ 32)
      if x.packets.any fun p => p.1 == k then x
      else { x with packets := Sparse.put x.packets k words, arrived := (k, s.tb.tick) :: x.arrived })

/-- A packet of the frame in progress is lost (R279): MERGE_WIN has passed since a packet arrived before which one is missing, or
since the last that arrived (DEDUCED, notes/assumptions/128.md). -/
def packetLost (s : State) (i : Nat) : Bool :=
  let x := s.inAt i
  let keys := x.packets.map (·.1)
  let missing := fun (k : Nat) => decide ((keys.filter (· ≤ k)).length < k + 1 - keys.headD k)
  x.arrived.any fun e => decide (e.2 + s.act.half (aStream (i - 6) + 22) * 40000 ≤ s.tb.tick) && (missing e.1 || keys.all (· ≤ e.1))

/-- A packet has arrived on neither path within the merge window (R279). -/
def execCapPktLoss (i : Nat) (s : State) : Host.Outcome State Fault Refusal :=
  if 6 ≤ i ∧ (s.inAt i).run.isSome ∧ packetLost s i then .next (fault (discardRun s i) 0x0306 (inData i) i) else .next s

/-- A path has delivered no packet for two frame periods (R279). -/
def execCapPathLost (i net : Nat) (s : State) : Host.Outcome State Fault Refusal :=
  if i < 6 ∨ !captures s i ∨ !nbit (streamPaths s.act i) net ∨ nth (s.inAt i).pathDown net false ∨ !pathQuiet s i net then .next s
  else .next (raise (s.modIn i fun x => { x with pathDown := listSet x.pathDown net true }) 0x0307 (inData i))

/-! ### PTP (R280) -/

def ptpPort (m : WordMap) : Nat := m.fld 0x30010 8 8

/-- A Sync gives an offset estimate (R280): within ±40 ns of the servo's 16 times in a row, the client is in SLAVE state. The
servo's law is a free function (notes/assumptions/7.md). -/
def execPtpMessage (offset : Int) (domain : Nat) (s : State) : Host.Outcome State Fault Refusal :=
  let m := s.rt 4
  if !m.bit 0x30010 31 || m.fld 0x30010 7 0 != domain then .next s
  else
    let n := if (offset - s.ptp.offset).natAbs ≤ 40 then s.ptp.consistent + 1 else 0
    let s := holdSecure s
    let s1 := { s with ptp := { s.ptp with
      offset := Config.ptpServo s.ptp.offset offset, lastSync := s.tb.tick, consistent := min 16 n, st := if s.ptp.valid then 3 else 2 } }
    if 16 ≤ n ∧ ¬ s.ptp.valid then
      .next (regainRef (raise { s1 with ptp := { s1.ptp with st := 3, valid := true } } 0x0309 (ptpPort m)) 2 0)
    else .next s1

/-- No valid Sync for 3 s (R67, R280): PTP time is not valid, and generators locked to it lose their reference. -/
def execPtpLost (s : State) : Host.Outcome State Fault Refusal :=
  if s.ptp.st ≤ 1 ∨ s.ptp.st = 4 ∨ s.tb.tick < s.ptp.lastSync + 1200000000 then .next s
  else
    let was := s.ptp.valid
    let s := holdSecure s
    let s1 := { s with ptp := { s.ptp with st := 1, valid := false, consistent := 0 } }
    let s2 := if was then raise s1 0x030A (ptpPort (s.rt 4)) else s1
    .next (outputs.foldl (fun s o => if genSrc (s.rt o) o = 2 then loseGenRef s o else s) s2)

/-! ### ARP and ICMP (R281) -/

/-- What a port sends, newest first; the last 16 are kept. -/
def netSend (s : State) (p : Nat) (l : List Byte) : State := { s with net := { s.net with sent := ((p, l) :: s.net.sent).take 16 } }

/-- A port's MAC and IPv4 addresses (R277). -/
def portMac (m : WordMap) (p : Nat) : List Byte := m.bytes (aEthPhy p) 6
def portIp (m : WordMap) (p : Nat) : List Byte := m.bytes (aEthPhy p + 8) 4

/-- The one's-complement sum of 16-bit words, for the ICMP checksum (RFC 792). -/
def onesSum : List Byte → Nat → Nat
  | [], a => a
  | [x], a => let t := a + 256 * x.toNat; t % 65536 + t / 65536
  | x :: y :: r, a => let t := a + 256 * x.toNat + y.toNat; onesSum r (t % 65536 + t / 65536)

/-- The ARP reply to a request for a port's own address (RFC 826; PRESUMED, notes/assumptions/25.md). -/
def arpReply (mac ip l : List Byte) : Option (List Byte) :=
  if l.take 8 = [0, 1, 8, 0, 6, 4, 0, 1] ∧ (l.drop 24).take 4 = ip then
    some ([0, 1, 8, 0, 6, 4, 0, 2] ++ mac ++ ip ++ (l.drop 8).take 6 ++ (l.drop 14).take 4)
  else none

/-- The reply to an ICMP echo request in an IPv4 packet without options for a port's own address: the addresses change places
and the type is 0 (RFC 792; PRESUMED, notes/assumptions/25.md). -/
def echoReply (ip l : List Byte) : Option (List Byte) :=
  if l.take 1 = [0x45] ∧ (l.drop 9).take 1 = [1] ∧ (l.drop 16).take 4 = ip ∧ (l.drop 20).take 2 = [8, 0] then
    let body := [0, 0, 0, 0] ++ l.drop 24
    let sum := 65535 - onesSum body 0
    some (l.take 12 ++ ip ++ (l.drop 12).take 4 ++ [0, 0] ++ beBytes 2 sum ++ l.drop 24)
  else none

/-- An IGMP membership report for a group (R281): the version 2 message of RFC 2236, or the version 3 record of RFC 3376 that joins the
group, from the one source a filter names or from all (PRESUMED, notes/assumptions/25.md). -/
def igmpReport (v2 : Bool) (group source : List Byte) : List Byte :=
  let body := fun (c : Nat) =>
    if v2 then [0x16, 0] ++ beBytes 2 c ++ group
    else if source = [0, 0, 0, 0] then [0x22, 0] ++ beBytes 2 c ++ [0, 0, 0, 1, 4, 0, 0, 0] ++ group
    else [0x22, 0] ++ beBytes 2 c ++ [0, 0, 0, 1, 3, 0, 0, 1] ++ group ++ source
  body (65535 - onesSum (body 0) 0)

/-- The groups that a port belongs to, each with its source filter: the multicast groups of the enabled streams' paths on it, and the
PTP group on the client's port (R278, R280, R281). -/
def portGroups (m : WordMap) (p : Nat) : List (List Byte × List Byte) :=
  let streams := ([6, 7].filter fun i => inEnable m i && nbit (streamPaths m i) p).map fun i =>
    (m.bytes (aStream (i - 6) + 12 * p) 4, m.bytes (aStream (i - 6) + 12 * p + 4) 4)
  (streams.filter fun g => decide (0xE0 ≤ (g.1.headD 0).toNat ∧ (g.1.headD 0).toNat ≤ 0xEF))
    ++ (if m.bit 0x30010 31 && ptpPort m == p then [([224, 0, 1, 129], [0, 0, 0, 0])] else [])

/-- A port that is on reports the groups it has joined (R281). -/
def reportGroups (s : State) (old : WordMap) (p : Nat) : State :=
  let m := s.act
  if phyRate m p = 0 then s
  else ((portGroups m p).filter fun g => phyRate old p == 0 || !(portGroups old p).contains g).foldl
    (fun s g => netSend s p (igmpReport (nbit (m.byte (aEthPhy p + 7)) 0) g.1 g.2)) s

/-- An ARP or ICMP echo request reaches a port that is on (R281); anything else is discarded. -/
def execEthArpIcmp (net : Nat) (bytes : List Byte) (s : State) : Host.Outcome State Fault Refusal :=
  let m := s.act
  if phyRate m net = 0 then .next s
  else match (arpReply (portMac m net) (portIp m net) bytes).or (echoReply (portIp m net) bytes) with
    | some r => .next (netSend s net r)
    | none => .next s

/-! ### DisplayPort AUX (R274 to R276) -/

/-- The DPCD byte of a receiver: what a source last wrote, or the capabilities (R274, R275): revision 1.4, the highest rate and
lane count, and the absence of MST, DSC, HDCP, FEC and adaptive refresh (addresses PRESUMED, notes/assumptions/25.md). -/
def dpcdByte (s : State) (i a : Nat) : Byte :=
  let m := s.act
  let rate := m.fld (aInCfg i) 18 16
  let caps : Byte := match a with
    | 0x00000 => 0x14
    | 0x00001 => BitVec.ofNat 8 ([0x06, 0x0A, 0x14, 0x1E, 0x1E, 0x1E, 0x1E, 0x1E].getD rate 0)
    | 0x00002 => BitVec.ofNat 8 (2 ^ min 2 (m.fld (aInCfg i) 13 12) + 0x80)
    | 0x02215 => BitVec.ofNat 8 ([0, 0, 0, 0, 1, 5, 7, 7].getD rate 0)
    | _ => 0
  match s.net.dpcd.find? fun e => e.1 == 2 ^ 20 * i + a with
  | some e => e.2
  | none => caps

/-- Whether a source may write a DPCD address: the link configuration field and the power field. -/
def dpcdWritable (a : Nat) : Bool := (decide (0x100 ≤ a) && decide (a < 0x200)) || a == 0x600

/-- An AUX transaction (R276): DPCD reads and writes, and I²C reads of the EDID at address 0x50. -/
def execDpAuxRequest (i : Nat) (write i2c : Bool) (addr : Nat) (bytes : List Byte) (len : Nat) (s : State) :
    Host.Outcome State Fault Refusal :=
  let k := 4 + i
  if !(captures s k) then .next s
  else if i2c then
    .next (if write then s else answer s 0 [] ((List.range (min 16 len)).map fun n => servedEdid s.act k (s.inAt k).edidDefault (addr + n)))
  else if write then
    let put := fun (d : List (Nat × Byte)) (e : Nat) =>
      if dpcdWritable (addr + e) then (2 ^ 20 * k + addr + e, bytes.getD e 0) :: d.filter fun x => x.1 != 2 ^ 20 * k + addr + e else d
    .next { s with net := { s.net with dpcd := (List.range (min 16 bytes.length)).foldl put s.net.dpcd } }
  else .next (answer s 0 [] ((List.range (min 16 len)).map fun n => dpcdByte s k (addr + n)))

/-- 2 ms after the served EDID changed, HPD goes high again (R274). -/
def execHpdPulseEnd (i : Nat) (s : State) : Host.Outcome State Fault Refusal :=
  if (s.inAt (4 + i)).hpdPulse ∧ (s.inAt (4 + i)).hpdAt + 800000 ≤ s.tb.tick then .next (s.modIn (4 + i) fun x => { x with hpdPulse := false, hpd := inEnable s.act (4 + i) && x.st != 0 })
  else .next s

/-! ### PCIe (R282 to R285, R337, R344) -/

/-- Completion status codes of a PCIe read: unsupported request and completer abort. -/
def statusUR : Nat := 1
def statusCA : Nat := 4

/-- A BAR0 access of another size than 4 aligned bytes, or 8 that split in two (R283). -/
def execHostAccessErr (addr size : Nat) (write : Bool) (s : State) : Host.Outcome State Fault Refusal :=
  if (size = 4 ∨ size = 8) ∧ addr % size = 0 then .next s
  else
    let s1 := raiseP s 0x030C 0 .bar0
    .next (if write then s1 else answer s1 statusUR [] [])

/-- Byte `o` of a sealed host surface's key stream (R425). -/
def surfaceKeyByte (k : KeySlot) (o : Nat) : Byte :=
  nth (Config.aes256Block k.key (beBytes 8 k.nonce ++ beBytes 8 (o / 16))) (o % 16) 0

/-- The valid key bound to a surface (R431). -/
def surfaceKey (s : State) (i : Nat) : Option KeySlot :=
  if s.cruc.st ≠ 0 ∨ (s.surfAt i).key = 0 then none
  else (s.cruc.keys.find? fun e => match e with
    | some k => k.target == 0x8000 + i && k.keyId == (s.surfAt i).key && keyValid s k
    | none => false).join

/-- The places in HBM3 of bytes from a surface address upward, as translated for the host (R336); none with the first fault. -/
def hostPlaces (write : Bool) : Nat → Nat → State → State × (Nat × Nat × Nat) × List (Nat × Nat)
  | 0, _, s => (s, (0, 0, 0), [])
  | n + 1, addr, s =>
    match hostAccess s addr write with
    | (_, some p, s1) => (match hostPlaces write n (addr + 1) s1 with | (s2, f, l) => (s2, f, p :: l))
    | (kind, none, s1) =>
      let i := (hostSurface s addr).getD 0
      (s1, (kind, i, if (hostSurface s addr).isSome then addr - (s.surfAt i).lo else addr), [])

/-- A faulting host access (R344, R345). -/
def hostFault (s : State) (f : Nat × Nat × Nat) (write : Bool) : State :=
  let w : Walk := ⟨f.2.1, f.2.2, 8, 0, write, 0, 0, 0, 0, false⟩
  raiseLimited (recordXlate s w f.1) 0x0406 0 (xlateData f.2.1 f.1) oneSecond .bar0

/-- A host access through RUNNER_08 ends an automatic self-refresh (R311). -/
def wakeHbm (s : State) : State := s.modHbm fun h => { h with st := if h.st = 4 ∧ ¬ h.srDusk then 5 else h.st }

/-- A posted write to BAR2 (R283, R337, R344, R426, R431): stored whole or not at all, decrypted first for a PROT surface. -/
def execBar2Write (addr : Nat) (bytes : List Byte) (s : State) : Host.Outcome State Fault Refusal :=
  match hostPlaces true bytes.length addr (wakeHbm s) with
  | (s1, (0, _, _), l) =>
    let i := (l.headD (0, 0)).1
    let x := s1.surfAt i
    let store := fun (s : State) (bs : List Byte) => s.modHbm fun h => { h with
      mem := (List.zip l bs).foldl (fun m e => Sparse.set ramDefault m e.1.2 e.2) h.mem }
    if !x.prot then .next (store s1 bytes)
    else match surfaceKey s1 i with
      | some k => .next (store s1 ((List.range bytes.length).map fun n => bytes.getD n 0 ^^^ surfaceKeyByte k (addr - x.lo + n)))
      | none => .next (raiseP s1 0x1001 (0x8000 + i) .bar0)
  | (s1, f, _) => .next (hostFault s1 f true)

/-- A read through BAR2 (R337, R344). -/
def execBar2Read (addr len : Nat) (s : State) : Host.Outcome State Fault Refusal :=
  match hostPlaces false len addr (wakeHbm s) with
  | (s1, (0, _, _), l) => .next (answer s1 0 [] (l.map fun p => Sparse.get ramDefault s1.hbm.mem p.2))
  | (s1, f, _) => .next (answer (hostFault s1 f false) (if f.1 = 2 then statusCA else statusUR) [] [])

/-- A PCIe AtomicOp to BAR2 completes with Unsupported Request. -/
def execBar2Atomic (_addr : Nat) (s : State) : Host.Outcome State Fault Refusal := .next (answer s statusUR [] [])

/-- PERST_N or a PCIe reset (R285): the endpoint's own state and the LADLE_VIEW of its path. -/
def execPcieReset (s : State) : Host.Outcome State Fault Refusal :=
  .next (({ s with pcie := {} }).modLadle fun l => { l with views := l.views.filter fun e => e.1 != PathId.bar0 })

end Sys2Proof.Machine
end

