-- ==== Sys2Proof/Machine/Results.lean ====
section
/-! DEFINITION. What an Anneal run derives from its readings: the fields of the calibration block and the words that its Pour
carries (R379, R388, R390). -/
namespace Sys2Proof.Machine

/-- A field of the calibration block: first byte, bytes, whether signed, value. -/
structure CalField where
  ofs : Nat
  n : Nat
  sgn : Bool
  val : Int
  deriving DecidableEq, Repr

/-- Whether a value lies inside its field (R386, cause 8). -/
def CalField.fits (f : CalField) : Bool :=
  if f.sgn then decide (-(2 ^ (8 * f.n - 1) : Int) ≤ f.val ∧ f.val < (2 ^ (8 * f.n - 1) : Int)) else decide (0 ≤ f.val ∧ f.val < (2 ^ (8 * f.n) : Int))

/-- Bytes of a block replaced. -/
def putBytes (b : List Byte) (ofs : Nat) (l : List Byte) : List Byte := b.take ofs ++ l ++ b.drop (ofs + l.length)
/-- A block with a field written. -/
def CalField.put (b : List Byte) (f : CalField) : List Byte := putBytes b f.ofs (leBytes f.n (wrapInt (8 * f.n) f.val))
/-- A field of a block as a number. -/
def blkNat (b : List Byte) (ofs n : Nat) : Nat := leNat ((b.drop ofs).take n)

/-- A string's record, a photodiode's section and an output's section in a block (R390). -/
def recOf (nn : Nat) : Nat := 192 + 272 * nn
def pdOf (p : Nat) : Nat := 6720 + 64 * p
def scanOf (o : Nat) : Nat := 7232 + 8 * o

/-- A reading of a run. -/
def AnnRun.read (r : AnnRun) (step o item point : Nat) : Rat :=
  match r.readings.find? fun x => x.step == step && x.out == o && x.item == item && x.point == point with
  | some x => x.value
  | none => 0
/-- The items that a step measured on an output. -/
def AnnRun.measured (r : AnnRun) (step o : Nat) : List Nat :=
  ((r.readings.filter fun x => x.step == step && x.out == o).map (·.item)).eraseDups
/-- Whether a step has been measured on an output. -/
def AnnRun.ran (r : AnnRun) (step o : Nat) : Bool := r.readings.any fun x => x.step == step && x.out == o

/-- E_k as stored (R379). -/
def effResult (r : AnnRun) (o nn k : Nat) : Int :=
  if k = 0 then 0
  else if k = 63 then 0x8000
  else
    let top := r.read 3 o nn 63
    if top = 0 then -1 else roundRat (r.read 3 o nn k / top / ((effAmp k : Rat) / 65535) * 0x8000)

/-- F_s in mW (R379): the channel's derived values on the board, shared by the readings at full scale. -/
def fluxResult (s : State) (r : AnnRun) (o nn : Nat) : Rat :=
  let m := s.act
  let same := (r.measured 3 o).filter fun t => strChan m t == strChan m nn && strBoard m t == strBoard m nn
  let tot := sumRat (fun t => (deriveString m (nth s.drive.boards (strBoard m t) {}) t {}).flux) same
  let sum := sumRat (fun t => r.read 3 o t 63) same
  if sum = 0 then -1 else tot * r.read 3 o nn 63 / sum

/-- The photodiodes mapped to an output and enabled. -/
def outPds (m : WordMap) (o : Nat) : List Nat := (List.range 8).filter fun k => m.bit (aPdMap k) 31 && m.fld (aPdMap k) 25 24 == o

/-- The fields that a step leaves for an output (R379, R390). -/
def stepFields (s : State) (r : AnnRun) (step o : Nat) : List CalField :=
  let m := s.act
  let items := r.measured step o
  match step with
  | 0 => items.map fun i => ⟨64 + 2 * i, 2, true, roundRat (r.read 0 o i 0)⟩
  | 1 => items.map fun nn => ⟨recOf nn + 18, 2, true, roundRat (r.read 1 o nn 0)⟩
  | 2 => items.flatMap fun nn => (List.range 64).map fun k => ⟨recOf nn + 20 + 2 * k, 2, false, roundRat (r.read 2 o nn k)⟩
  | 3 => items.flatMap fun nn =>
      [⟨recOf nn, 8, false, (nth s.drive.boards (strBoard m nn) {}).serial⟩, ⟨recOf nn + 8, 4, false, roundRat (fluxResult s r o nn)⟩,
       ⟨recOf nn + 12, 2, false, roundRat (r.read 3 o nn 65)⟩, ⟨recOf nn + 14, 2, true, roundRat (r.read 3 o nn 66)⟩,
       ⟨recOf nn + 16, 2, false, roundRat (r.read 3 o nn 64)⟩]
      ++ (List.range 62).map fun i => ⟨recOf nn + 148 + 2 * i, 2, false, effResult r o nn (i + 1)⟩
  | 4 => (items.filter (· < 6)).flatMap (fun c => (outPds m o).filterMap fun p =>
      if pdSees m o c p then some ⟨pdOf p + 4 + 4 * c, 4, false, roundRat (256 * r.read 4 o c p)⟩ else none)
      ++ (outPds m o).map fun p => ⟨pdOf p, 2, false, roundRat (r.read 4 o 16 p)⟩
  | 5 => [⟨scanOf o, 2, true, signedOf 16 (m.fld (aUact o) 31 16) + roundRat (r.read 5 o 0 0)⟩]
  | 6 => [⟨scanOf o + 2, 2, false, roundRat (r.read 6 o 0 0)⟩]
  | _ => []

/-- Whether the FEEDFWD codes of a step lie in their 14 bits (R390). -/
def codesFit (r : AnnRun) (o : Nat) : Bool :=
  (r.measured 2 o).all fun nn => (List.range 64).all fun k => decide (0 ≤ r.read 2 o nn k ∧ roundRat (r.read 2 o nn k) < 16384)

/-- The least and the greatest of a list of rationals. -/
def minMax : List Rat → Option (Rat × Rat)
  | [] => none
  | x :: l => match minMax l with | none => some (x, x) | some (a, b) => some (min a x, max b x)

/-- The code whose scaled reading is `y`: interpolated between the first two neighbouring points whose readings enclose it. -/
def invertAt (code : Nat → Int) (y : Rat) : Nat → List Rat → Int
  | _, [] => code 0
  | k, [_] => code k
  | k, a :: b :: l =>
    if (a ≤ y ∧ y ≤ b) ∨ (b ≤ y ∧ y ≤ a) then
      (if a = b then code k else roundAway ((code k : Rat) + ((code (k + 1) : Rat) - code k) * (y - a) / (b - a)))
    else invertAt code y (k + 1) (b :: l)

/-- The 4,096 codes of a channel from the 257 readings of its converter (R379); none for readings without a span. -/
def linResult (s : State) (r : AnnRun) (o j : Nat) : Option (List Nat) :=
  let c := convChan s.act o j
  let rs := (List.range 257).map fun k => r.read 7 o j k
  match minMax rs with
  | none => none
  | some (lo, hi) =>
    if hi = lo then none
    else
      let ys := rs.map fun x => (x - lo) / (hi - lo) * 65535
      let code := linPoint s.act o c
      let least := (List.range 257).find? fun k => nth rs k 0 == lo
      some ((List.range 4096).map fun i => wrapInt 16 (if i = 0 then code (least.getD 0) else invertAt code (16 * i) 0 ys))

/-- The new LIN tables of a run by channel index; none when a reading gives none. -/
def linTables (s : State) (r : AnnRun) : Option (List (Nat × List Byte)) :=
  let parts := outputs.flatMap fun o => (r.measured 7 o).map fun j =>
    (linResult s r o j).map fun l => (chanIdx o (convChan s.act o j), l.flatMap (leBytes 2))
  if parts.all Option.isSome then some (parts.filterMap id) else none

/-- The channels whose LIN tables a block holds, in order (R390). -/
def linHeld (b : List Byte) : List Nat := outputs.flatMap fun o => ((List.range 6).filter (nbit (blkNat b (scanOf o + 4) 1))).map (chanIdx o)
/-- The LIN table of a channel in a block. -/
def linIn (b : List Byte) (ch : Nat) : Option (List Byte) :=
  ((linHeld b).findIdx? (· == ch)).map fun k => (b.drop (7264 + 8192 * k)).take 8192

/-- Every step and output that a run measured. -/
def ranSteps (r : AnnRun) : List (Nat × Nat) := (List.range 8).flatMap fun st => (outputs.filter (r.ran st)).map fun o => (st, o)

/-- The block of a run before TIME and CHECK (R390), carrying over the block in force; none when a result lies outside its
field, or the block does not fit a slot of `room` bytes. -/
def newBlock (s : State) (r : AnnRun) (room : Nat) : Option (List Byte) :=
  let old := s.ann.block
  let fields := (ranSteps r).flatMap fun e => stepFields s r e.1 e.2
  match linTables s r with
  | none => none
  | some lins =>
    let base := (old ++ List.replicate 7264 0).take 7264
    let tabs := (List.range 24).filterMap fun ch => match (lins.find? fun e => e.1 == ch) with
      | some e => some e
      | none => (linIn old ch).map fun l => (ch, l)
    let masks := outputs.map fun o => ((List.range 6).map fun c => if tabs.any fun e => e.1 == chanIdx o c then 2 ^ c else 0).sum
    let len := 7264 + 8192 * tabs.length + 4
    let valid := (ranSteps r).foldl (fun v e => v ||| 2 ^ e.1) (blkNat old 20 2)
    let head := leBytes 2 0x0A01 ++ leBytes 2 1 ++ leBytes 4 (blkNat old 4 4 + 1) ++ leBytes 8 0 ++ leBytes 4 len ++ leBytes 2 valid
    let b1 := putBytes base 0 head
    let b2 := fields.foldl CalField.put b1
    let b3 := outputs.foldl (fun b o => putBytes b (scanOf o + 4) (leBytes 1 (nth masks o 0))) b2
    if fields.all CalField.fits && outputs.all (codesFit r) && decide (len ≤ room) then some (b3 ++ tabs.flatMap (·.2) ++ leBytes 4 0) else none

/-- A block with TIME and CHECK (R390). -/
def sealBlock (b : List Byte) (time : Nat) : List Byte :=
  let b1 := (putBytes b 8 (leBytes 8 time)).take (b.length - 4)
  b1 ++ leBytes 4 (crc32c b1)

/-- Whether a stored block is valid (R390): its bytes when it is, from a slot of a given place and size. -/
def readBlock (flash : Memory) (base size : Nat) : Option (List Byte) :=
  let g := fun a n => Memory.le flashDefault flash (base + a) n
  let len := g 16 4
  if g 0 2 = 0x0A01 ∧ g 2 2 = 1 ∧ 7268 ≤ len ∧ len ≤ size then
    (let b := Memory.bytes flashDefault flash base len
     if crc32c (b.take (len - 4)) = leNat (b.drop (len - 4)) then some b else none)
  else none

/-- A field of a staged word replaced. -/
def withFld (v : Word) (hi lo x : Nat) : Word := BitVec.ofNat 32 (v.toNat - nbits v.toNat hi lo * 2 ^ lo + x % 2 ^ (hi + 1 - lo) * 2 ^ lo)

/-- The words that carry a step's results for an output (R388); feed-forward codes, sense offsets and OFS have no register and
act from the block. -/
def stepWords (m stg : WordMap) (r : AnnRun) (step o : Nat) : List (Nat × Word) :=
  let b := r.block
  match step with
  | 3 => (r.measured 3 o).flatMap fun nn => (List.range 32).map fun i =>
      let e := fun (k : Nat) => if k = 0 then 0 else if k = 63 then 0x8000 else blkNat b (recOf nn + 146 + 2 * k) 2
      (0x0D000000 + 0x80 * nn + 4 * i, BitVec.ofNat 32 (e (2 * i) + 65536 * e (2 * i + 1)))
  | 4 => ((r.measured 4 o).filter (· < 6)).flatMap fun c => (outPds m o).filterMap fun p =>
      if pdSees m o c p then some (0x0D003000 + 0x20 * p + 4 * c, BitVec.ofNat 32 (blkNat b (pdOf p + 4 + 4 * c) 4)) else none
  | 5 => [(aUact o, withFld (stg.get (aUact o)) 31 16 (blkNat b (scanOf o) 2))]
  | 6 => [(aVtime o, withFld (stg.get (aVtime o)) 15 0 (blkNat b (scanOf o + 2) 2))]
  | 7 => (r.measured 7 o).flatMap fun j =>
      let ch := chanIdx o (convChan m o j)
      match linIn b ch with
      | none => []
      | some l => (List.range 2048).map fun i => (0x0C010000 + 0x2000 * ch + 4 * i, BitVec.ofNat 32 (blkNat l (4 * i) 4))
  | _ => []

/-- Every word of a run's results. -/
def resultWords (s : State) (r : AnnRun) : List (Nat × Word) := (ranSteps r).flatMap fun e => stepWords s.act s.ladle.stg r e.1 e.2

/-- The owners of a run's results (R388): the device for sensor offsets, the outputs measured, and the owners of the words. -/
def resultMask (s : State) (r : AnnRun) (ws : List (Nat × Word)) : Nat :=
  let own := (ranSteps r).map (fun e => if e.1 = 0 then 4 else e.2) ++ ws.flatMap fun w => ownersOf s.ladle w.1 w.2
  own.foldl (fun m k => withBit m k true) 0

end Sys2Proof.Machine
end

