-- ==== Sys2Proof/Machine/Ladle.lean ====
section
/-! DEFINITION. The Ladle: staged writes, requests for Pours, their checks, their commit and what it brings into force, and the
copies of an ingot that Pours carry (R245 to R252, R342, R388, R389, R452, R453, R456). -/
namespace Sys2Proof.Machine

/-! ### Staging (R245 to R247) -/

/-- A word enters the staged copy, with the path that staged it. -/
def stageWord (s : State) (path : PathId) (a : Nat) (v : Word) : State :=
  let k := a / 4 * 4
  s.modLadle fun l => { l with
    stg := l.stg.set k v
    touched := Sparse.put l.touched k (Sparse.get (fun _ => 0) l.touched k ||| 2 ^ pathNum path) }

/-- A write to a staged field of an owner of the pending Pour is refused (R247). -/
def refuseStage (s : State) (p : Pour) (path : PathId) : State :=
  raiseP (s.modLadle fun l => { l with refused := satAdd 0xFF l.refused 1 }) 0x0104 (pourData p) path

/-- A staged write that the copy after a commit no longer holds back: RESULT 0, or 4 where the pending Pour refuses it. -/
def stageNow (s : State) (path : PathId) (a : Nat) (v : Word) : State × Nat :=
  match s.ladle.pending with
  | some p => if (ownersOf s.ladle a v).any (nbit p.mask) then (refuseStage s p path, 4) else (stageWord s path a v, 0)
  | none => (stageWord s path a v, 0)

/-- The writes held during the copy after a commit proceed in order (R247). -/
def flushHeld (s : State) : State :=
  s.ladle.held.foldl (fun s h => (stageNow s h.1 h.2.1 h.2.2).1) (s.modLadle fun l => { l with held := [] })

/-- A write to an LS word by a path (R245, R247, R458): RESULT 0, 2 for a missing role, 3 for an owner outside OUT_MASK. -/
def lsWrite (s : State) (path : PathId) (a : Nat) (v : Word) : State × Nat :=
  if !hasRole s path 1 then (refuseRole s path 1 a, 2)
  else if !(ownersOf s.ladle a v).all (nbit (pathMask s path)) then (refuseRole s path 1 a, 3)
  else if s.ladle.busy then (s.modLadle fun l => { l with held := l.held ++ [(path, a, v)] }, 0)
  else stageNow s path a v

/-- A write to an LS field or table word. -/
def execLsWrite (path : PathId) (addr : Nat) (v : Word) (s : State) : Host.Outcome State Fault Refusal :=
  if serves s path ∧ addr % 4 = 0 ∧ clsOf addr = some .ls then .next (lsWrite s path addr v).1 else .next s

/-! ### Requests (R247, R249 to R251) -/

/-- LADLE_CHECK after a failure. -/
def reportCheck (s : State) (f : PourFail) : State := s.modLadle fun l => { l with chkBlock := f.block, chkOwner := f.owner, chkNo := f.check }

/-- Outputs named by a MASK. -/
def maskOutputs (mask : Nat) : List Nat := outputs.filter (nbit mask)

/-- Whether the outputs of a MASK coincide (R250): their generators run, and their next frame starts, periods and leads are
equal. -/
def coincide (s : State) (mask : Nat) : Bool :=
  let os := maskOutputs mask
  let key := fun (o : Nat) => (posInstant (s.tgAt o) (s.tgAt o).pos, period (s.rt o) o, leadTicks s.act o)
  os.all fun o => (s.tgAt o).running && (match os with | p :: _ => decide (key o = key p) | [] => true)

/-- The frame counter of the next boundary of an output: 0 before its first start. -/
def nextCounter (s : State) (o : Nat) : Nat := if (s.tgAt o).started then (s.tgAt o).counter + 1 else (s.tgAt o).counter

/-- The LADLE checks of a request (R251). -/
def ladleChecks (s : State) (v target : Nat) : Option Nat :=
  let mask := v % 32
  let targeted := nbit v 8
  if mask = 0 ∨ v &&& 0x31F ≠ v then some 1
  else if s.ladle.pending.isSome then some 2
  else if targeted && !coincide s mask then some 3
  else if targeted && (match maskOutputs mask with | [] => true | o :: _ => decide (nextCounter s o + 2 ^ 24 < target)) then some 4
  else none

/-- The domains that an enabled input and a sealed one need (R371). -/
def neededDomains (m : WordMap) : List Nat :=
  let on := (List.range 8).filter (inEnable m)
  on.flatMap (fun i => if i < 6 then [16 + i] else [0, 1].filterMap fun p => if nbit (streamPaths m i) p then some (22 + p) else none)
    ++ (if on.any (inSealed m) then [25] else [])

/-- A Pour begins its checks; the domains it needs are woken (R247, R372). -/
def beginPour (s : State) (mask : Nat) (targeted : Bool) (target : Nat) (kind : PourKind) (path : PathId) : State :=
  let s1 := s.modLadle fun l => { l with
    seq := l.seq + 1, st := 1, armed := false
    pending := some { mask := mask, targeted := targeted, target := target, seq := l.seq + 1, kind := kind, path := path, freed := [] } }
  let want := (neededDomains (candidate s1.ladle (pourWords s1.ladle mask))).filter fun d => !nbit s.therm.awake d
  s1.modTherm fun t => { t with pend := want.foldl (fun p d => withBit p d true) t.pend }

/-- A request that fails a LADLE check (R251). -/
def rejectRequest (s : State) (mask check : Nat) (path : PathId) : State :=
  let s1 := reportCheck (s.modLadle fun l => { l with seq := l.seq + 1, st := 4 }) ⟨1, check, 4⟩
  let s2 := raiseP s1 0x0102 (mask + s1.ladle.seq % 4096 * 2 ^ 16) path
  journalKind s2 2 path (changeData s2 s2.ladle.seq mask 1 0 false []) 0

/-- The words of a copy enter the staged copy of the Ladle. -/
def stageWords (s : State) (path : PathId) (ws : List (Nat × Word)) : State := ws.foldl (fun s w => stageWord s path w.1 w.2) s

/-- Words about to be staged on behalf of the part, with what stands there now (R388, R456). -/
def savedWords (s : State) (ws : List (Nat × Word)) : List (Nat × Option Word) :=
  (ws.map (·.1)).eraseDups.map fun a => (a / 4 * 4, some (s.ladle.stg.get a))

/-- The staging of some words is remembered, so that it can be taken back. -/
def saveTouched (s : State) (saved : List (Nat × Option Word)) : State :=
  s.modLadle fun l => { l with touchedSave := l.touched.filter fun e => saved.any fun x => x.1 == e.1 }

/-- A run that has passed every check stages its results and requests their Pour at once, while no Pour is pending (R388). -/
def stageResults (s : State) (r : AnnRun) : State :=
  let ws := resultWords s r
  let saved := savedWords s ws
  let s1 := stageWords (saveTouched s saved) .internal ws
  let s2 := s1.modAnn fun a => { a with run := some { r with staged := saved, waitPour := false, checked := false } }
  beginPour s2 (resultMask s2 r ws) false 0 .anneal .internal

/-- A run that waits to apply its results does so once no Pour is pending (R388). -/
def annealKick (s : State) : State :=
  match s.ann.run with
  | some r => if r.waitPour ∧ s.ladle.pending.isNone ∧ !s.ladle.busy then stageResults s r else s
  | none => s

/-- A write to LADLE_POUR (R247, R458): a cancellation, or a request. RESULT as for `lsWrite`, 5 for a failed check. -/
def pourWrite (s : State) (path : PathId) (v target : Nat) : State × Nat :=
  if !hasRole s path 1 then (refuseRole s path 1 0x10000, 2)
  else if nbit v 9 then (annealKick (cancelPour s path), 0)
  else if v % 32 &&& pathMask s path ≠ v % 32 then (refuseRole s path 1 0x10000, 3)
  else
    let s0 := flushHeld s
    match ladleChecks s0 v target with
    | some n => (rejectRequest s0 (v % 32) n path, 5)
    | none => (beginPour s0 (v % 32) (nbit v 8) target .host path, 0)

/-- LADLE_TARGET as written (R249). -/
def ladleTarget (s : State) : Nat := s.act.nat 0x10004 + s.act.nat 0x10008 * 2 ^ 32

/-- A write to LADLE_POUR that requests a Pour. -/
def execLadlePourRequest (path : PathId) (v : Word) (s : State) : Host.Outcome State Fault Refusal :=
  if serves s path then .next (pourWrite s path v.toNat (ladleTarget s)).1 else .next s

/-- A write to LADLE_POUR with CANCEL = 1. -/
def execLadlePourCancel (path : PathId) (s : State) : Host.Outcome State Fault Refusal :=
  if serves s path then .next (pourWrite s path 512 0).1 else .next s

/-! ### The words of a Pour -/

/-- The sealed words that travel in a Pour (R456). -/
def sealedOf (s : State) (p : Pour) : List (Nat × Word) := if p.kind = .ingotApply then s.mgmt.sealed else []

/-- Words about to be applied, their reserved bits cleared by the map they go into (R10). -/
def clearedPairs (m : WordMap) (l : List (Nat × Word)) : List (Nat × Word) := l.map fun e => (e.1, cleared m (e.1 / 4 * 4) e.2)

/-- What a Pour would change. A Dawn's Pour is judged against the reset values, since its sealed values are in force (R453). -/
def pourView (s : State) (p : Pour) : PourView :=
  let l := s.ladle
  let as := pourWords l p.mask
  let sl := sealedOf s p
  let old : WordMap := if p.kind = .dawn then [] else l.act
  let raw : WordMap := (rawCandidate l as).setAll sl
  let words := as ++ sl.map (·.1) ++ (if p.kind = .dawn then l.act.map (·.1) else [])
  { old := old, new := (candidate l as).setAll (clearedPairs raw sl), raw := raw, words := words
    diff := words.filter fun a => old.get a != raw.get a }

/-- The pairs a Pour applies, by rising address (R467). -/
def pourPairs (s : State) (p : Pour) : List (Nat × Word) :=
  ((pourWords s.ladle p.mask).map (fun a => (a, s.ladle.stg.clean a)) ++ clearedPairs s.act (sealedOf s p)).foldl (fun m e => Sparse.put m e.1 e.2) []

/-- DIGEST of the pairs applied (R467). -/
def pourDigest (l : List (Nat × Word)) : List Byte := Config.sha384 (l.flatMap fun e => leBytes 4 e.1 ++ leBytes 4 e.2.toNat)

/-- PATHS: the paths that staged an applied field (R467). -/
def pourPaths (s : State) (p : Pour) : Nat :=
  (pourWords s.ladle p.mask).foldl (fun b a => b ||| Sparse.get (fun _ => 0) s.ladle.touched a) (if (sealedOf s p).isEmpty then 0 else 16)

/-! ### What Dawn reads from flash (R390, R437, R446) -/

/-- The records of a journal area whose FORMAT and CHECK are right, each with its place (R437). -/
def journalRecords (flash : Memory) (base size : Nat) : List (Nat × List Byte) :=
  (List.range (size / 128)).filterMap fun i =>
    let b := Memory.bytes flashDefault flash (base + 128 * i) 128
    if leNat (b.take 2) = 0x1A01 ∧ crc32c (b.take 124) = leNat (b.drop 124) then some (128 * i, b) else none

/-- SEQ and KIND of a record. -/
def recSeq (b : List Byte) : Nat := leNat ((b.drop 4).take 4)
def recKind (b : List Byte) : Nat := (b.getD 2 0).toNat

/-- The last record of a list by SEQ. -/
def lastRecord (l : List (Nat × List Byte)) : Option (Nat × List Byte) :=
  l.foldl (fun a e => match a with | none => some e | some x => if recSeq x.2 < recSeq e.2 then some e else some x) none

/-- The journal's end is found (R474 step 6): the chain goes on after the last record, the mirror is what the last shutdown,
session-open or session-close record left (R369), and secure time is at least that record's (R431). -/
def findJournal (s : State) (base size : Nat) : State :=
  let rs := journalRecords s.flash base size
  match lastRecord rs with
  | none => s
  | some (pos, b) =>
    let after := fun (k : Nat) => (rs.filter fun e => recSeq e.2 > k).length
    let sig := match lastRecord (rs.filter fun e => recKind e.2 == 1) with | some e => after (recSeq e.2) | none => rs.length
    let mark := lastRecord (rs.filter fun e => recKind e.2 == 6 || recKind e.2 == 7 || recKind e.2 == 8)
    (s.modJrn fun j => { j with
      seq := recSeq b
      pos := pos
      prev := Config.sha384 b
      sinceSig := sig
      mirror := match mark with | some e => recKind e.2 == 7 | none => false }).modCruc fun c =>
        { c with timeFloor := if recKind b = 1 then c.timeFloor else max c.timeFloor (leNat ((b.drop 16).take 8)) }

/-- The journal starts at the first unit of its area (R438, R446). -/
def freshArea (s : State) : State :=
  let base := (journalArea s).1
  { s.modJrn fun j => { j with pos := 0, sigDue := true } with flash := Sparse.clear s.flash base (base + max 128 s.jrn.eraseUnit) }

/-- A sensor's offset as the block in force gives it (R351, R378). -/
def takeOffsets (s : State) : State :=
  if s.ann.block.length < 192 then s
  else s.modTherm fun t => { t with sensors := (List.range 64).map fun i =>
    { nth t.sensors i {} with ofs := signedOf 16 (leNat ((s.ann.block.drop (64 + 2 * i)).take 2)) } }

/-- The calibration block in force after Dawn, with its slot (R390): the valid one with the higher SEQ. -/
def bestBlock (flash : Memory) (lay : List Nat) : Option (Nat × List Byte) :=
  match readBlock flash (nth lay 0 0) (nth lay 1 0), readBlock flash (nth lay 2 0) (nth lay 3 0) with
  | some a, some b => if blkNat a 4 4 < blkNat b 4 4 then some (1, b) else some (0, a)
  | some a, none => some (0, a)
  | none, some b => some (1, b)
  | none, none => none

/-- Lane F's step 6 and R446: the journal's end and the calibration block are read where the last layout put them; a layout that
changed moves the block to the new slot 0 and the journal to the first unit of its new area. -/
def readStores (s : State) (old : List Nat) : State :=
  let new := s.mgmt.layout
  let changed := old != new && old.any (· != 0)
  let lay := if changed then old else new
  let s1 := findJournal s (nth lay 4 0) (nth lay 5 0)
  let s2 := match bestBlock s.flash lay with
    | some (k, b) =>
      let t := s1.modAnn fun a => { a with block := b, slot := if changed then 0 else k, seq := blkNat b 4 4 }
      takeOffsets (if changed ∧ b.length ≤ nth new 1 0 then
        { t with flash := Memory.store flashDefault (Sparse.clear t.flash (nth new 0 0) (nth new 0 0 + nth new 1 0)) (nth new 0 0) b }
      else t)
    | none => raise (s1.modAnn fun a => { a with block := [], slot := 1, seq := 0 }) 0x0E06 0
  if changed ∨ (lastRecord (journalRecords s.flash (nth lay 4 0) (nth lay 5 0))).isNone then freshArea s2 else journalAdvance s2

/-- The words in which the calibration block prevails over the ingot's tables at Dawn (R390): each section that VALID marks. -/
def calWords (s : State) : List (Nat × Word) :=
  let b := s.ann.block
  let m := s.ladle.stg
  let has := fun (k : Nat) => b.length != 0 && nbit (blkNat b 20 2) k
  let eff := (List.range 24).flatMap fun nn =>
    if strEnabled m nn && calHas b nn && blkNat b (recOf nn) 8 == (nth s.drive.boards (strBoard m nn) {}).serial then
      (List.range 32).map fun i =>
        let e := fun (k : Nat) => if k = 0 then 0 else if k = 63 then 0x8000 else blkNat b (recOf nn + 146 + 2 * k) 2
        (0x0D000000 + 0x80 * nn + 4 * i, BitVec.ofNat 32 (e (2 * i) + 65536 * e (2 * i + 1)))
    else []
  let phi := if has 4 then (List.range 8).flatMap fun p => (List.range 6).filterMap fun c =>
      let v := blkNat b (pdOf p + 4 + 4 * c) 4
      if v = 0 then none else some (0x0D003000 + 0x20 * p + 4 * c, BitVec.ofNat 32 v)
    else []
  let scan := (outputs.filter (isScan m)).flatMap fun o =>
    (if has 5 && blkNat b (scanOf o) 2 != 0 then [(aUact o, withFld (m.get (aUact o)) 31 16 (blkNat b (scanOf o) 2))] else [])
      ++ (if has 6 && blkNat b (scanOf o + 2) 2 != 0 then [(aVtime o, withFld (m.get (aVtime o)) 15 0 (blkNat b (scanOf o + 2) 2))] else [])
  let lin := if has 7 then (linHeld b).flatMap fun ch => match linIn b ch with
      | some l => (List.range 2048).map fun i => (0x0C010000 + 0x2000 * ch + 4 * i, BitVec.ofNat 32 (blkNat l (4 * i) 4))
      | none => []
    else []
  eff ++ phi ++ scan ++ lin

/-- The dark levels that the calibration block holds (R390). -/
def takeDarks (s : State) : State :=
  let b := s.ann.block
  if b.length ≠ 0 ∧ nbit (blkNat b 20 2) 4 then
    s.modDrive fun d => { d with pds := (List.range 8).map fun p => { nth d.pds p {} with dark := blkNat b (pdOf p) 2 } }
  else s

/-! ### The copies of an ingot in a Pour (R452, R453, R456) -/

/-- Dawn selects the set point that the copy requests if it is valid, otherwise the lowest-numbered valid one (R301). -/
def selectFsp (s : State) : State :=
  let f := if s.mgmt.fspReq < 4 ∧ nbit s.hbm.valid s.mgmt.fspReq then s.mgmt.fspReq else ((List.range 4).find? (nbit s.hbm.valid)).getD 0
  let w : Word := BitVec.ofNat 32 f
  let s1 := s.modLadle fun l => { l with act := l.act.set 0x60004 w, stg := l.stg.set 0x60004 w }
  let s2 := s1.modHbm fun h => { zeroDebts h s.tb.tick with
    st := 1, fspNow := f, phy := List.replicate 16 (nth h.trained f 0), lastUse := List.replicate 16 s.tb.tick
    passTick := s.tb.tick, passTemp := h.temp }
  if s.hbm.st = 0 ∨ s.hbm.fspNow ≠ f then raise s2 0x0603 (f * 2 ^ 8) else s2

/-- HBM3 is divided afresh (R193, R297, R332): 64 MB of tables first, then the Sprue pool, then the surface pool (DESIGN CHOICE,
notes/assumptions/16.md). -/
def buildPools (s : State) : State :=
  let start := ceilDiv (2 ^ 26 + sprueSize s.ladle.stg * 128) (2 ^ 21) * 2 ^ 21
  let pool := [(start, hbmCapacity s - start)]
  (s.modHbm fun h => { h with mapOrder := s.act.fld 0x60000 1 0 }).modSurf fun m => { m with
    tableAll := [(0, 2 ^ 26)], tablePool := [(0, 2 ^ 26)], poolAll := pool, pool := pool }

/-- Dawn applies a copy (R453): its Dawn-only sections and what the flash holds beside it, its sealed words, its open words with
the calibration block's over them, and a Pour of every owner. -/
def dawnApply (s : State) (c : Nat) : State :=
  let s1 := takeDarks (readStores (applyDawnSections s c) s.mgmt.layout)
  let sealed_ := clearedPairs s1.act (copyWords s.flash c s1.act 4 5)
  let s2 := selectFsp (s1.modLadle fun l => { l with act := l.act.setAll sealed_, stg := l.stg.setAll sealed_ })
  let s3 := stageWords s2 .ingot (copyWords s.flash c s2.ladle.stg 6 7)
  let s4 := buildPools (stageWords s3 .internal (calWords s3))
  beginPour (s4.modMgmt fun m => { m with applying := some c }) 31 false 0 .dawn .internal

/-- Dawn fails (R477): the device stays in DAWN with the latch set; with no ingot applied the paths hold the roles of R459. -/
def dawnFail (s : State) (cause : Nat) : State :=
  let bare := fun (m : MgmtState) => { m with
    applied := false
    spiRoles := 0x081
    bar0Roles := 0x081
    spiMask := 0
    bar0Mask := 0
    operators := List.replicate 8 none }
  raise ((s.modMode fun x => { x with fail := cause }).modMgmt bare) 0x0002 (cause * 2 ^ 8)

/-- The other copy. -/
def otherCopy (c : Nat) : Nat := 1 - c

/-- The copy that Dawn applies is rejected (R452): every staged value is discarded and the other copy is applied, once, if it
is valid. -/
def dawnReject (s : State) : State :=
  let c := s.mgmt.applying.getD 0
  let s1 := s.modLadle fun l => { l with act := [], stg := [], touched := [] }
  let d := otherCopy c
  if s.mgmt.fellBack then dawnFail s1 5
  else
    let cause := judgeCopy s1 d false
    let s2 := (rejectEvent s1 cause).modMgmt fun m => { m with
      fellBack := true, causeA := if d = 0 then cause else m.causeA, causeB := if d = 1 then cause else m.causeB }
    if cause = 0 then dawnApply (raise s2 0x0011 (ingotData .internal d (readIngot s.flash d).seq)) d else dawnFail s2 5

/-! ### Checks (R251) -/

/-- A Pour is rejected (R251, R388, R452, R456): POUR_REJECT, its record, and what it had staged on the part's behalf. -/
def rejectPour (s : State) (p : Pour) (f : PourFail) : State :=
  let s1 := raiseP (withdrawPour (reportCheck s f) 4) 0x0102 (pourData p) p.path
  let s2 := journalKind s1 2 p.path (changeData s1 p.seq p.mask 1 0 false []) 0
  match p.kind with
  | .anneal => (match s2.ann.run with | some r => raise (endRun s2 r 3 0) 0x0E04 (annData 3 0 (r.items.headD 0)) | none => s2)
  | .dawn => dawnReject s2
  | _ => s2

/-- A Pour whose checks have passed is armed. -/
def armPour (s : State) : State :=
  s.modLadle fun l => { l with
    armed := true, chkBlock := 0, chkOwner := 0, chkNo := 0
    st := match l.pending with | some p => if p.seq = l.seq then 2 else l.st | none => l.st }

/-- Whether every domain that a Pour needs is awake (R372); Dawn wakes all of them. -/
def domainsAwake (s : State) (p : Pour) (v : PourView) : Bool := p.kind == .dawn || (neededDomains v.new).all (nbit s.therm.awake)

/-- The block a Pour brings with it, or the one in force. -/
def pourBlock (s : State) (p : Pour) : List Byte :=
  match p.kind, s.ann.run with | .anneal, some r => r.block | _, _ => s.ann.block

/-- The check lists of the pending Pour complete (R251). Anneal's Pour then waits for its block to be written (R388). -/
def checkPour (s : State) (p : Pour) : State :=
  let v := pourView s p
  if !domainsAwake s p v then s
  else match runLists s v (candidateFlux s v (pourBlock s p)) (p.kind == .dawn || p.kind == .ingotApply) with
    | (s1, some f) => rejectPour s1 p f
    | (s1, none) =>
      if p.kind = .anneal then s1.modAnn fun a => { a with run := a.run.map fun r => { r with checked := true, st := 4, writeWait := !s1.therm.flashOpen, waitAt := s1.tb.tick } }
      else armPour s1

def execPourChecksDone (s : State) : Host.Outcome State Fault Refusal :=
  match s.ladle.pending with
  | some p =>
    let writing : Bool := match s.ann.run with | some r => p.kind == .anneal && r.checked | none => false
    if s.ladle.armed || writing then .next s else .next (annealKick (checkPour s p))
  | none => .next s

/-! ### The commit (R250, R252) -/

/-- The settings of a Pour come into force and into the staged copy; reserved bits read 0 (R10, R247). -/
def takeWords (s : State) (p : Pour) : State :=
  let pairs := pourPairs s p
  let as := pairs.map (·.1)
  s.modLadle fun l => { l with
    act := l.act.setAll pairs, stg := l.stg.setAll pairs
    touched := l.touched.filter fun e => !as.contains e.1
    pending := none, armed := false, busy := true
    st := if p.seq = l.seq then 3 else l.st }

/-- The bins of a channel start afresh when a Pour changes an efficiency table of its strings or its PHI (R109). -/
def freshBins (s : State) (v : PourView) : State :=
  outputs.foldl (fun s o => (List.range 6).foldl (fun s c =>
    let eff := (chanStrings v.new o c).any fun nn => v.touches (0x0D000000 + 0x80 * nn) (0x0D000080 + 0x80 * nn)
    let phi := (List.range 8).any fun p => pdSees v.new o c p && v.touches (0x0D003000 + 0x20 * p + 4 * c) (0x0D003004 + 0x20 * p + 4 * c)
    if eff || phi then s.modChan o c fun x => { x with bins := List.replicate 8 1 } else s) s) s

/-- Strings after a Pour: at Dawn the boards are taken into use; a Pour gives the plane encoder the F_s of strings mapped anew, while
the drive takes their values at its output's B_k (R102, R252, R522). -/
def commitStrings (s : State) (v : PourView) (dawn : Bool) : State :=
  if dawn then freshBins (deriveBoards s) v
  else
    let w := candidateFlux s v s.ann.block
    freshBins (s.modDrive fun d => { d with strings := d.strings.zipIdx.map fun x => { x.1 with weightFlux := nth w x.2 x.1.weightFlux } }) v

/-- Whether a Pour changes, for a channel, its enabled strings, an efficiency table of one or their F_s as R522 uses them (R62). -/
def channelMoved (s : State) (v : PourView) (before : List Rat) (o c : Nat) : Bool :=
  let now := chanStrings v.new o c
  chanStrings v.old o c != now || now.any fun nn =>
    v.touches (0x0D000000 + 0x80 * nn) (0x0D000080 + 0x80 * nn) || nth before nn 0 != (s.strAt nn).weightFlux

/-- The versions of plane sets advance with a Pour, `before` being the strings' F_s before it (R62). -/
def advanceVersions (s : State) (v : PourView) (before : List Rat) : State :=
  outputs.foldl (fun s o =>
    let moved := fun (t : Nat) => v.touches (aPlaneSet o t) (aPlaneSet o t + 0x400) || v.touches (aCodebook o t 0) (aCodebook o t 0 + 0x30000)
      || (List.range (psNchan v.new o t)).any (channelMoved s v before o)
    s.modEnc o fun e => { e with versions := (List.range 8).map fun t => (nth e.versions t 0 + if moved t then 1 else 0) % 32 }) s

/-- New device-owned areas come into force. The buffers of a sealed input are protected (R264): their area stays so until it goes back
to the pool, overwritten with zeros (R337). -/
def takeAreas (s : State) (m : WordMap) (x : SurfState) : State :=
  let old := s.surf
  let was := fun (e : Nat × Nat × Nat) => old.owned.any fun d => d.2 == e.2 && old.sealedAreas.contains d.1
  let gone := (old.owned.filter fun d => old.sealedAreas.contains d.1 && !(x.owned.any fun e => e.2 == d.2)).map (·.2)
  { s with
    surf := { x with sealedAreas := (x.owned.filter fun e => was e || (decide (e.1 < 8) && inSealed m e.1)).map (·.1) }
    hbm := { s.hbm with mem := zeroExtents s.hbm.mem gone } }

/-- The queue ranges, load, scalers and areas after a Pour (R189, R203, R217, R223, R264). -/
def commitComposer (s : State) (v : PourView) : State :=
  let m := v.new
  let ranges := placeAll m (rangesGiven s) (rangesInForce s)
  let costs := (loadOutputs s).map fun o => (o, composerCost m o fun _ => .host 0 0)
  let s1 := s.modComposer fun x => { x with
    utilU := utilField (utilAt m 0 costs)
    glevel := glevelOf m costs
    presents := x.presents.filter fun e => !v.layersApplied.contains e.1
    presentsNext := x.presentsNext.filter fun e => !v.layersApplied.contains e.1 }
  let s2 := outputs.foldl (fun s o => s.modComp o fun c => { c with
    nextQbase := (nth ranges o (0, 0)).1, nextNtiles := (nth ranges o (0, 0)).2
    budget := (match costs.find? fun e => e.1 == o with | some e => e.2.1 / 16 | none => 0)
    scalers := scalersOf m o }) s1
  let areas := outputs.foldl (fun a o => match a with | some x => canvasArea m o x | none => none) (captureAreas s2 m s2.surf)
  let s3 := match areas with | some x => takeAreas s2 m x | none => s2
  outputs.foldl (fun s o => s.modComp o fun c => { c with canvas := warpOn m o && (ownedArea s.surf (8 + o)).isSome }) s3

/-- The buffers of an input after a Pour (R264, R287). -/
def commitInput (s : State) (v : PourView) (i : Nat) : State :=
  let on := fun (m : WordMap) => inEnable m i && groupLead m i == i
  let was := on v.old && (s.inAt i).st != 0
  let now := on v.new
  let fresh := List.replicate (inNbuf v.new i) ({} : CapBuf)
  let keep := fun (x : InputState) (k : Bool) => x.oldBufs ++ x.bufs.filter fun b => !b.refs.isEmpty || (k && b.fence && x.newest == some b.frame.count)
  if was && !now then
    let s1 := (discardRun s i).modIn i fun x => { x with
      st := 0, up := false, consistent := 0, links := 0, rate := 0, lastRef := none, refTimes := [], newest := none, bufs := []
      oldBufs := keep x false, hpd := false, hpdPulse := false, prev := none }
    pruneOld s1 i
  else if !was && now then
    s.modIn i fun x => { x with
      st := 1, bufs := fresh, hpd := i == 4 || i == 5, consistent := 0, up := false, tooLarge := false
      pathAt := [s.tb.tick, s.tb.tick], pathDown := [false, false] }
  else if was && now && (captureNeed v.old i != captureNeed v.new i || inNbuf v.old i != inNbuf v.new i || inMaxW v.old i != inMaxW v.new i) then
    (discardRun s i).modIn i fun x => { x with oldBufs := keep x true, bufs := fresh }
  else s

/-- The EDID of a DisplayPort input is checked at each Pour (R274, R276): a change of what is served pulses HPD. -/
def commitEdid (s : State) (v : PourView) (i : Nat) : State :=
  let x := s.inAt i
  let bad := !edidOk v.new i
  let changed := bad != x.edidDefault || (!bad && v.touches (0x04002000 + 0x800 * (i - 4)) (0x04002800 + 0x800 * (i - 4)))
  let s1 := s.modIn i fun x => { x with
    edidDefault := bad, hpd := x.hpd && !changed, hpdPulse := x.hpdPulse || (changed && x.hpd)
    hpdAt := if changed && x.hpd then s.tb.tick else x.hpdAt }
  if bad then raise s1 0x030B (inData i) else s1

/-- The PTP client starts, stops or turns to another port or domain (R280): PTP time is not valid then, and is lost as a reference
(R236). -/
def commitPtp (s : State) (v : PourView) : State :=
  if !v.changes 0x30010 0x800001FF then s
  else
    let s1 := { s with ptp := { s.ptp with st := if v.new.bit 0x30010 31 then 1 else 0, valid := false, consistent := 0 } }
    outputs.foldl (fun s o => if genSrc (s.rt o) o = 2 then loseGenRef s o else s) s1

/-- Inputs, their EDIDs, the PTP client and disabled external sensors after a Pour. -/
def commitInputs (s : State) (v : PourView) : State :=
  let s1 := (List.range 8).foldl (fun s i => commitInput s v i) s
  let s2 := [0, 1].foldl (fun s p => reportGroups s v.old p) (commitPtp (commitEdid (commitEdid s1 v 4) v 5) v)
  let s3 := (List.range 12).foldl (fun s x => if v.old.bit (aExtCfg x) 31 && !v.new.bit (aExtCfg x) 31 then
    s.modTherm fun t => { t with exts := listSet t.exts x {} } else s) s2
  if v.changes 0x60004 3 then requestFsp s3 (v.new.fld 0x60004 1 0) else s3

/-- Layer changes and STILL of the outputs that a Pour reaches (R258, R259). -/
def commitStill (s : State) (v : PourView) : State :=
  let windows : List (Nat × Nat) := [(0x70000, 0xA0000), (0x08000000, 0x0B000000), (0xF0000, 0x100000), (0x10000000, 0x11000000)]
  let shown := v.words.filter fun a => windows.any fun w => decide (w.1 ≤ a ∧ a < w.2)
  outputs.foldl (fun s o =>
    let mine := fun (a : Nat) => mappedOutput v.old (ownerKind a) == o || mappedOutput v.new (ownerKind a) == o
    s.modTg o fun t => { t with
      layerChange := t.layerChange || shown.any mine
      stillSpent := t.stillSpent && !v.applies (aTgCfg o) (aTgCfg o + 4) }) s

/-- What a Pour disables (R257): layers, inputs, the pixel-pipeline stages of PIX_CTRL_n and strings. -/
def commitDisables (s : State) (p : Pour) (v : PourView) : State :=
  let new : Disable → Nat → Retire := fun d o => { item := d, out := o, mask := p.mask, seq := p.seq }
  let gone := fun (f : WordMap → Bool) => f v.old && !f v.new
  let layers := ((List.range 128).filter fun l => gone fun m => lyEnable m l).map fun l => new (.layer l) (lyOutput v.old l)
  let inputs := ((List.range 8).filter fun i => gone fun m => inEnable m i && groupLead m i == i).map fun i => new (.input i) 4
  let stages := outputs.flatMap fun o => ((List.range 6).filter fun k => gone fun m => m.bit (aPixCtrl o) k).map fun k => new (.stage o k) o
  let strs := ((List.range 24).filter fun nn => gone fun m => strEnabled m nn).map fun nn => new (.string nn) (strOut v.old nn)
  s.modLadle fun l => { l with disables := l.disables ++ layers ++ inputs ++ stages ++ strs }

/-- Whether a Pour changes a field that a step of a run reads (R386): the strings, photodiodes, tables and scan fields of its
outputs, or the device's drive, sensors and ANN_CFG. -/
def annealReads (r : AnnRun) (v : PourView) : Bool :=
  let reads : List (Nat × Nat) := [(0xB0118, 0xB0200), (0xC0000, 0xD0000), (0x0C001000, 0x0E000000), (0xD0200, 0xD02C0), (0xE0008, 0xE000C)]
  v.diff.any fun a => reads.any (fun w => decide (w.1 ≤ a ∧ a < w.2)) && (
    let o := [mappedOutput v.old (ownerKind a), mappedOutput v.new (ownerKind a)]
    o.any fun k => k == 4 || nbit r.outputs k)

/-- Generators of outputs that now have a partition start (R474 step 10, R60); with none running, the device's settings act at
once (R252). -/
def commitGenerators (s : State) : State :=
  let s1 := outputs.foldl (fun s o =>
    if !(s.tgAt o).running && fsSize s.act o != 0 && (s.tgAt o).tm == .idle && s.mode.dev != 0 && s.mode.dev != 7 then startGenerator s o else s) s
  if (lowestRunning s).isNone then takeDevice s1 s1.act else s1

/-- Anneal's Pour has committed (R388, R389): the new block is in force, measured strings take its values, and the amplitude
bins of their channels start afresh. -/
def annealApplied (s : State) : State :=
  match s.ann.run with
  | none => s
  | some r =>
    let s1 := s.modAnn fun a => { a with
      run := none, outcome := 1, cause := 0, block := r.block, slot := 1 - a.slot, seq := leNat ((r.block.drop 4).take 4) }
    let s2 := if nbit r.steps 0 then takeOffsets s1 else s1
    let mine := (List.range 24).filter fun nn => strEnabled s.act nn && nbit r.outputs (strOut s.act nn)
    let s3 := if nbit r.steps 3 then mine.foldl (deriveSlot s.act) s2 else s2
    let fresh : ChanState → ChanState := fun x => { x with k := 1, bins := List.replicate 8 1 }
    let s4 := if r.kind = 2 then s3 else mine.foldl (fun s nn => s.modChan (strOut s.act nn) (strChan s.act nn) fresh) s3
    let s5 := if s4.mode.dev = 5 then setDevice s4 1 else s4
    raise (recomputeDom s5) 0x0E02 (annData 1 0 0)

/-- An applied copy becomes the copy in force (R454, R456); of its Dawn-only section, SHOW_MASK acts now (R448). -/
def ingotApplied (s : State) (path : PathId) : State :=
  match s.mgmt.applying with
  | none => s
  | some c =>
    let g := readIngot s.flash c
    let s1 := s.modMgmt fun m => { m with
      inForce := c, seq := g.seq, applying := none, applySaved := [], sealed := [], committed := none, autoShow := nbit g.flags 1
      showMask := match findSection s.flash c 3 with | some l => leNat ((l.drop 2).take 1) | none => m.showMask }
    journalIngot (raiseP (raiseFloor s1 c) 0x0013 (ingotData path c g.seq) path) 9 c path

/-- The output whose B_k announces a Pour (R252): the lowest of its MASK whose generator runs; for a MASK of the device alone,
none. -/
def pourOutput (s : State) (p : Pour) : Option Nat := (maskOutputs p.mask).find? fun o => (s.tgAt o).running

/-- The frame counter a Pour's boundary has, or FRAME_CNT at a commit that no boundary announces (R249, R252). -/
def pourCounter (s : State) (p : Pour) : Nat :=
  match pourOutput s p with
  | some o => nextCounter s o
  | none => (s.tgAt ((maskOutputs p.mask).headD 0)).counter

/-- POUR_APPLIED waits for its boundary, or is raised at the commit (R252). -/
def announcePour (s : State) (p : Pour) (counter : Nat) : State :=
  match pourOutput s p with
  | some o => s.modLadle fun l => { l with applied := l.applied ++ [(p.mask, p.seq, o, false)] }
  | none => raiseP s 0x0101 (pourData p + counter % 2 ^ 32 * 2 ^ 32) p.path

/-- What a committed Pour brings into force beyond its words, in the blocks that keep state of their own. -/
def commitBlocks (s : State) (p : Pour) (v : PourView) : State :=
  let s1 := commitInputs (commitComposer (commitStrings s v (p.kind == .dawn)) v) v
  let s2 := commitDisables (commitStill s1 v) p v
  let s3 := if p.kind = .dawn ∨ p.kind = .ingotApply then
      outputs.foldl makeResident s2
    else s2
  let s3 := if p.kind = .dawn ∨ v.touches 0x0A700000 0x0A708000 then makeTile s3 else s3
  let s4 := match p.kind, s3.ann.run with
    | .anneal, _ => annealApplied s3
    | _, some r => if annealReads r v then abortRun s3 7 else s3
    | _, none => s3
  commitGenerators (advanceVersions s4 v (s.drive.strings.map (·.weightFlux)))

/-- The surface of an enabled host layer of the Pour was freed while it was armed (R342). -/
def freedLayer (v : PourView) (p : Pour) : Option Nat :=
  (List.range 128).find? fun l => lyEnable v.new l && lyKind v.new l == 0 && nbit p.mask (lyOutput v.new l) && p.freed.contains (lySurface v.new l)

/-- The commit of a Pour (R250, R252). -/
def commitPour (s : State) (p : Pour) : State :=
  let v := (pourView s p).settled
  match freedLayer v p with
  | some l =>
    let (s1, f) := compReport s ⟨3, lyOutput v.new l, l⟩
    rejectPour s1 p (f.getD ⟨7, 3, 4⟩)
  | none =>
    let late := p.targeted && decide (p.target < pourCounter s p)
    let counter := pourCounter s p
    let data := changeRecord (counter % 2 ^ 32) p.seq p.mask (if late then 2 else 0) (pourPaths s p) (!(sealedOf s p).isEmpty) (pourDigest (pourPairs s p))
    let s1 := announcePour (takeWords (holdSecure s) p) p counter
    let s2 := if late then raiseP s1 0x0103 (pourData p + counter % 2 ^ 32 * 2 ^ 32) p.path else s1
    let s3 := journalKind s2 2 p.path data 0
    let s4 := commitBlocks s3 p v
    match p.kind with
    | .ingotApply => ingotApplied s4 p.path
    | .dawn => (s4.modMode fun x => { x with dawnStep := 10 }).modMgmt fun m => { m with applying := none }
    | _ => s4

/-- The commit instant of the armed Pour (R250, "When a fault strikes the Pour commit itself"): the selector is written in three
copies; corruption of two or more is HALT_LADLE. A targeted Pour waits for its boundary (R249). -/
def execPourCommit (corrupt : Nat) (s : State) : Host.Outcome State Fault Refusal :=
  match s.ladle.pending with
  | none => .next s
  | some p =>
    if !s.ladle.armed || (p.targeted && decide (pourCounter s p < p.target)) then .next s
    else
      let side := !(nth s.ladle.selector 0 false)
      let bad := (List.range 3).filter (nbit corrupt)
      if 2 ≤ bad.length then
        .next (raiseHalt (s.modLadle fun l => { l with selector := (List.range 3).map fun k => if bad.contains k then !side else side }) 0x0F18 0)
      else .next (annealKick (commitPour (s.modLadle fun l => { l with selector := [side, side, side] }) p))

/-- The copy of the new values into the staged copy completes, and the writes held meanwhile proceed (R247). -/
def execLadleCopyDone (s : State) : Host.Outcome State Fault Refusal :=
  if s.ladle.busy then .next (annealKick (flushHeld (s.modLadle fun l => { l with busy := false }))) else .next s

end Sys2Proof.Machine
end

