-- ==== Sys2Proof/Machine/Anneal.lean ====
section
/-! DEFINITION. Calibration runs: their request, the points and checks of their steps, stolen frames, and the writing of the
calibration block (R376 to R392). -/
namespace Sys2Proof.Machine

/-! ### Requests (R377) -/

/-- Whether the dowser reads closed (R376). -/
def dowserClosed (s : State) : Bool := s.ann.dowser != (s.rt 4).bit 0xE0008 12

/-- The steps that a kind of run allows (R378). -/
def kindSteps (kind : Nat) : Nat := [0xFE, 0x0E, 0x01].getD kind 0

/-- Whether an output is in transition (R471). -/
def inTransition (s : State) (o : Nat) : Bool :=
  let x := s.outAt o
  x.trans || x.entry.isSome || x.exit != .none_ || (s.tgAt o).tm != .idle

/-- Whether a kind of run accepts an output's mode (R377, R378). -/
def acceptsMode (s : State) (kind o : Nat) : Bool :=
  let m := (s.outAt o).mode
  if kind = 0 then decide (1 ≤ m ∧ m ≤ 4) else (m == 2 || m == 4) && !isScan (s.rt o) o

/-- The step and output pairs of a run, steps in bit order and outputs in index order (R378). -/
def runPairs (s : State) (kind outs steps : Nat) : List (Nat × Nat) :=
  (List.range 8).flatMap fun st =>
    if !nbit steps st then [] else if kind = 2 then [(st, 0)]
    else (outputs.filter fun o => nbit outs o && (decide (st < 5) || isScan (s.rt o) o)).map fun o => (st, o)

/-- Whether a request is refused (R377). -/
def refusesRun (s : State) (kind outs steps : Nat) : Bool :=
  s.ann.run.isSome || kind == 3 || steps &&& kindSteps kind != steps
    || (if kind = 2 then s.mode.dev != 1 || outputs.any (fun o => (s.outAt o).mode != 1 || inTransition s o)
        else (maskOutputs outs).any fun o => !acceptsMode s kind o || inTransition s o)
    || (kind == 0 && !dowserClosed s) || (runPairs s kind outs steps).isEmpty

/-- A write of START to ANN_CTRL (R377): a run begins, or ANNEAL_REJECT is raised. -/
def annStart (s : State) (path : PathId) (v : Nat) : State :=
  let kind := nbits v 29 28
  let outs := if kind = 2 then 0 else nbits v 27 24
  let steps := nbits v 7 0
  if refusesRun s kind outs steps then raiseP s 0x0E04 (annData 4 0 0) path
  else
    let r : AnnRun := { kind := kind, outputs := outs, steps := steps, todo := runPairs s kind outs steps, prevModes := s.mode.outs.map (·.mode) }
    let s1 := raiseP (s.modAnn fun a => { a with run := some r }) 0x0E01 (annData 0 0 0) path
    if kind = 2 then setDevice s1 5 else s1

/-- A write of ABORT to ANN_CTRL (R386). -/
def annAbort (s : State) : State := abortRun s 7

/-- ANN_CTRL with START. -/
def execAnnCtrlStart (path : PathId) (v : Word) (s : State) : Host.Outcome State Fault Refusal :=
  .next (withRole s path 3 0xE0000 fun s => annStart s path v.toNat)
/-- ANN_CTRL with ABORT. -/
def execAnnCtrlAbort (path : PathId) (s : State) : Host.Outcome State Fault Refusal := .next (withRole s path 3 0xE0000 annAbort)

/-! ### Steps (R378, R380, R381) -/

/-- What a step measures on an output, item by item (R378). -/
def stepItems (s : State) (step o : Nat) : List Nat :=
  let m := s.rt o
  let ready := (outStrings m o).filter fun nn => (s.strAt nn).st == 3 && !(s.strAt nn).failed
  match step with
  | 0 => [0]
  | 1 => if (outStrings m o).isEmpty then [] else [0]
  | 2 => ready
  | 3 => ready
  | 4 => (List.range 6).filter fun c => ready.any fun nn => strChan m nn == c
  | 7 => (List.range (converters m o)).filter fun j => convRole m o j == 1
  | _ => [0]

/-- The points of one item of a step (R378). -/
def stepPoints (step : Nat) : Nat := [1, 1, 64, 64, 1, 1, 1, 257].getD step 1

/-- A point's strings are held at their current and every other string of the output at command 0 (R378); stolen frames do this
by events of their own (R383). -/
def holdPoint (s : State) (r : AnnRun) : State :=
  match r.todo, r.items with
  | (step, o) :: _, i :: _ =>
    if r.kind ≠ 0 then s
    else
      let m := s.rt o
      let lit : List (Nat × Nat) :=
        if step = 2 ∨ step = 3 then [(i, effAmp r.point)]
        else if step = 4 then (chanStrings m o i).map fun nn => (nn, 65535)
        else if step = 7 then ((List.range 24).filter fun nn => nbit (convEntry m o i) nn).map fun nn => (nn, 65535)
        else []
      noteDark (lit.foldl (fun s e => if liveString m s.drive e.1 then
        (commandString s e.1 e.2 false).modStr e.1 fun x => { x with holdCur := some e.2 } else s) (annRelease s o)) o
  | _, _ => s

/-- The fast axis of a SCAN output that was in STANDBY starts before its step 5 (R381). -/
def startAxis (s : State) (r : AnnRun) (step o : Nat) : State :=
  if r.kind = 0 ∧ 5 ≤ step ∧ nth r.prevModes o 1 = 1 ∧ isScan (s.rt o) o ∧ (s.scanAt o).fast = 0 then
    postSeq s o (runPost s o (s.tb.tick + 4096) 1)
  else s

/-- The measurement is over: the block is built, and the results are applied (R388); a result outside its field aborts (R386). -/
def finishRun (s : State) (r : AnnRun) : State :=
  let r1 : AnnRun := { r with todo := [], items := [], st := 3, stolen := false, frame := false }
  match newBlock s r1 (nth s.mgmt.layout (2 * (1 - s.ann.slot) + 1) 0) with
  | none => abortRun s 8
  | some b =>
    let r2 : AnnRun := { r1 with block := b, ended := true, waitPour := true, waitAt := s.tb.tick }
    annealKick (endMeasure (s.modAnn fun a => { a with run := some r2 }) r2)

/-- The next step that has something to measure begins with its pre-check; after the last one the run applies its results. -/
def enterStep (s : State) (r : AnnRun) : List (Nat × Nat) → State
  | [] => finishRun (s.modAnn fun a => { a with run := some { r with todo := [] } }) r
  | (step, o) :: rest =>
    if (stepItems s step o).isEmpty then enterStep s r rest
    else
      let r1 : AnnRun := { r with
        todo := (step, o) :: rest, items := stepItems s step o, point := 0, points := stepPoints step, first := none
        post := false, high := false, st := if r.kind = 1 then 2 else 1, since := s.tb.tick }
      startAxis (s.modAnn fun a => { a with run := some r1 }) r step o

/-- The outputs have been dark for 200 µs and their strings are ready, so the first pre-check begins (R380, R381). -/
def execAnnealStepsBegin (s : State) : Host.Outcome State Fault Refusal :=
  match s.ann.run with
  | none => .next s
  | some r =>
    if r.begun || (r.kind == 0 && !(decide (r.enteredAt + 80000 ≤ s.tb.tick)
        && (maskOutputs r.outputs).all fun o => (s.outAt o).mode == 5 && stringsReady s o)) then .next s
    else .next (enterStep s { r with begun := true } r.todo)

/-! ### Points (R378, R379) -/

/-- The dark-corrected mean of the photodiodes of a channel, from means in 1/256 code (R378). -/
def pdMean (s : State) (r : AnnRun) (o c : Nat) (values : List Int) : Rat :=
  let ks := chanPds (s.rt o) s.drive o c
  if ks.isEmpty then 0 else sumRat (fun k => (nth values k 0 : Rat) / 256 - nth r.darkPre k 0) ks / ks.length

/-- OFS of a sensor in 1/256 °C (R379). -/
def sensorOffset (s : State) (i : Nat) : Int :=
  let ref : Rat := ((nth s.therm.exts ((s.rt 4).fld 0xE0008 11 8) {}).mean : Rat) / 8
  clampInt (-2048) 2048 (roundRat (256 * (ref - (nth s.therm.sensors i {}).untrimmed)))

/-- The readings of a point (R378, R379). `values`: the sense offsets of the output's strings in 1/16 code (1); the mean TRIM code
(2); the photodiodes' means in 1/256 code, and after them V_STR in 10 mV (3, 4, 7); the mean offset in fine steps (5) or the delay
in ticks (6). -/
def pointReadings (s : State) (r : AnnRun) (step o i : Nat) (values : List Int) : List Reading :=
  let m := s.rt o
  let v : Rat := nth values 0 0
  match step with
  | 0 => (List.range 64).map fun k => ⟨0, o, k, 0, sensorOffset s k⟩
  | 1 => ((outStrings m o).zip values).map fun e => ⟨1, o, e.1, 0, e.2⟩
  | 2 => [⟨2, o, i, r.point, v⟩]
  | 3 =>
    let b := (nth s.drive.boards (strBoard m i) {}).temp
    ⟨3, o, i, r.point, pdMean s r o (strChan m i) values⟩ :: (if r.point = 63 then
      [⟨3, o, i, 64, nth values 8 0⟩, ⟨3, o, i, 65, (stringWave (s.strAt i) b - 300) * 100⟩, ⟨3, o, i, 66, (b : Rat) * 100 / 8⟩] else [])
  | 4 => ((outPds m o).filter (pdSees m o i)).map (fun p => ⟨4, o, i, p, (nth values p 0 : Rat) / 256 - nth r.darkPre p 0⟩)
      ++ (outPds m o).map fun p => ⟨4, o, 16, p, nth r.darkPre p 0⟩
  | 7 => [⟨7, o, i, r.point, pdMean s r o (convChan m o i) values⟩]
  | _ => [⟨step, o, i, 0, v⟩]

/-- Whether a photodiode of the output read 65,280 codes or more (R386). -/
def readsHigh (s : State) (step o : Nat) (values : List Int) : Bool :=
  (step == 3 || step == 4 || step == 7) && (outPds (s.rt o) o).any fun k => decide (65280 * 256 ≤ nth values k 0)

/-- The run after a point: its readings, and the next point, item or post-check. -/
def afterPoint (s : State) (r : AnnRun) (step o i : Nat) (values : List Int) : AnnRun :=
  let new := pointReadings s r step o i values
  let old := r.readings.filter fun x => !(new.any fun y => y.step == x.step && y.out == x.out && y.item == x.item && y.point == x.point)
  let last := decide (r.points ≤ r.point + 1)
  let items := if last then r.items.tail else r.items
  { r with
    readings := old ++ new, high := r.high || readsHigh s step o values
    first := match r.first with | some f => some f | none => if step = 0 then none else new.head?.map (·.value)
    point := if last then 0 else r.point + 1, items := items, post := items.isEmpty
    st := if items.isEmpty ∧ r.kind ≠ 1 then 1 else r.st }

/-- Ticks of a point of a step on an output (R378): 2 s for the sensors, 2,048 fast-axis periods, 4 frames, else `pointTicks`. -/
def pointTime (s : State) (step o : Nat) : Nat :=
  match step with
  | 0 => 800000000
  | 5 => (2048 * (s.scanAt o).pHat / 256).toNat
  | 6 => 4 * pMin (s.rt o) o
  | _ => pointTicks step

/-- The points that a run has measured since the place `mark`, while no step has ended. -/
def measuredSince (r : AnnRun) : Nat := (r.mark.1.length * r.points - r.mark.2.1) - (r.items.length * r.points - r.point)

/-- Whether a point may end now: it has lasted its time, and it is one of its stolen frame's (R378, R383). -/
def pointEnds (s : State) (r : AnnRun) (step o : Nat) : Bool :=
  decide (r.since + pointTime s step o ≤ s.tb.tick)
    && (r.kind != 1 || (r.frame && decide (measuredSince r < (stolenPoints (s.rt o) o { r with items := r.mark.1, point := r.mark.2.1 }).length)))

/-- Ticks of a check (R378, R383). -/
def checkTime (r : AnnRun) : Nat := if r.kind = 1 then 80000 else 2000000

/-- A measurement point's duration ends (R378). In a steal run only a stolen frame that has passed its pre-check measures. -/
def execAnnealPointDone (values : List Int) (s : State) : Host.Outcome State Fault Refusal :=
  match s.ann.run with
  | none => .next s
  | some r =>
    match r.todo, r.items with
    | (step, o) :: _, i :: _ =>
      if !r.begun || r.st != 2 || r.post || !pointEnds s r step o then .next s
      else
        let r1 : AnnRun := { afterPoint s r step o i values with since := s.tb.tick }
        let s1 := s.modAnn fun a => { a with run := some r1 }
        .next (if r1.kind ≠ 0 then s1 else if r1.post then annRelease s1 o else holdPoint s1 r1)
    | _, _ => .next s

/-! ### Checks (R385, R386) -/

/-- Whether a temperature has moved too fast over the last 10 s, at a limit of `n` times SLOPE (R386). -/
def tooSteep (s : State) (k n : Nat) : Bool :=
  let l := nth s.ann.temps k []
  match l, l.getLast? with
  | a :: _, some b => decide (n * (s.rt 4).fld 0xE0004 31 24 < 15 * (a.2 - b.2).natAbs)
  | _, _ => false

/-- The strings that the step in progress has measured or is measuring. -/
def stepStrings (r : AnnRun) : List Nat :=
  match r.todo with
  | (step, o) :: _ => if step = 2 ∨ step = 3 then (r.measured step o ++ r.items).eraseDups else []
  | [] => []

/-- Whether the readings of EFFICIENCY for a string break a limit of R386 or the rule of R103. -/
def badEfficiency (r : AnnRun) (o nn : Nat) : Bool :=
  decide (r.read 3 o nn 63 < 4096)
    || (List.range 62).any fun i => decide ((effAmp (i + 2) : Int) * effResult r o nn (i + 2) ≤ effAmp (i + 1) * effResult r o nn (i + 1))

/-- The first condition that aborts at a check, with its item (R386): `darks` the dark levels, `again` the step's first point
measured again, in 1/256 of its unit. -/
def checkCause (s : State) (r : AnnRun) (darks : List Nat) (again : Int) (after : Bool) : Option (Nat × Nat) :=
  let m := s.rt 4
  let (step, o) := r.todo.headD (0, 0)
  let mine := (List.range 8).filter fun k => m.bit (aPdMap k) 31 && (r.kind == 2 || nbit r.outputs (m.fld (aPdMap k) 25 24))
  let max_ := m.fld 0xE0004 15 0
  let drift : Rat := m.fld 0xE0004 23 16
  let us := s.therm.sensors.map (·.untrimmed)
  let find := fun (p : Nat → Bool) (l : List Nat) => l.find? p
  match find (fun k => decide (max_ < nth darks k 0)) mine with
  | some k => some (1, k)
  | none => match find (fun k => after && decide (max_ < 4 * ((nth darks k 0 : Int) - nth r.darkPre k 0).natAbs)) mine with
  | some k => some (2, k)
  | none =>
    let i := r.items.headD o
    if (match r.first with
        | some f => after && r.post && decide (drift * |f| < 1000 * |(again : Rat) / 256 - f|)
        | none => false) then some (3, i)
    else if r.kind = 0 ∧ !dowserClosed s then some (4, i)
    else if (List.range 6).any (fun b => tooSteep s b 1) || tooSteep s 6 4 then some (5, i)
    else if step = 0 ∧ (s.therm.sensors.any (fun x => x.st == 1 || x.st == 2)
        || (match minMax us with | some (lo, hi) => decide (6 < hi - lo) | none => false)) then some (6, i)
    else if after && r.high then some (8, i)
    else match find (fun nn => after && r.post && step == 3 && badEfficiency r o nn) (r.measured 3 o) with
      | some nn => some (8, nn)
      | none => (find (fun nn => (s.strAt nn).failed || (s.strAt nn).st != 3) (stepStrings r)).map fun nn => (9, nn)

/-- The run aborts with a cause and the item concerned (R386). -/
def abortAt (s : State) (cause item : Nat) : State :=
  abortRun (s.modAnn fun a => { a with run := a.run.map fun r => { r with items := [item] } }) cause

/-- A passed pre-check: the dark levels of the step or stolen frame, and its first point. -/
def passPre (s : State) (r : AnnRun) (darks : List Nat) : State :=
  let r1 : AnnRun := if r.kind = 1 then
      { r with darkPre := darks, frame := true, mark := (r.items, r.point, r.readings.length, r.first), since := s.tb.tick }
    else { r with darkPre := darks, st := 2, since := s.tb.tick }
  holdPoint (s.modAnn fun a => { a with run := some r1 }) r1

/-- A passed post-check: the stolen frame is done, and a finished step gives way to the next. -/
def passPost (s : State) (r : AnnRun) : State :=
  let r1 : AnnRun := if r.kind = 1 then { r with frame := false, stolen := false, discards := 0 } else r
  if r.post then enterStep s r1 r.todo.tail else s.modAnn fun a => { a with run := some r1 }

/-- A check of a step or of a stolen frame ends (R383, R386). -/
def execAnnealCheckDone (darks : List Nat) (again : Int) (s : State) : Host.Outcome State Fault Refusal :=
  match s.ann.run with
  | none => .next s
  | some r =>
    let checking : Bool := if r.kind = 1 then r.stolen && r.st == 2 else r.st == 1
    if !r.begun || !checking || r.ended || decide (s.tb.tick < r.since + checkTime r) then .next s
    else
      let after := if r.kind = 1 then r.frame else r.post
      match checkCause s r darks again after with
      | some (c, i) => .next (abortAt s c i)
      | none => .next (if after then passPost s r else passPre s r darks)

/-- DOWSER_IN changes (R386). -/
def execDowserChange (level : Bool) (s : State) : Host.Outcome State Fault Refusal :=
  if s.ann.dowser = level then .next s else .next (abortRun (s.modAnn fun a => { a with dowser := level }) 4)

/-! ### Applying results (R388 to R390) -/

/-- A run ends refused (R388): a Pour of its own is cancelled. -/
def refuseRun (s : State) : State :=
  match s.ann.run with
  | none => s
  | some r =>
    let own : Bool := match s.ladle.pending with | some p => p.kind == PourKind.anneal | none => false
    if own then cancelPour s .internal else raise (endRun s r 4 0) 0x0E04 (annData 4 0 0)

/-- A pending Pour has not resolved within 10 s (R388). -/
def execAnnealPourWaitTimeout (s : State) : Host.Outcome State Fault Refusal :=
  match s.ann.run with
  | some r => if r.waitPour ∧ r.waitAt + 4000000000 ≤ s.tb.tick then .next (refuseRun s) else .next s
  | none => .next s

/-- The new block is committed in flash, in the slot that does not hold the block in force (R388, R390): the checks of the
run's Pour are complete. While the window is closed the write waits or pauses (R368). -/
def execCalBlockWriteDone (s : State) : Host.Outcome State Fault Refusal :=
  match s.ann.run with
  | none => .next s
  | some r =>
    if !r.checked || s.ladle.armed then .next s
    else if !s.therm.flashOpen then .next s
    else
      let b := sealBlock r.block (localNs s)
      let base := nth s.mgmt.layout (2 * (1 - s.ann.slot)) 0
      let room := nth s.mgmt.layout (2 * (1 - s.ann.slot) + 1) 0
      let s1 := programFlash (eraseFlash s base room) base b
      .next (armPour (s1.modAnn fun a => { a with run := some { r with block := b, writeWait := false } }))

/-- A write of an ingot or a calibration block has waited 10 s for the window and is refused (R368, R388). -/
def flashWaitOver (s : State) : State :=
  let s1 := if s.therm.flashOpen then s else refuseIngotWait s
  match s1.ann.run with
  | some r => if r.writeWait ∧ !s.therm.flashOpen ∧ r.waitAt + 4000000000 ≤ s.tb.tick then refuseRun s1 else s1
  | none => s1

end Sys2Proof.Machine
end

