-- ==== Sys2Proof/Machine/Crucible.lean ====
section
/-! DEFINITION. The Crucible: key delivery, the binding of host surfaces, the random generator, the monitors, and the opening and
closing of management sessions (R419 to R444). -/
namespace Sys2Proof.Machine

/-! ### Key delivery (R429, R430) -/

/-- A key delivery message as read from its mailbox (R429). -/
structure Kdm where
  bytes : List Byte
  slot : KeySlot
  deriving DecidableEq, Repr

/-- A big-endian field of a message. -/
def beAt (l : List Byte) (a n : Nat) : Nat := beNat ((l.drop a).take n)

/-- The message in the mailbox. -/
def readKdm (m : WordMap) : Kdm :=
  let l := m.bytes 0x11002000 296
  { bytes := l
    slot := { keyId := beAt l 20 2, target := beAt l 22 2, flags := beAt l 3 1, issuer := beAt l 48 1
              notBefore := beAt l 32 8, notAfter := beAt l 40 8, nonce := beAt l 24 8, key := [] } }

/-- Whether FORMAT, VERSION, the reserved fields and the ranges are as R429 states. -/
def Kdm.formOk (k : Kdm) : Bool :=
  beAt k.bytes 0 2 == 0x1001 && beAt k.bytes 2 1 == 1 && decide (k.slot.flags < 2) && beAt k.bytes 49 7 == 0 && beAt k.bytes 153 7 == 0
    && decide (1 ≤ k.slot.keyId ∧ k.slot.keyId ≤ 0xFFFD)
    && (decide (k.slot.target < 8) || (decide (0x8000 ≤ k.slot.target) && decide (k.slot.target < 0x9000)) || k.slot.target == 0xFFFE)

/-- The key-encryption key of a message (R430). -/
def kdmKek (s : State) (k : Kdm) : List Byte :=
  let label : List Byte := [0x44, 0x56, 0x39, 0x38, 0x34, 0x30, 0x20, 0x4B, 0x44, 0x4D]
  (Config.hkdf384 (beBytes 16 s.fuse.devId) (Config.ecdhDevice ((k.bytes.drop 56).take 97)) (label ++ beBytes 2 k.slot.keyId) 32).take 32

/-- Whether a key's window has passed (R430, R431). -/
def expired (s : State) (k : KeySlot) : Bool :=
  k.notAfter != 0xFFFFFFFFFFFFFFFF && (match secureNow s with | some t => decide (k.notAfter < t) | none => false)

/-- The key store without its expired keys (R430). -/
def purgeKeys (s : State) : State :=
  s.modCruc fun c => { c with keys := c.keys.map fun e => match e with | some k => if expired s k then none else some k | none => none }

/-- The place a key takes: that of a held key with its KEY_ID and TARGET, otherwise the first free one. -/
def keyPlace (keys : List (Option KeySlot)) (k : KeySlot) : Option Nat :=
  match keys.findIdx? fun e => match e with | some x => x.keyId == k.keyId && x.target == k.target | none => false with
  | some i => some i
  | none => keys.findIdx? Option.isNone

/-- A key enters the store, expired keys giving way where it is full; none when it stays full (R430). -/
def storeKey (s : State) (k : KeySlot) : Option State :=
  let s1 := if (keyPlace s.cruc.keys k).isSome then s else purgeKeys s
  (keyPlace s1.cruc.keys k).map fun i => s1.modCruc fun c => { c with keys := listSet c.keys i (some k) }

/-- The result of a submission with the state after it (R430, R443). -/
def judgeKdm (s : State) (k : Kdm) : Nat × State :=
  if s.cruc.st ≠ 0 then (7, s)
  else if !k.formOk then (1, s)
  else if beAt k.bytes 4 16 ≠ s.fuse.devId then (2, s)
  else match nth s.mgmt.issuers k.slot.issuer none with
    | none => (3, s)
    | some pub =>
      if !Config.ecdsaVerify pub (k.bytes.drop 200) (k.bytes.take 200) then (4, s)
      else match Config.aesUnwrap (kdmKek s k) ((k.bytes.drop 160).take 40) with
        | none => (5, s)
        | some key => match storeKey s { k.slot with key := key } with
          | none => (6, s)
          | some t => (0, t)

/-- KDM_RESULT after a command. -/
def kdmDone (s : State) (result keyId : Nat) : State := s.modCruc fun c => { c with kdmBusy := false, kdmResult := result, kdmKey := keyId }

/-- KDM_CMD OP 1 (R430): the message is judged and its key stored, with its event and its journal record. -/
def kdmSubmit (s : State) (path : PathId) : State :=
  let k := readKdm s.act
  let (r, s1) := judgeKdm s k
  let data := leBytes 2 k.slot.keyId ++ leBytes 2 k.slot.target ++ leBytes 1 k.slot.issuer ++ leBytes 1 r ++ leBytes 2 0
    ++ leBytes 8 k.slot.notBefore ++ leBytes 8 k.slot.notAfter
  journalKind (raiseP (kdmDone s1 r k.slot.keyId) (if r = 0 then 0x1003 else 0x1004) (k.slot.keyId + r * 2 ^ 16) path) 3 path data 0

/-- KDM_CMD OP 2: every key with a KEY_ID is discarded. -/
def kdmDiscard (s : State) (keyId : Nat) : State :=
  if s.cruc.st ≠ 0 then kdmDone s 7 keyId
  else
    let s1 := s.modCruc fun c => { c with keys := c.keys.map fun e => match e with | some k => if k.keyId = keyId then none else some k | none => none }
    kdmDone s1 0 keyId

/-- KDM_CMD OP 3: expired keys are purged. -/
def kdmPurge (s : State) : State := if s.cruc.st ≠ 0 then kdmDone s 7 s.cruc.kdmKey else kdmDone (purgeKeys s) 0 s.cruc.kdmKey

def execKdmSubmit (path : PathId) (s : State) : Host.Outcome State Fault Refusal :=
  .next (withRole s path 8 0x100030 fun s => kdmSubmit s path)
def execKdmDiscard (path : PathId) (keyId : Nat) (s : State) : Host.Outcome State Fault Refusal :=
  .next (withRole s path 8 0x100030 fun s => kdmDiscard s (keyId % 2 ^ 16))
def execKdmPurge (path : PathId) (s : State) : Host.Outcome State Fault Refusal :=
  .next (withRole s path 8 0x100030 kdmPurge)

/-- A write to SEAL_HOST (R431): the key named is bound to the surface when it is a PROT surface; 0 unbinds. -/
def sealHost (s : State) (v : Word) : State :=
  let w := cleared [] 0x100040 v
  let s1 := s.modLadle fun l => { l with act := l.act.set 0x100040 w, stg := l.stg.set 0x100040 w }
  let i := nbits v.toNat 11 0
  if (s1.surfAt i).prot then s1.modSurfAt i fun x => { x with key := nbits v.toNat 31 16 } else s1

def execSealHostBind (path : PathId) (v : Word) (s : State) : Host.Outcome State Fault Refusal :=
  .next (withRole s path 2 0x100040 fun s => sealHost s v)

/-! ### The random generator (R420) -/

/-- The generator takes fresh entropy. -/
def reseed (s : State) : State := s.modCruc fun c => { c with drbgRequests := 0, drbgSeed := c.drbgSeed + 1 }

/-- A reseed after 2^20 requests, or a failed health test, which stops the generator (R420). -/
def execDrbgReseed (healthy : Bool) (s : State) : Host.Outcome State Fault Refusal :=
  if s.cruc.rngFail then .next s
  else if healthy then .next (if 2 ^ 20 ≤ s.cruc.drbgRequests then reseed s else s)
  else .next (raise (s.modCruc fun c => { c with rngFail := true }) 0x1009 0)

/-- `n` random bytes; nothing constrains them. -/
def randomBytes (s : State) (n : Nat) : List Byte × State :=
  let (v, s1) := s.draw 3
  (beBytes n v, s1.modCruc fun c => { c with drbgRequests := c.drbgRequests + 1 })

/-! ### Monitors (R441, R442) -/

/-- Zeroisation (R442): keys and sessions go, the generator reseeds, frames in progress on sealed inputs are discarded. -/
def zeroise (s : State) : State :=
  let s1 := (List.range 8).foldl (fun s i => match (s.inAt i).run with
    | some r => if r.key.isSome then discardRun s i else s
    | none => s) s
  let s2 := [0, 1, 2, 3].foldl (fun s k => closeSession s k 4) s1
  reseed (s2.modCruc fun c => { c with keys := List.replicate 64 none, shake := none, kdmBusy := false })

/-- The response to a monitor (R441): 0 zeroise, 1 zeroise and close, 2 close, 3 suspend. -/
def monitorResponse (m : Nat) : Nat := [0, 1, 2, 3, 3].getD m 0

/-- The Crucible closes until Dawn. -/
def closeCrucible (s : State) : State := s.modCruc fun c => { c with closed := true, st := 2 }

/-- A monitor trips (R441, R442), with its event and its record. -/
def execCrucMonitorTrip (m : Nat) (s : State) : Host.Outcome State Fault Refusal :=
  let r := monitorResponse m
  let s1 := if r ≤ 1 then zeroise s else s
  let s2 := if r = 1 ∨ r = 2 then closeCrucible s1
            else if r = 3 then s1.modCruc fun c => { c with st := if c.st = 2 then 2 else 1, rangeSince := some s.tb.tick } else s1
  let s3 := s2.modCruc fun c => { c with tamperCount := satAdd 0xFFFF c.tamperCount 1, tamperLast := 2 ^ m }
  .next (journalKind (raise s3 0x1008 (m * 2 ^ 16)) 0x0B .internal (leBytes 1 m ++ leBytes 1 r) 1)

/-- Every range condition has held for 1 ms (R442). -/
def execCrucResume (s : State) : Host.Outcome State Fault Refusal :=
  let held := match s.cruc.rangeSince with | some t => decide (t + 400000 ≤ s.tb.tick) | none => true
  if s.cruc.st = 1 ∧ held = true then .next (s.modCruc fun c => { c with st := 0, rangeSince := none }) else .next s

/-! ### Session messages (R439, R440, R463) -/

/-- A message of R463: type, session, sequence number and body. -/
def sessionMessage (type session seq : Nat) (body : List Byte) : List Byte :=
  ([1, BitVec.ofNat 8 type, BitVec.ofNat 8 session, 0] : List Byte) ++ beBytes 8 seq ++ beBytes 2 body.length ++ [0, 0] ++ body

/-- What R440's code covers: SESSION, the sequence number and the body. -/
def macInput (session seq : Nat) (body : List Byte) : List Byte := beBytes 1 session ++ beBytes 8 seq ++ body

/-- A response is ready in a mailbox (R461, R466): DONE, IRQ or MSI-X vector 16. -/
def mailboxDone (s : State) (path : PathId) (l : List Byte) : State :=
  let put := fun (b : Mailbox) => { b with resp := Memory.store ramDefault (Sparse.clear b.resp 0 0x800) 0 (l.take 0x800), busy := false, done := true, len := min 0x7FF l.length }
  match path with
  | .spi => s.modMgmt fun m => { m with spi := put m.spi, irq := true, msgReady := true }
  | .bar0 => msix (s.modMgmt fun m => { m with bar0 := put m.bar0 }) 16
  | _ => s

/-- A message goes back to the host: by its mailbox, or as a datagram to the peer. -/
def sendMessage (s : State) (carrier : PathId) (l : List Byte) : State := mailboxDone (answer s 0 [] l) carrier l

/-- A handshake or a message of a session fails (R439, R440): SESSION_FAIL and a KIND 4 record. The causes are the model's own
(notes/assumptions/30.md): 1 refused, 2 malformed, 3 signature, 4 timeout, 5 message code. -/
def sessionFail (s : State) (path : PathId) (op peer port cause : Nat) : State :=
  journalKind (raiseP s 0x1007 (op + cause * 2 ^ 16) path) 4 path
    (leBytes 1 op ++ leBytes 1 2 ++ leBytes 1 cause ++ leBytes 1 0 ++ leBytes 4 peer ++ leBytes 2 port) 0

/-- One minute, in ticks. -/
def minute : Nat := 24000000000

/-- A handshake fails: the eighth within 60 s shuts HELLO out for 60 s (R440). -/
def shakeFail (s : State) (path : PathId) (op peer port cause : Nat) : State :=
  let now := s.tb.tick
  let l := now :: s.cruc.shakeFails.filter fun t => now < t + minute
  let s1 := s.modCruc fun c => { c with shake := none, shakeFails := l.take 8, helloFrom := if 8 ≤ l.length then now + minute else c.helloFrom }
  sessionFail s1 path op peer port cause

/-- The public key of an operator slot. -/
def operatorKey (s : State) (op : Nat) : Option (List Byte) := (nth s.mgmt.operators op none).map (·.key)

/-- Whether sessions are served: the core runs, the device is not in DUSK, and the path is one that carries them. -/
def carries (s : State) (path : PathId) : Bool := s.mode.core && s.mode.dev != 7 && path != .internal && path != .ingot

/-- HELLO (R439): the device answers with CHALLENGE. One handshake is open at a time; a new HELLO ends an older one
(notes/assumptions/30.md). -/
def hello (s : State) (path : PathId) (peer port : Nat) (l : List Byte) : State :=
  let op := beAt l 129 1
  if s.cruc.st ≠ 0 ∨ s.cruc.rngFail ∨ s.tb.tick < s.cruc.helloFrom ∨ s.cruc.sessions.all Option.isSome then sessionFail s path op peer port 1
  else if l.length ≠ 130 ∨ l.getD 0 0 ≠ 4 ∨ operatorKey s op = none then shakeFail s path op peer port 2
  else
    let s0 := match s.cruc.shake with | some h => shakeFail s h.carrier h.op h.peer h.port 4 | none => s
    let (seed, s1) := s0.draw 4
    let (nd, s2) := randomBytes s1 32
    let qd := Config.ecPublic seed
    let head := qd ++ nd
    let challenge := head ++ Config.ecdsaSign (l ++ head)
    let keys := Config.hkdf384 ((l.drop 97).take 32 ++ nd) (Config.ecdh seed (l.take 97))
      [0x44, 0x56, 0x39, 0x38, 0x34, 0x30, 0x20, 0x73, 0x65, 0x73, 0x73, 0x69, 0x6F, 0x6E] 64
    let h : Handshake := { op := op, hello := l, challenge := challenge, kHD := keys.take 32, kDH := keys.drop 32, at_ := s.tb.tick,
                           carrier := path, peer := peer, port := port }
    sendMessage (s2.modCruc fun c => { c with shake := some h, drbgRequests := c.drbgRequests + 1 }) path (sessionMessage 0x02 0xFF 0 challenge)

def execSessionHello (path : PathId) (peer port : Nat) (bytes : List Byte) (s : State) : Host.Outcome State Fault Refusal :=
  if carries s path then .next (hello s path peer port bytes) else .next s

/-- The session a handshake opens, its ACCEPT and its record (R439, R497). -/
def openSession (s : State) (h : Handshake) (k : Nat) : State :=
  let x : Session := { op := h.op, kHD := h.kHD, kDH := h.kDH, rx := 0, tx := 1, opened := s.tb.tick, last := s.tb.tick,
                       carrier := h.carrier, peer := h.peer, port := h.port, lastReq := 0, lastResp := [] }
  let s1 := (s.modCruc fun c => { c with sessions := listSet c.sessions k (some x), shake := none }).modMgmt fun m =>
    { m with evtRead := listSet m.evtRead (2 + k) s.log.head }
  let body := beBytes 1 k
  let s2 := sendMessage s1 h.carrier (sessionMessage 0x04 k 1 body ++ Config.hmac256 h.kDH (macInput k 1 body))
  journalKind (raiseP s2 0x1006 k h.carrier) 4 h.carrier
    (leBytes 1 h.op ++ leBytes 3 0 ++ leBytes 4 h.peer ++ leBytes 2 h.port) 0

/-- FINISH (R439): a valid operator signature within 1 s of the CHALLENGE opens the session. -/
def finish (s : State) (path : PathId) (l : List Byte) : State :=
  match s.cruc.shake with
  | none => s
  | some h =>
    if h.carrier ≠ path then s
    else if h.at_ + 400000000 < s.tb.tick then shakeFail s path h.op h.peer h.port 4
    else match s.cruc.sessions.findIdx? Option.isNone, operatorKey s h.op with
      | some k, some pub =>
        if s.cruc.st = 0 ∧ l.length = 96 ∧ Config.ecdsaVerify pub l (h.hello ++ h.challenge) then openSession s h k
        else shakeFail s path h.op h.peer h.port 3
      | _, _ => shakeFail s path h.op h.peer h.port 1

def execSessionFinish (path : PathId) (bytes : List Byte) (s : State) : Host.Outcome State Fault Refusal :=
  if carries s path then .next (finish s path bytes) else .next s

/-- FINISH has not followed CHALLENGE within 1 s (R439). -/
def execSessionStepTimeout (s : State) : Host.Outcome State Fault Refusal :=
  match s.cruc.shake with
  | some h => if h.at_ + 400000000 ≤ s.tb.tick then .next (shakeFail s h.carrier h.op h.peer h.port 4) else .next s
  | none => .next s

/-- A message of an open session that passes its code and sequence number (R440): the session after it, none when dropped. -/
def acceptMessage (s : State) (k seq : Nat) (body mac : List Byte) : Option Session :=
  match nth s.cruc.sessions k none with
  | none => none
  | some x =>
    if carries s x.carrier ∧ s.cruc.st = 0 ∧ mac = Config.hmac256 x.kHD (macInput k seq body) ∧ x.rx < seq ∧ seq < 2 ^ 64 then
      some { x with rx := seq, last := s.tb.tick }
    else none

/-- A dropped message: one whose code fails counts as a failure (R440, R444). -/
def dropMessage (s : State) (k seq : Nat) (body mac : List Byte) : State :=
  match nth s.cruc.sessions k none with
  | some x => if carries s x.carrier ∧ s.cruc.st = 0 ∧ mac ≠ Config.hmac256 x.kHD (macInput k seq body) then
      sessionFail s x.carrier x.op x.peer x.port 5 else s
  | none => s

/-- A session's own message to the host, with its next sequence number and code (R440, R463): the bytes and the session after. -/
def sessionSend (s : State) (k : Nat) (x : Session) (type : Nat) (body : List Byte) : List Byte × Session × State :=
  let n := x.tx + 1
  let l := sessionMessage type k n body ++ Config.hmac256 x.kDH (macInput k n body)
  (l, { x with tx := n }, sendMessage s x.carrier l)

/-- The session after a message. -/
def putSession (s : State) (k : Nat) (x : Session) : State := s.modCruc fun c => { c with sessions := listSet c.sessions k (some x) }

/-- RESEND (R464): the stored response of the last request, or an empty RESPONSE. -/
def resend (s : State) (k seq : Nat) (body mac : List Byte) : State :=
  match acceptMessage s k seq body mac with
  | none => dropMessage s k seq body mac
  | some x =>
    if x.lastResp ≠ [] ∧ beNat (body.take 8) = x.lastReq then sendMessage (putSession s k x) x.carrier x.lastResp
    else
      let (_, y, s1) := sessionSend s k x 0x11 (beBytes 8 seq)
      putSession s1 k y

/-- CLOSE (R440). -/
def closeMessage (s : State) (k seq : Nat) (body mac : List Byte) : State :=
  match acceptMessage s k seq body mac with
  | none => dropMessage s k seq body mac
  | some _ => closeSession s k 0

def execSessionResend (k seq : Nat) (body mac : List Byte) (s : State) : Host.Outcome State Fault Refusal := .next (resend s k seq body mac)
def execSessionClose (k seq : Nat) (mac : List Byte) (s : State) : Host.Outcome State Fault Refusal := .next (closeMessage s k seq [] mac)

/-- Why a session is over (R440): 3 at its message limit, 2 after 24 h, 1 after 60 s without a valid message. -/
def sessionOver (s : State) (x : Session) : Option Nat :=
  if 2 ^ 32 ≤ x.rx ∨ 2 ^ 32 ≤ x.tx then some 3
  else if x.opened + 1440 * minute ≤ s.tb.tick then some 2
  else if x.last + minute ≤ s.tb.tick then some 1
  else none

/-- A session has been silent for 60 s, open for 24 h, or has reached its message limit (R440). -/
def execSessionTimeout (k : Nat) (s : State) : Host.Outcome State Fault Refusal :=
  match nth s.cruc.sessions k none with
  | none => .next s
  | some x => match sessionOver s x with
    | some c => .next (closeSession s k c)
    | none => .next s

end Sys2Proof.Machine
end

