-- ==== Sys2Proof/Machine/Registers.lean ====
section
/-! DEFINITION. What the registers and tables read as: the fields of every RO and W1C register out of the state, the RO tables, the
staged view, and reads that latch (R9, R10, R245, R254, R266, R333, R443, R495 to R500). -/
namespace Sys2Proof.Machine

/-- A field: its lowest bit, its width and a value. -/
def fieldAt (lo w x : Nat) : Nat := x % 2 ^ w * 2 ^ lo
/-- A one-bit field. -/
def flagAt (lo : Nat) (b : Bool) : Nat := if b then 2 ^ lo else 0
/-- A word of per-item bits. -/
def bitsOf (n : Nat) (p : Nat → Bool) : Nat := ((List.range n).map fun i => flagAt i (p i)).sum

/-! ### SYS and LADLE (R252, R461, R465 to R468, R497) -/

/-- The mailbox of a path; Ethernet sessions have none (R461). -/
def mailboxOf (s : State) : PathId → Mailbox
  | .spi => s.mgmt.spi
  | .bar0 => s.mgmt.bar0
  | _ => {}

/-- HEAD − READ for a path (R497). -/
def eventsAhead (s : State) (path : PathId) : Nat := s.log.head - nth s.mgmt.evtRead (pathIdx path) 0

/-- SYS_MODE (R497). -/
def sysMode (s : State) : Nat :=
  fieldAt 24 3 s.mode.fail + (outputs.map fun o => flagAt (4 * o + 11) (s.outAt o).trans + fieldAt (4 * o + 8) 3 (s.outAt o).mode).sum
    + fieldAt 0 3 s.mode.dev

/-- RO registers of SYS. -/
def sysReg (s : State) (path : PathId) (ofs : Nat) : Nat :=
  match ofs with
  | 0x000 => 0x98400000 + fieldAt 8 8 s.fuse.major + fieldAt 0 8 s.fuse.minor
  | 0x004 => fieldAt 16 16 s.fuse.rom + fieldAt 8 8 s.fuse.hbmGb + fieldAt 0 3 s.fuse.code
  | 0x010 => sysMode s
  | 0x018 => fieldAt 16 16 s.aod.dawns + flagAt 8 s.aod.valid + fieldAt 0 3 s.aod.cause
  | 0x100 => s.log.head
  | 0x108 => fieldAt 16 16 (min 0xFFFF (eventsAhead s path - 1024)) + fieldAt 0 11 (min 1024 (eventsAhead s path))
  | 0x804 => flagAt 31 (mailboxOf s path).busy + flagAt 30 (mailboxOf s path).done + fieldAt 0 11 (mailboxOf s path).len
  | 0x808 => fieldAt 16 5 (pathMask s path) + fieldAt 0 10 (pathRoles s path)
  | 0x810 => fieldAt 31 1 s.mgmt.inForce + flagAt 30 s.mgmt.update.isSome + fieldAt 24 4 s.mgmt.causeB + fieldAt 20 4 s.mgmt.causeA
  | 0x814 => s.mgmt.seq
  | _ => 0

/-- LADLE_STATUS (R252). -/
def ladleStatus (s : State) : Nat :=
  fieldAt 20 12 s.ladle.seq + fieldAt 12 8 s.ladle.refused + fieldAt 7 5 (match s.ladle.pending with | some p => p.mask | none => 0)
    + flagAt 6 s.ladle.busy + fieldAt 0 3 s.ladle.st

/-- RO registers of LADLE. -/
def ladleReg (s : State) (ofs : Nat) : Nat :=
  match ofs with
  | 0x0C => ladleStatus s
  | 0x10 => fieldAt 16 8 s.ladle.chkBlock + fieldAt 8 3 s.ladle.chkOwner + fieldAt 0 8 s.ladle.chkNo
  | _ => 0

/-! ### TIMEBASE and INPUT (R25, R70, R238, R244, R254, R291) -/

/-- STATE of TG_STATUS_n (R236 to R238): free-running without a source, acquiring while not locked. -/
def tgState (s : State) (o : Nat) : Nat :=
  let t := s.tgAt o
  if !t.running then 0 else if genSrc (s.rt o) o = 0 then 1 else if t.stretching then 4 else if t.locked then 3 else 2

/-- RO registers of a timing generator. -/
def tgReg (s : State) (o ofs : Nat) : Nat :=
  let t := s.tgAt o
  match ofs with
  | 0x10 => tgState s o
  | 0x14 => wrapInt 32 t.err
  | 0x18 => t.counter
  | 0x1C => t.cntHi.toNat
  | 0x20 => t.flips
  | 0x24 => fieldAt 16 16 t.repeats + fieldAt 8 8 t.lastCause + fieldAt 0 8 t.lastKind
  | _ => 0

/-- RO registers of TIMEBASE. -/
def timebaseReg (s : State) (ofs : Nat) : Nat :=
  if 0x100 ≤ ofs ∧ ofs < 0x200 then tgReg s ((ofs - 0x100) / 0x40) (ofs % 0x40)
  else if 0x410 ≤ ofs ∧ ofs < 0x440 then
    let q := s.seqAt ((ofs - 0x410) / 4 % 4)
    if ofs < 0x420 then q.slackFrameMin else if ofs < 0x430 then q.slackRunMin else q.lateCount
  else match ofs with
    | 0x04 => fieldAt 8 24 (wrapInt 24 (corrAt (s.rt 4) s.tb s.tb.tick).floor) + fieldAt 0 2 s.tb.phase
    | 0x08 => wrapInt 32 s.tb.phaseErr
    | 0x10 => s.tb.tick
    | 0x14 => s.tb.tickHi.toNat
    | 0x208 => fieldAt 24 8 s.rlv.crcErrs + fieldAt 20 4 s.rlv.hops + fieldAt 16 3 s.rlv.state + fieldAt 0 11 s.rlv.origin
    | _ => 0

/-- IN_RATE_i (R291): the mean interval of the last 16 frames, in 1/16 tick, 0 until 16 have passed. -/
def inRate (x : InputState) : Nat :=
  match x.refTimes.head?, x.refTimes[16]? with
  | some a, some b => roundDiv (a - b) 25
  | _, _ => 0

/-- RO registers of INPUT. -/
def inputReg (s : State) (ofs : Nat) : Nat :=
  if 0x100 ≤ ofs then
    let x := s.inAt ((ofs - 0x100) / 0x40)
    match ofs % 0x40 with
    | 0x08 => fieldAt 29 3 x.st + fieldAt 16 8 x.signal + fieldAt 12 4 x.transfer + fieldAt 8 4 x.depth + fieldAt 4 4 x.links + fieldAt 0 4 x.rate
    | 0x0C => fieldAt 16 16 x.size.2 + fieldAt 0 16 x.size.1
    | 0x10 => inRate x
    | 0x18 => fieldAt 16 16 x.discarded + fieldAt 0 16 x.losses
    | _ => 0
  else match ofs with
    | 0x14 => fieldAt 0 3 s.ptp.st
    | 0x18 => wrapInt 32 s.ptp.offset
    | 0x1C => s.ptp.offHi.toNat
    | 0x20 => fieldAt 4 4 s.pcie.speed + fieldAt 0 3 s.pcie.width
    | _ => 0

/-! ### SURFACE, RUNNER and HBM (R316, R347, R348) -/

/-- RO registers of SURFACE. -/
def surfaceReg (s : State) (ofs : Nat) : Nat :=
  let m := s.surf
  match ofs with
  | 0x10 => flagAt 31 m.busy + fieldAt 24 4 m.result + fieldAt 0 12 m.cmdSurf
  | 0x14 => fieldAt 16 16 (poolBytes m.tablePool / 2 ^ 16) + fieldAt 0 16 (poolBytes m.pool / 2 ^ 21)
  | 0x20 => flagAt 31 m.fltValid + fieldAt 28 3 m.fltKind + flagAt 27 m.fltWrite + fieldAt 20 4 m.fltRunner + fieldAt 16 4 m.fltEngine
      + fieldAt 0 12 m.fltSurf
  | 0x24 => m.fltOfs
  | 0x28 => fieldAt 0 16 (m.fltOfs / 2 ^ 32)
  | 0x30 => fieldAt 28 4 m.walks.length + fieldAt 0 12 m.tlb.length
  | _ => 0

/-- RO registers of RUNNER. -/
def runnerReg (s : State) (ofs : Nat) : Nat :=
  match ofs with
  | 0x00 => fieldAt 16 16 s.run.orphans + fieldAt 0 16 s.run.rollbacks
  | 0x04 => fieldAt 8 4 s.run.checkRunner + fieldAt 0 4 s.run.check
  | 0x08 => runBound s.act
  | _ =>
    let r := (ofs - 0x104) / 0x10
    fieldAt 16 16 (nth s.run.waitMax r 0) + fieldAt 8 8 (nth s.run.ceilGrants r 0) + fieldAt 0 8 (nth s.run.refused r 0)

/-- RO registers of HBM. -/
def hbmReg (s : State) (ofs : Nat) : Nat :=
  let h := s.hbm
  if 0x140 ≤ ofs then fieldAt 16 16 (nth h.uncorrected ((ofs - 0x140) / 4) 0) + fieldAt 0 16 (nth h.corrected ((ofs - 0x140) / 4) 0)
  else if 0x100 ≤ ofs then
    let ch := (ofs - 0x100) / 4
    flagAt 31 (nth h.flushing ch false) + fieldAt 0 24 (wrapInt 24 (debtNow h s.tb.tick ch / 2))
  else match ofs with
    | 0x20 => flagAt 31 h.training + flagAt 24 h.hot + fieldAt 16 4 h.valid + fieldAt 8 3 h.st + fieldAt 0 2 h.fspNow
    | 0x24 => wrapInt 16 h.temp
    | 0x30 => flagAt 31 h.errValid + fieldAt 28 3 h.errKind + fieldAt 24 4 h.errCh + fieldAt 23 1 h.errPc + fieldAt 21 2 h.errSid
        + fieldAt 19 2 h.errBg + fieldAt 17 2 h.errBank + fieldAt 0 14 h.errRow
    | 0x34 => fieldAt 8 4 h.errRunner + fieldAt 0 5 h.errCol
    | _ => 0

/-! ### COMPOSER, PIXEL, PLANE and SEQ (R64, R92, R207, R230) -/

/-- STATE of COMP_STATUS_n. -/
def compPhase (c : CompState) : Nat :=
  match c.fuc with
  | none => 0
  | some f => (match f.phase with | .waiting => 1 | .binning => 2 | .composing => 3 | .complete => 4 | .poisoned => 5 | .abandoned => 6)

/-- Uncommitted tiles of the frame under construction. -/
def tilesLeft (c : CompState) : Nat := match c.fuc with | none => 0 | some f => (f.tiles.filter fun t => t != TileState.committed).length

/-- RO registers of the composer of one output. -/
def compReg (s : State) (o ofs : Nat) : Nat :=
  let c := s.compAt o
  match ofs with
  | 0x0C => fieldAt 16 15 c.ntiles + fieldAt 0 14 c.qbase
  | 0x10 => c.budget
  | 0x14 =>
      let mine := s.composer.contexts.filter fun e => match e with | some c => c.out == o | none => false
      fieldAt 16 15 (tilesLeft c) + fieldAt 8 6 mine.length + fieldAt 0 3 (compPhase c)
  | 0x18 => c.lastStalls
  | _ => 0

/-- RO registers of COMPOSER. -/
def composerReg (s : State) (ofs : Nat) : Nat :=
  let x := s.composer
  if 0x1000 ≤ ofs then
    let e := nth x.layerStatus ((ofs - 0x1000) / 4) (0, 0)
    fieldAt 16 16 e.2 + fieldAt 0 3 e.1
  else if 0x100 ≤ ofs then compReg s ((ofs - 0x100) / 0x40) (ofs % 0x40)
  else match ofs with
    | 0x00 => fieldAt 16 4 x.glevel + fieldAt 0 16 x.utilU
    | 0x08 => fieldAt 16 2 x.chkOut + fieldAt 8 7 x.chkLayer + fieldAt 0 4 x.chkNo
    | 0x10 => flagAt 31 x.faultValid + fieldAt 28 2 x.faultOut + fieldAt 16 7 x.faultLayer + fieldAt 0 14 x.faultQueue
    | 0x14 => fieldAt 20 12 x.faultSurface + fieldAt 0 13 x.faultFrag
    | 0x18 => fieldAt 16 16 (x.spruePeak / 64) + fieldAt 0 16 (x.sprue.length / 64)
    | _ => 0

/-- RO registers of PIXEL. -/
def pixelReg (s : State) (ofs : Nat) : Nat :=
  let c := s.compAt (ofs / 0x4000)
  match ofs % 0x4000 with
  | 0x10 => fieldAt 16 4 c.pixSlot + fieldAt 8 7 c.pixLayer + fieldAt 0 4 c.pixCheck
  | 0x14 => fieldAt 16 6 c.scalers + flagAt 0 c.canvas
  | 0x18 => c.warpWait
  | _ => 0

/-- RO registers of PLANE. -/
def planeReg (s : State) (ofs : Nat) : Nat :=
  let o := (ofs - 0x100) / 0x40
  let e := s.encAt o
  match ofs % 0x40 with
  | 0x10 => fieldAt 18 2 e.phase + flagAt 17 (backBuf s o).complete + flagAt 16 e.reduced + fieldAt 8 8 (backBuf s o).tag + fieldAt 0 8 (frontBuf s o).tag
  | 0x14 => fieldAt 16 12 e.cbEntry + fieldAt 8 3 e.cbChan + fieldAt 4 3 e.cbSet + fieldAt 0 4 e.cbCheck
  | 0x18 => fieldAt 0 24 e.cbGap
  | _ => 0

/-- RO registers of SEQ. -/
def seqReg (s : State) (ofs : Nat) : Nat :=
  let o := (ofs - 0x100) / 0x40
  let q := s.seqAt o
  match ofs % 0x40 with
  | 0x10 => fieldAt 16 16 q.holdCount + flagAt 12 q.holding + fieldAt 8 3 q.sReq + fieldAt 4 3 (backBuf s o).prog + fieldAt 0 3 (frontBuf s o).prog
  | 0x14 => fieldAt 16 11 q.checkInstr + fieldAt 8 4 q.checkBlock + fieldAt 4 3 q.checkProg + fieldAt 0 4 q.checkNo
  | _ => 0

/-! ### PORT and DRIVE (R126, R154, R181) -/

/-- RO and W1C registers of PORT. -/
def portReg (s : State) (ofs : Nat) : Nat :=
  let o := (ofs - 0x100) / 0x40
  let p := s.portAt o
  let x := s.scanAt o
  match ofs % 0x40 with
  | 0x0C => fieldAt 29 3 p.link + fieldAt 24 3 p.regState + fieldAt 16 8 p.status.flags + fieldAt 8 8 p.status.cmdSeq + fieldAt 0 8 p.status.loadSeq
  | 0x10 => fieldAt 16 16 p.loadErrs + fieldAt 8 8 p.stbErrs + fieldAt 0 8 p.bchErrs
  | 0x14 => p.laneErr
  | 0x34 => fieldAt 16 16 x.lines + fieldAt 8 4 x.check + fieldAt 4 2 x.jesd + fieldAt 0 3 x.fast
  | 0x38 => wrapInt 32 x.pHat
  | 0x3C => fieldAt 16 16 x.underruns + fieldAt 0 16 x.syncErrs
  | _ => 0

/-- OUT_SCALE_n (R126): the channel that set the domain's scale, when it lies on this output. -/
def outScale (s : State) (o : Nat) : Nat :=
  let capped := (outStrings (s.rt o) o).any fun nn => (s.strAt nn).clampLast
  fieldAt 16 16 (nth s.drive.scale o 0) + flagAt 15 capped + fieldAt 8 3 (nth s.drive.limitChan o 0)

/-- STR_STATUS_nn (R126). -/
def strStatus (x : StringState) : Nat :=
  flagAt 31 x.failed + fieldAt 28 3 x.cause + fieldAt 26 2 x.st + flagAt 25 x.probePending + flagAt 24 x.clampLast + fieldAt 16 8 x.lampShorts
    + fieldAt 0 6 x.lowDuty

/-- RO and W1C registers of DRIVE. -/
def driveReg (s : State) (ofs : Nat) : Nat :=
  if ofs < 0x400 then
    let x := s.strAt ((ofs - 0x100) / 0x20)
    if ofs % 0x20 = 0x0C then strStatus x else fieldAt 20 12 x.iAvg + fieldAt 0 16 x.vStr
  else if ofs < 0x480 then
    let p := nth s.drive.pds ((ofs - 0x400) / 0x10) {}
    fieldAt 16 16 p.dark + fieldAt 0 16 p.last
  else if ofs = 0x480 then bitsOf 8 fun k => (nth s.drive.pds k {}).faulted
  else if ofs < 0x600 then outScale s ((ofs - 0x500) / 0x20)
  else if ofs < 0x800 then
    let b := nth s.drive.boards ((ofs - 0x700) / 0x10) {}
    fieldAt 20 12 (wrapInt 12 b.temp) + fieldAt 18 2 b.eeprom + flagAt 17 b.trip.entered + fieldAt 0 16 b.d
  else fieldAt 16 16 (rampingMa s / 10) + fieldAt 8 5 ((s.drive.strings.filter fun x => x.st == 1).length) + flagAt 0 s.drive.paused

/-! ### THERMAL and ANNEAL (R374, R391) -/

/-- HOLD_LEFT (R362, R374): whole milliseconds left, rounded up. -/
def holdLeft (s : State) : Nat := ceilDiv (s.therm.holdUntil - s.tb.tick) 400000

/-- RO registers of THERMAL. -/
def thermalReg (s : State) (ofs : Nat) : Nat :=
  let t := s.therm
  if 0x200 ≤ ofs then
    let e := nth t.exts ((ofs - 0x200) / 0x10) {}
    fieldAt 16 2 e.st + fieldAt 0 16 (wrapInt 16 e.mean)
  else if 0x100 ≤ ofs then
    let x := nth t.sensors ((ofs - 0x100) / 4) {}
    fieldAt 20 12 (wrapInt 12 x.dev) + fieldAt 16 2 x.st + fieldAt 0 16 (wrapInt 16 x.value)
  else match ofs with
    | 0x00 => fieldAt 16 12 (holdLeft s) + flagAt 10 t.halt.entered + flagAt 9 t.temper.entered + flagAt 8 t.warn.entered
        + fieldAt 4 3 (temperLevel s) + fieldAt 0 3 t.level
    | 0x04 => flagAt 24 t.subst + fieldAt 16 7 t.src + fieldAt 0 16 (wrapInt 16 t.tdie)
    | 0x10 => bitsOf 32 fun i => (nth t.sensors i {}).st == 2
    | 0x14 => bitsOf 32 fun i => (nth t.sensors (32 + i) {}).st == 2
    | 0x24 => flagAt 31 t.droop + fieldAt 24 6 t.droopSensor + fieldAt 16 8 t.droopDepth + fieldAt 0 16 t.droopCount
    | 0x28 => fieldAt 0 26 t.awake
    | 0x2C => fieldAt 0 26 t.pend
    | 0x34 => flagAt 31 t.flashOpen + flagAt 30 t.fallback + fieldAt 16 7 s.aod.queue.length + fieldAt 0 16 s.aod.dropped
    | _ => 0

/-- Points left in a run (R391): those of the step in progress, then those of the steps that follow. -/
def pointsLeft (s : State) (r : AnnRun) : Nat :=
  let rest := if r.items.isEmpty then r.todo else r.todo.drop 1
  (r.items.length * r.points - r.point) + (rest.map fun e => (stepItems s e.1 e.2).length * stepPoints e.1).sum

/-- RO registers of ANNEAL. -/
def annealReg (s : State) (ofs : Nat) : Nat :=
  let a := s.ann
  match ofs with
  | 0x0C => (match a.run with
      | none => 0
      | some r => fieldAt 16 16 (pointsLeft s r) + fieldAt 8 2 (r.todo.headD (0, 0)).2 + fieldAt 4 4 (r.todo.headD (0, 0)).1 + fieldAt 0 3 r.st)
  | 0x10 => fieldAt 16 5 a.item + fieldAt 12 4 a.step + fieldAt 8 4 a.cause + fieldAt 0 3 a.outcome
  | 0x14 => a.seq
  | _ => 0

/-! ### GUARD and CRUCIBLE (R417, R443) -/

/-- GUARD_STATUS (R417). -/
def guardStatus (s : State) : Nat :=
  flagAt 31 s.aod.latch + flagAt 30 s.aod.halt + fieldAt 28 2 s.aod.cls + fieldAt 20 4 s.aod.first + fieldAt 0 12 s.aod.sources

/-- RO registers of GUARD. -/
def guardReg (s : State) (ofs : Nat) : Nat :=
  let g := s.guard
  if 0x1000 ≤ ofs then nth (nth g.sigs ((ofs - 0x1000) / 0x400) {}).last (ofs % 0x400 / 0x20) 0
  else if 0x100 ≤ ofs then
    let o := (ofs - 0x100) / 0x40
    let z := nth g.zones o {}
    let y := nth g.sigs o {}
    if ofs % 0x40 = 0x04 then flagAt 31 z.resident + fieldAt 0 16 z.fails else fieldAt 16 16 y.judged + fieldAt 0 16 y.mismatch
  else match ofs with
    | 0x00 => guardStatus s
    | 0x0C => fieldAt 16 16 g.trips + flagAt 3 g.disc + flagAt 2 (ilkSafe s) + flagAt 1 g.ilkB + flagAt 0 g.ilkA
    | 0x10 => fieldAt 16 16 g.twinCount + fieldAt 12 4 g.twinCls + fieldAt 8 2 g.twinOut + fieldAt 0 8 g.twinIdx
    | _ => 0

/-- STATE of MARK_STATUS_n (R433): off, active, or enabled without a marking key. -/
def markState (s : State) (o : Nat) : Nat := if !(s.act).bit (0x100100 + 0x40 * o) 31 then 0 else if (heldKey s 0xFFFE).isSome then 1 else 2

/-- RO registers of CRUCIBLE. -/
def crucReg (s : State) (ofs : Nat) : Nat :=
  let c := s.cruc
  if ofs < 0x10 then nbits s.fuse.devId (8 * ofs + 31) (8 * ofs)
  else if 0x100 ≤ ofs ∧ ofs < 0x200 then fieldAt 30 2 (markState s ((ofs - 0x100) / 0x40))
  else match ofs with
    | 0x10 => fieldAt 30 2 c.st + flagAt 29 (secureNow s).isSome + flagAt 28 c.rngFail
        + fieldAt 24 4 (bitsOf 4 fun j => (nth s.fuse.anchors j none).isSome && !(nth s.fuse.revoked j false))
        + fieldAt 16 6 s.fuse.floor + fieldAt 8 3 (c.sessions.filter Option.isSome).length + fieldAt 0 7 (c.keys.filter Option.isSome).length
    | 0x34 => flagAt 31 c.kdmBusy + fieldAt 16 4 c.kdmResult + fieldAt 0 16 c.kdmKey
    | 0x204 => s.jrn.seq
    | 0x300 => fieldAt 16 16 c.tamperCount + fieldAt 0 5 c.tamperLast
    | _ => 0

/-- An RO or W1C register, by its address. -/
def roReg (s : State) (path : PathId) (a : Nat) : Word :=
  let ofs := a % 0x10000
  BitVec.ofNat 32 (match a / 0x10000 with
    | 0x00 => sysReg s path ofs
    | 0x01 => ladleReg s ofs
    | 0x02 => timebaseReg s ofs
    | 0x03 => inputReg s ofs
    | 0x04 => surfaceReg s ofs
    | 0x05 => runnerReg s ofs
    | 0x06 => hbmReg s ofs
    | 0x07 => composerReg s ofs
    | 0x08 => pixelReg s ofs
    | 0x09 => planeReg s ofs
    | 0x0A => seqReg s ofs
    | 0x0B => portReg s ofs
    | 0x0C => driveReg s ofs
    | 0x0D => thermalReg s ofs
    | 0x0E => annealReg s ofs
    | 0x0F => guardReg s ofs
    | 0x10 => crucReg s ofs
    | _ => 0)

/-! ### RO tables -/

/-- A byte of the event log (R499): record k stands at k mod 1,024. -/
def eventByte (s : State) (d : Nat) : Byte :=
  let slot := d / 32
  let back := (s.log.head + 1023 - slot) % 1024
  match s.log.records[back]? with
  | some r => (evtBytes r).getD (d % 32) 0
  | none => 0

/-- The 32 bytes of a flip record (R254). -/
def flipBytes (r : FlipRec) : List Byte :=
  leBytes 8 r.count ++ leBytes 8 r.tLocal ++ leBytes 8 r.tPtp ++ leBytes 1 (r.kind + if r.dark then 128 else 0) ++ leBytes 1 r.cause
    ++ leBytes 1 r.tag ++ leBytes 1 (r.prog % 8) ++ leBytes 4 0

/-- The 64 bytes of a frame record (R266). -/
def frameBytes (f : CapFrame) : List Byte :=
  leBytes 8 f.count ++ leBytes 8 f.tRef ++ leBytes 1 f.fine ++ leBytes 1 f.buffer ++ leBytes 1 f.fmtOut ++ leBytes 1 (signalByte f.fmt)
    ++ leBytes 2 f.fmt.w ++ leBytes 2 f.fmt.h ++ leBytes 4 f.tc ++ leBytes 4 f.rtp ++ leBytes 32 0

/-- The bytes of a string's binning view (R126): a calibrated string's wavelength is brought from its calibration's temperature to
T_REF. -/
def binningBytes (x : StringState) : List Byte :=
  leBytes 4 (x.flux.floor.toNat) ++ leBytes 2 ((x.wl0 + x.wlTc / 100 * ((x.binRef : Rat) - x.tRef) / 100).floor.toNat) ++ leBytes 2 (wrapInt 16 x.wlTc.floor) ++ leBytes 4 x.volts ++ leBytes 1 x.lamps
    ++ leBytes 3 0

/-- The bytes of a channel's loop bins (R109). -/
def binBytes (x : ChanState) : List Byte := x.bins.flatMap fun b => leBytes 4 ((b * 0x8000).floor.toNat)

/-- The bytes of a key table entry (R443). The manual gives the state no codes: a free value of whether a key is held and valid
(notes/assumptions/17.md). -/
def keyBytes (s : State) (e : Option KeySlot) : List Byte :=
  match e with
  | none => leBytes 6 0 ++ leBytes 2 (Config.keyState false false) ++ leBytes 24 0
  | some k => leBytes 2 k.keyId ++ leBytes 2 k.target ++ leBytes 1 k.flags ++ leBytes 1 k.issuer ++ leBytes 2 (Config.keyState true (keyValid s k))
      ++ leBytes 8 k.notBefore ++ leBytes 8 k.notAfter ++ leBytes 8 0

/-- A byte of an RO table, by its address. -/
def roByte (s : State) (a : Nat) : Byte :=
  let at_ := fun (base stride : Nat) => ((a - base) / stride, (a - base) % stride)
  if 0x01000000 ≤ a ∧ a < 0x02000000 then eventByte s (a - 0x01000000)
  else if 0x03000000 ≤ a ∧ a < 0x04000000 then
    let (o, d) := at_ 0x03000000 0x200
    (flipBytes (nth (s.tgAt o).flipLog (d / 32) {})).getD (d % 32) 0
  else if 0x04001000 ≤ a ∧ a < 0x04002000 then
    let (i, d) := at_ 0x04001000 0x100
    (frameBytes (nth (s.inAt i).records (d / 0x40) {})).getD (d % 0x40) 0
  else if 0x05000000 ≤ a ∧ a < 0x06000000 then
    let (i, d) := at_ 0x05000000 32
    BitVec.ofNat 8 (descriptorByte s i d)
  else if 0x0C000000 ≤ a ∧ a < 0x0C001000 then
    let (o, d) := at_ 0x0C000000 0x40
    (match (s.portAt o).ident with | some i => (identBytes i).getD d 0 | none => 0)
  else if 0x0D004000 ≤ a ∧ a < 0x0D005000 then
    let (nn, d) := at_ 0x0D004000 0x20
    (binningBytes (s.strAt nn)).getD d 0
  else if 0x0D005000 ≤ a ∧ a < 0x0E000000 then
    let (k, d) := at_ 0x0D005000 0x20
    (binBytes (nth s.drive.chans k {})).getD d 0
  else if 0x11000000 ≤ a ∧ a < 0x11002000 then s.fuse.cert.getD (a - 0x11000000) 0
  else
    let (k, d) := at_ 0x11003000 32
    (keyBytes s (nth s.cruc.keys k none)).getD d 0

/-- A word of an RO table. -/
def roWord (s : State) (a : Nat) : Word := BitVec.ofNat 32 (leNat ((List.range 4).map fun k => roByte s (a + k)))

/-! ### Reads (R9, R10, R245, R461, R496) -/

/-- Whether a path reads the staged view (R245). -/
def stagedView (s : State) (path : PathId) : Bool := match s.ladle.views.find? fun e => e.1 == path with | some e => e.2 | none => false

/-- Where an address lies in the mailboxes (R461): the path's own request or response area. -/
def mailboxAddr (a : Nat) : Bool := decide (0x1000 ≤ a) && decide (a < 0x2000)
def mailboxWord (s : State) (path : PathId) (a : Nat) : Word :=
  let b := mailboxOf s path
  BitVec.ofNat 32 (Memory.le ramDefault (if a < 0x1800 then b.req else b.resp) (a % 0x800) 4)

/-- Whether something is defined at a word address (R496). -/
def definedAddr (a : Nat) : Bool := mailboxAddr a || (clsOf a).isSome

/-- The RW registers that each path has of its own, and those in force for all. -/
def rwWord (s : State) (path : PathId) (a : Nat) : Word :=
  if a = 0x104 then BitVec.ofNat 32 (nth s.mgmt.evtRead (pathIdx path) 0)
  else if a = 0x10014 then (if stagedView s path then 1 else 0)
  else s.act.get a

/-- What a word reads as by its access class (R9, R10, R245), without the latches of R65, R233 and R280. -/
def readView (s : State) (path : PathId) (a : Nat) : Word :=
  if mailboxAddr a then mailboxWord s path a
  else match clsOf a with
    | some .ro => (match regRow? a with | some _ => roReg s path a | none => roWord s a)
    | some .w1c => roReg s path a
    | some .rw => rwWord s path a
    | some .ls => (if stagedView s path then s.ladle.stg else s.act).clean a
    | some .se => s.act.clean a
    | some .wo => 0
    | none => 0

/-- ADDR_UNDEFINED, at most once per second per path (R496). -/
def undefinedAddr (s : State) (path : PathId) (a : Nat) : State :=
  raiseLimited s 0x0020 (pathIdx path) (pathNum path + a * 2 ^ 32) oneSecond path

/-- A path reads a word (R496): reads of the low half of a counter latch its high half. -/
def readWord (s : State) (path : PathId) (a : Nat) : State × Word :=
  if !definedAddr a then (undefinedAddr s path a, 0)
  else if a = 0x20010 then readTick s
  else if a = 0x30018 then readPtpOfs s
  else if 0x20118 ≤ a ∧ a < 0x20218 ∧ (a - 0x20118) % 0x40 = 0 then readFrameCnt s ((a - 0x20118) / 0x40)
  else (s, readView s path a)

end Sys2Proof.Machine
end

