-- ==== Sys2Proof/Machine/Reset.lean ====
section
/-! DEFINITION. The reset sources: what each of them resets and keeps (R472, R473). -/
namespace Sys2Proof.Machine

/-- The levels of the input pins stay what they are through a reset; what the part remembers about them starts afresh. -/
def keepPins (old new : State) : State :=
  { new with
    guard := { new.guard with ilkA := old.guard.ilkA, ilkB := old.guard.ilkB, qnLow := old.guard.qnLow }
    ann := { new.ann with dowser := old.ann.dowser }
    mode := { new.mode with pwrfail := old.mode.pwrfail } }

/-- A record whose writing a reset cut short waits again at the head of the queue (R367); a signature record is formed anew. -/
def requeueWriting (a : AodState) (j : JournalState) : AodState :=
  match j.writing with
  | some (r, _) => if r.kind = 1 then a else { a with queue := (.general, { r with flags := r.flags / 2 * 2 + 1 }) :: a.queue }
  | none => a

/-- Reset causes 1 to 4 (R472, R473): everything but the always-on domain, the fuses and the flash; the latch is set with source
DAWN added. The layout that the flash was last used with is remembered (R446). -/
def warmReset (s : State) (cause : Nat) : State :=
  let a := requeueWriting s.aod s.jrn
  keepPins s { State.reset with
    fuse := s.fuse
    flash := s.flash
    free := s.free
    pending := s.pending
    mgmt := { State.reset.mgmt with layout := s.mgmt.layout }
    mode := { State.reset.mode with rails := s.mode.rails }
    aod := { a with
      valid := true
      dawns := satAdd 0xFFFF s.aod.dawns 1
      cause := cause
      latch := true
      sources := addSource s.aod.sources 11
      first := if s.aod.latch then s.aod.first else 11
      dropped := 0 } }

/-- Reset cause 0 (R472): VAUX has risen; only the fuses and the flash are kept, and the always-on domain is invalid. -/
def coldReset (s : State) : State :=
  keepPins s { State.reset with
    fuse := s.fuse
    flash := s.flash
    free := s.free
    pending := s.pending
    mgmt := { State.reset.mgmt with layout := s.mgmt.layout } }

end Sys2Proof.Machine
end

