-- ==== Sys2Proof/Machine/Bus.lean ====
section
/-! DEFINITION. Accesses to the address map by the management paths: who may do what, and what a write does by its access class
(R9 to R11, R245, R283, R457 to R459, R496). RESULT codes are those of R462. -/
namespace Sys2Proof.Machine

/-! ### Restart (R479, R489) -/

/-- Whether a path may ask for RESTART (R479): the MODE role, or INGOT during a failed Dawn. In DUSK both still apply. -/
def mayRestart (s : State) (path : PathId) : Bool := hasRole s path 9 || (s.mode.dev == 0 && s.mode.fail != 0 && hasRole s path 7)

/-- RESTART (R479): a Dusk with cause 1; Dawn after the Dusk that already runs, and at once after one that is done. -/
def restart (s : State) : State :=
  if s.mode.dev ≠ 7 then startDusk s 1 true
  else if s.mode.duskStep = 6 then warmReset s 3
  else s.modMode fun x => { x with dawnFollows := true }

/-! ### Roles (R458) -/

/-- The roles that a write to a WO register needs. -/
def woRoles (s : State) (a v : Nat) : List Nat :=
  match a with
  | 0x14 => if nbits v 31 28 = 4 ∧ s.mode.dev = 0 ∧ s.mode.fail ≠ 0 then [7] else if 1 ≤ nbits v 31 28 ∧ nbits v 31 28 ≤ 4 then [9] else []
  | 0x10000 => [1]
  | 0x40000 => [2]
  | 0x7000C => [2]
  | 0xE0000 => [3]
  | 0xF0004 => if nbit v 1 then [4] else if nbit v 0 then [5] else []
  | 0x100030 => [8]
  | _ => if 0xB0100 ≤ a ∧ a < 0xB0200 then [9] else if 0x11002000 ≤ a then [8] else []

/-- RO registers that hold a W1C field (R92, R126, R207, R316, R348, R468). -/
def holdsW1c (a : Nat) : Bool :=
  [0x804, 0x40020, 0x60030, 0x70010].contains a || (decide (0xC0100 ≤ a ∧ a < 0xC0400) && a % 0x20 == 0x0C)

/-- The roles that a write needs (R458). -/
def writeRoles (s : State) (a v : Nat) : List Nat :=
  if mailboxAddr a then []
  else match clsOf a with
    | some .ls => [1]
    | some .rw => if (0x40004 ≤ a ∧ a ≤ 0x4000C) ∨ a = 0x100040 then [2] else [1]
    | some .w1c => [1]
    | some .ro => if holdsW1c a then [1] else []
    | some .wo => woRoles s a v
    | _ => []

/-- Why a write is refused (R458): RESULT 2 with the missing role, or 3 for an owner or a MASK outside OUT_MASK. -/
def writeRefused (s : State) (path : PathId) (a : Nat) (v : Word) : Option (Nat × Nat) :=
  match (writeRoles s a v.toNat).find? fun r => !hasRole s path r with
  | some r => some (2, r)
  | none =>
    if !mailboxAddr a && clsOf a == some .ls && !(ownersOf s.ladle a v).all (nbit (pathMask s path)) then some (3, 1)
    else if a = 0x10000 ∧ ¬ nbit v.toNat 9 ∧ v.toNat % 32 &&& pathMask s path ≠ v.toNat % 32 then some (3, 1)
    else none

/-! ### Writes by class (R9) -/

/-- A write to MODE_CMD (R479, R497). -/
def modeCmd (s : State) (v : Nat) (path : PathId) : State :=
  match nbits v 31 28 with
  | 1 => modeShow s (v % 16) path
  | 2 => modeStandby s (v % 16) path
  | 3 => startDusk s 0 false
  | 4 => restart s
  | _ => s

/-- A write to ANN_CTRL (R377, R386, R391). -/
def annCtrl (s : State) (v : Nat) (path : PathId) : State :=
  let s1 := if nbit v 30 then annAbort s else s
  if nbit v 31 then annStart s1 path v else s1

/-- A write to GUARD_CMD (R406, R410, R417). -/
def guardCmd (s : State) (v : Nat) (path : PathId) : State :=
  if nbit v 1 then tripEvent s 8 0x800 path else if nbit v 0 then requestRelease s path else s

/-- A write to KDM_CMD (R430, R443). -/
def kdmCmd (s : State) (v : Nat) (path : PathId) : State :=
  match nbits v 31 28 with
  | 1 => kdmSubmit s path
  | 2 => kdmDiscard s (v % 2 ^ 16)
  | 3 => kdmPurge s
  | _ => s

/-- A word of the map that holds what was written, for RW registers and the key delivery mailbox. -/
def putWord (s : State) (a : Nat) (v : Word) : State :=
  let w := cleared [] a v
  s.modLadle fun l => { l with act := l.act.set a w, stg := l.stg.set a w }

/-- A write to a WO register or table word whose roles are held; MGMT_DOORBELL apart. -/
def writeWo (s : State) (path : PathId) (a : Nat) (v : Word) : State × Nat :=
  let n := v.toNat
  match a with
  | 0x14 => (modeCmd s n path, 0)
  | 0x10000 => pourWrite s path n (ladleTarget s)
  | 0x20400 => (slackClear s n, 0)
  | 0x40000 => (surfCmd s n path, 0)
  | 0x7000C => (layerPresent s n path, 0)
  | 0xE0000 => (annCtrl s n path, 0)
  | 0xF0004 => (guardCmd s n path, 0)
  | 0x100030 => (kdmCmd s n path, 0)
  | _ =>
    if 0xB0100 ≤ a ∧ a < 0xB0200 then (portCmd s ((a - 0xB0100) / 0x40) n path, 0)
    else if 0x11002000 ≤ a ∧ a < 0x11003000 then (putWord s a v, 0)
    else (s, 0)

/-- EVT_READ of a path (R497): a value above HEAD is written as HEAD. -/
def writeEvtRead (s : State) (path : PathId) (v : Word) : State :=
  s.modMgmt fun m => { m with evtRead := listSet m.evtRead (pathIdx path) (min v.toNat s.log.head) }

/-- A write to an RW register whose role is held. -/
def writeRw (s : State) (path : PathId) (a : Nat) (v : Word) : State :=
  if a = 0x104 then writeEvtRead s path v
  else if a = 0x10014 then s.modLadle fun l => { l with views := (path, nbit v.toNat 0) :: l.views.filter fun e => e.1 != path }
  else if a = 0x100040 then sealHost s v
  else putWord s a v

/-- Photodiodes return to the loop (R113). -/
def clearPds (s : State) (v : Nat) : State :=
  (List.range 8).foldl (fun s k => if nbit v k then s.modPd k fun x => { x with faulted := false } else s) s

/-- A string's failure is cleared where its cause allows (R116). -/
def clearFailed (s : State) (nn : Nat) : State :=
  let x := s.strAt nn
  if x.failed && (x.cause == 1 || x.cause == 2 || x.cause == 3 || x.cause == 7) then clearString s nn else s

/-- DONE of MGMT_STATUS is cleared (R468). -/
def clearDone (s : State) : PathId → State
  | .spi => s.modMgmt fun m => { m with spi := { m.spi with done := false }, msgReady := false }
  | .bar0 => s.modMgmt fun m => { m with bar0 := { m.bar0 with done := false } }
  | _ => s

/-- A write to W1C bits (R9). -/
def writeW1c (s : State) (path : PathId) (a : Nat) (v : Word) : State :=
  let n := v.toNat
  if a = 0x804 then (if nbit n 30 then clearDone s path else s)
  else if a = 0x40020 then (if nbit n 31 then s.modSurf fun m => { m with fltValid := false } else s)
  else if a = 0x60030 then (if nbit n 31 then s.modHbm fun h => { h with errValid := false } else s)
  else if a = 0x70010 then (if nbit n 31 then s.modComposer fun x => { x with faultValid := false } else s)
  else if 0xB0100 ≤ a ∧ a < 0xB0200 then
    s.modPort ((a - 0xB0100) / 0x40) fun p => { p with laneErr := bitsOf 32 fun i => nbit p.laneErr i && !nbit n i }
  else if a = 0xC0480 then clearPds s n
  else if holdsW1c a then (if nbit n 31 then clearFailed s ((a - 0xC0100) / 0x20) else s)
  else s

/-- A refused SE write (R11, R467, R469). -/
def refuseSe (s : State) (path : PathId) (a : Nat) : State :=
  journalRefusal (raiseP s 0x0017 (pathNum path + a * 2 ^ 32) path) 5 0 a path

/-- A mailbox write (R461): the request area takes it. -/
def writeMailbox (s : State) (path : PathId) (a : Nat) (v : Word) : State :=
  let put : Mailbox → Mailbox := fun b =>
    if a < 0x1800 ∧ ¬ b.busy then { b with req := Memory.store ramDefault b.req (a - 0x1000) (leBytes 4 v.toNat) } else b
  match path with
  | .spi => s.modMgmt fun m => { m with spi := put m.spi }
  | .bar0 => s.modMgmt fun m => { m with bar0 := put m.bar0 }
  | _ => s

/-- A write whose roles are held, by the class of its address (R9, R496); MGMT_DOORBELL apart. -/
def busWrite (s : State) (path : PathId) (a : Nat) (v : Word) : State × Nat :=
  if mailboxAddr a then (writeMailbox s path a v, 0)
  else match clsOf a with
    | none => (undefinedAddr s path a, 0)
    | some .ro => (if holdsW1c a then writeW1c s path a v else s, 0)
    | some .w1c => (writeW1c s path a v, 0)
    | some .rw => (writeRw s path a v, 0)
    | some .se => (refuseSe s path a, 5)
    | some .ls => lsWrite s path a v
    | some .wo => writeWo s path a v

/-! ### Gates -/

/-- Whether an access is served (R489): in DUSK only reads of SYS, and RESTART, on SPI and BAR0. -/
def servesRead (s : State) (path : PathId) (a : Nat) : Bool :=
  serves s path || (s.mode.core && decide (s.mode.dev = 7) && (path == .spi || path == .bar0) && decide (a < 0x10000))
def servesWrite (s : State) (path : PathId) (a : Nat) (v : Word) : Bool :=
  serves s path || (s.mode.core && decide (s.mode.dev = 7) && (path == .spi || path == .bar0) && a == 0x14 && nbits v.toNat 31 28 == 4)

/-- HOST_ACCESS_ERR for an address that is no word address (R283). -/
def misaligned (s : State) (path : PathId) : State := raiseP s 0x030C 0 path

/-- A read by a path (R458): RESULT and word. -/
def gatedRead (s : State) (path : PathId) (a : Nat) : State × Nat × Word :=
  if a % 4 ≠ 0 then (misaligned s path, 1, 0)
  else if !hasRole s path 0 then (refuseRole s path 0 a, 2, 0)
  else let r := readWord s path a; (r.1, 0, r.2)

/-- Words read in order until one is refused. -/
def gatedReads (path : PathId) : Nat → Nat → State → State × Nat × List Word
  | 0, _, s => (s, 0, [])
  | n + 1, a, s =>
    match gatedRead s path a with
    | (s1, 0, w) => (match gatedReads path n (a + 4) s1 with | (s2, r, ws) => (s2, r, w :: ws))
    | (s1, r, _) => (s1, r, [])

/-- The first word of a write that is refused, with its RESULT, role and address: the whole request then changes nothing (R458). -/
def firstRefused (s : State) (path : PathId) (a : Nat) : List Word → Option (Nat × Nat × Nat)
  | [] => none
  | w :: r => (match writeRefused s path a w with | some (c, role) => some (c, role, a) | none => firstRefused s path (a + 4) r)

/-- Words written in order until one fails; the doorbell is answered by its own operation, named by `bell`. -/
def writeWords (bell : State → PathId → Word → State) (path : PathId) : Nat → List Word → State → State × Nat
  | _, [], s => (s, 0)
  | a, w :: r, s =>
    match (if a = 0x800 then (bell s path w, 0) else busWrite s path a w) with
    | (s1, 0) => writeWords bell path (a + 4) r s1
    | (s1, c) => (s1, c)

/-- A write of one or more words by a path (R458, R462). -/
def gatedWrite (bell : State → PathId → Word → State) (s : State) (path : PathId) (a : Nat) (ws : List Word) : State × Nat :=
  if a % 4 ≠ 0 then (misaligned s path, 1)
  else match firstRefused s path a ws with
    | some (c, role, ad) => (refuseRole s path role ad, c)
    | none => writeWords bell path a ws s

end Sys2Proof.Machine
end

