-- ==== Sys2Proof/Machine/Manage.lean ====
section
/-! DEFINITION. Management: the commands of R462, message bodies in mailboxes and sessions, and the SPI port (R422, R431, R455 to
R466). -/
namespace Sys2Proof.Machine

/-! ### The commands (R422, R431, R455, R456, R460, R462) -/

/-- POUR: LADLE_TARGET, then LADLE_POUR; it returns LADLE_STATUS. -/
def pourCommand (s : State) (path : PathId) (v : Word) (target : Nat) : State :=
  match writeRefused s path 0x10000 v with
  | some (c, role) => answer (refuseRole s path role 0x10000) c [] []
  | none =>
    let s1 := putWord (putWord s 0x10004 (BitVec.ofNat 32 target)) 0x10008 (BitVec.ofNat 32 (target / 2 ^ 32))
    let r := pourWrite s1 path v.toNat (ladleTarget s1)
    answer r.1 r.2 [BitVec.ofNat 32 (ladleStatus r.1)] []

/-- A command that needs a role and names no address. -/
def withCommandRole (s : State) (path : PathId) (role : Nat) (f : State → State) : State :=
  if hasRole s path role then f s else answer (refuseRole s path role 0) 2 [] []

/-- INGOT_APPLY (R456): the committed copy's open settings are staged, its sealed ones travel in the Pour; MAP_ORDER waits for Dawn.
The Pour's MASK holds every owner, so a path whose OUT_MASK does not is refused (R458). -/
def applyIngot (s : State) (path : PathId) : State :=
  match s.mgmt.committed with
  | none => answer s 5 [] []
  | some c =>
    if 31 &&& pathMask s path ≠ 31 then answer (refuseRole s path 7 0) 3 [] []
    else if s.ladle.pending.isSome then answer s 4 [] []
    else
      let s0 := flushHeld s
      let ws := copyWords s.flash c s0.ladle.stg 6 7
      let sealed_ := (copyWords s.flash c s0.act 4 5).filter fun e => e.1 != 0x60000
      let saved := savedWords s0 ws
      let s1 := stageWords (saveTouched s0 saved) .ingot ws
      let s2 := s1.modMgmt fun m => { m with applying := some c, applySaved := saved, sealed := sealed_ }
      let s3 := beginPour s2 31 false 0 .ingotApply path
      answer s3 0 [BitVec.ofNat 32 s3.ladle.seq] []

/-- Whether a path is an authenticated session. -/
def isSession : PathId → Bool
  | .eth _ => true
  | _ => false

/-- A command that only a session may send, with its role (R431, R460). -/
def withSession (s : State) (path : PathId) (role : Nat) (f : State → State) : State :=
  if isSession path then withCommandRole s path role f else answer (refuseRole s path role 0) 2 [] []

/-- TIME (R431): secure time never runs backward. -/
def setTime (s : State) (path : PathId) (ns : Nat) : State :=
  withSession s path 6 fun s => answer ((holdSecure s).modCruc fun c => { c with time := some (ns, localNs s) }) 0 [] []

/-- REVOKE (R422): the slot's revoke bit is burnt. -/
def revokeSlot (s : State) (path : PathId) (slot : Nat) : State :=
  withSession s path 8 fun s =>
    if 4 ≤ slot then answer s 1 [] [] else answer { s with fuse := { s.fuse with revoked := listSet s.fuse.revoked slot true } } 0 [] []

/-- PROVISION (R422, R460): SPI and BAR0 write the hash of a key into a blank anchor slot, whatever their roles. -/
def provisionSlot (s : State) (path : PathId) (slot : Nat) (key : List Byte) : State :=
  if path ≠ .spi ∧ path ≠ .bar0 then answer (refuseRole s path 0 0) 2 [] []
  else if 4 ≤ slot ∨ key.length ≠ 97 then answer s 1 [] []
  else if (nth s.fuse.anchors slot none).isSome then answer s 5 [] []
  else answer { s with fuse := { s.fuse with anchors := listSet s.fuse.anchors slot (some (Config.sha384 key)) } } 0 [] []

/-- The big-endian words of an operand. -/
def beWords : List Byte → List Word
  | a :: b :: c :: d :: r => BitVec.ofNat 32 (beNat [a, b, c, d]) :: beWords r
  | _ => []

/-- READ within a body: at most `room` bytes of data. -/
def readCommand (s : State) (path : PathId) (addr count room : Nat) : State :=
  if room < 4 * count then answer s 1 [] []
  else match gatedReads path count addr s with
    | (s1, 0, ws) => answer s1 0 ws []
    | (s1, r, _) => answer s1 r [] []

/-- One command of R462 for a path; its RESULT and data are what it answers. A doorbell written from within a body finds its
mailbox busy. -/
def runCommand (s : State) (path : PathId) (op arg : Nat) (l : List Byte) (room : Nat) : State :=
  match op with
  | 0x01 => if l.length = 4 then readCommand s path arg (beNat l) room else answer s 1 [] []
  | 0x02 => if l.length % 4 = 0 then (let r := gatedWrite (fun s _ _ => s) s path arg (beWords l); answer r.1 r.2 [] []) else answer s 1 [] []
  | 0x03 => if l.length = 8 then pourCommand s path (BitVec.ofNat 32 arg) (beNat l) else answer s 1 [] []
  | 0x10 => if l.isEmpty then withCommandRole s path 7 fun s => beginIngot s path arg else answer s 1 [] []
  | 0x11 => withCommandRole s path 7 fun s => dataIngot s arg l
  | 0x12 => if l.isEmpty then withCommandRole s path 7 commitRequest else answer s 1 [] []
  | 0x13 => if l.isEmpty then withCommandRole s path 7 fun s => applyIngot s path else answer s 1 [] []
  | 0x20 => if l.length = 8 then setTime s path (beNat l) else answer s 1 [] []
  | 0x21 => if l.isEmpty then revokeSlot s path arg else answer s 1 [] []
  | 0x22 => provisionSlot s path arg l
  | _ => answer s 1 [] []

/-! ### Bodies (R462) -/

/-- The response to one command: OP, RESULT, LEN and data. -/
def responseBytes (op result : Nat) (data : List Byte) : List Byte := beBytes 1 op ++ beBytes 1 result ++ beBytes 2 data.length ++ data
/-- The data of the last answer. -/
def answerData (s : State) : List Byte := s.mgmt.answer.flatMap fun w => beBytes 4 w.toNat
/-- The most bytes of responses: LEN of MGMT_STATUS, or the body of a RESPONSE after its SEQ (R463, R468). -/
def responseRoom (b : BodyRun) : Nat := if b.reply.isSome then 1416 else 2047
/-- Whether an ingot command waits for the flash window (R368). -/
def flashWaits (s : State) : Bool := match s.mgmt.update with | some u => u.waitData.isSome || u.waitCommit | none => false

/-- The rest of a body in order (R462): the responses when it is done, none while a command waits. A command that fails stops those
after it; in a mailbox a zero OP ends the list (notes/assumptions/31.md). The first argument bounds the number of commands. -/
def runBody : Nat → Bool → BodyRun → State → State × Option (List Byte)
  | 0, _, b, s => (s, some b.out)
  | n + 1, failed, b, s =>
    let l := b.rest
    let op := (l.getD 0 0).toNat
    let len := beAt l 2 2
    if l.isEmpty || (b.reply.isNone && op == 0) then (s, some b.out)
    else if l.length < 8 + len then (s, some (b.out ++ responseBytes op (if failed then 4 else 1) []))
    else
      let next : BodyRun := { b with rest := l.drop (8 + (len + 3) / 4 * 4) }
      let put : Nat → List Byte → BodyRun := fun r d => { next with out := b.out ++ responseBytes op r d }
      if failed then runBody n true (put 4 []) s
      else if (l.getD 1 0).toNat ≠ 0 then runBody n true (put 1 []) s
      else
        let s1 := runCommand s b.path op (beAt l 4 4) ((l.drop 8).take len) (responseRoom b - b.out.length - 4)
        if flashWaits s1 && !flashWaits s then (s1.modMgmt fun m => { m with body := some { next with op := op } }, none)
        else runBody n (s1.mgmt.answerStatus != 0) (put s1.mgmt.answerStatus (answerData s1)) s1

/-- A body is answered: in its mailbox, or by a RESPONSE that the session keeps (R461 to R464). -/
def finishBody (b : BodyRun) : State × Option (List Byte) → State
  | (s, none) => s
  | (s, some out) =>
    match b.reply with
    | none => mailboxDone s b.path out
    | some (k, seq) =>
      match nth s.cruc.sessions k none with
      | none => s
      | some x =>
        let (l, y, s1) := sessionSend s k x 0x11 (beBytes 8 seq ++ out)
        putSession s1 k { y with lastReq := seq, lastResp := l }

/-- A body is processed from its first command. -/
def startBody (s : State) (path : PathId) (reply : Option (Nat × Nat)) (l : List Byte) : State :=
  let b : BodyRun := { path := path, reply := reply, rest := l, out := [], op := 0 }
  finishBody b (runBody (l.length + 1) false b s)

/-- A body whose command waited for the flash window goes on once the wait is over (R368). -/
def continueBody (s : State) : State :=
  match s.mgmt.body with
  | none => s
  | some b =>
    if flashWaits s then s
    else
      let b1 : BodyRun := { b with out := b.out ++ responseBytes b.op s.mgmt.answerStatus (answerData s) }
      finishBody b1 (runBody (b1.rest.length + 1) (s.mgmt.answerStatus != 0) b1 (s.modMgmt fun m => { m with body := none }))

/-- The sensors convert (R351); what waited for the flash window goes on. -/
def execSensorConversion (counts : List (Nat × Nat)) (s : State) : Host.Outcome State Fault Refusal := .next (continueBody (sensorConversion counts s))
/-- An external input converts (R354); what waited for the flash window goes on. -/
def execExtConversion (x code : Nat) (bad : Fin 4) (s : State) : Host.Outcome State Fault Refusal := .next (continueBody (extConversion x code bad s))
/-- The wait for the flash window is over (R368, R388). -/
def execFlashWriteWaitTimeout (s : State) : Host.Outcome State Fault Refusal := .next (continueBody (flashWaitOver s))

/-! ### Sessions and mailboxes (R440, R461, R463) -/

/-- REQUEST (R440): an accepted message's commands are executed. -/
def sessionRequest (s : State) (k : Fin 4) (seq : Nat) (body mac : List Byte) : State :=
  match acceptMessage s k seq body mac with
  | none => dropMessage s k seq body mac
  | some x => startBody (putSession s k x) (.eth k) (some (k, seq)) body

def execSessionRequest (k : Fin 4) (seq : Nat) (body mac : List Byte) (s : State) : Host.Outcome State Fault Refusal := .next (sessionRequest s k seq body mac)

/-- A session message in a mailbox (R459): one of an open session must come by the mailbox that carries it. -/
def mailboxMessage (s : State) (path : PathId) (l : List Byte) : State :=
  let body := (l.drop 16).take (beAt l 12 2)
  let mac := (l.drop (16 + beAt l 12 2)).take 32
  let k := beAt l 2 1
  let mine : Bool := match nth s.cruc.sessions k none with | some x => x.carrier == path | none => false
  if 1424 < beAt l 12 2 ∨ beAt l 3 1 ≠ 0 ∨ beAt l 14 2 ≠ 0 then s
  else match beAt l 1 1 with
    | 0x01 => hello s path 0 0 body
    | 0x03 => finish s path body
    | 0x10 => if h : k < 4 then (if mine then sessionRequest s ⟨k, h⟩ (beAt l 4 8) body mac else s) else s
    | 0x12 => if mine then resend s k (beAt l 4 8) body mac else s
    | 0x1F => if mine then closeMessage s k (beAt l 4 8) body mac else s
    | _ => s

/-- A mailbox's BUSY and DONE as a request begins. -/
def mailboxBegin (s : State) (path : PathId) : State :=
  let put : Mailbox → Mailbox := fun b => { b with busy := true, done := false }
  match path with
  | .spi => s.modMgmt fun m => { m with spi := put m.spi, msgReady := false }
  | .bar0 => s.modMgmt fun m => { m with bar0 := put m.bar0 }
  | _ => s

/-- MGMT_DOORBELL (R461): the request in the path's mailbox is processed; a session message that gets no response leaves an
empty one. -/
def doorbell (s : State) (path : PathId) (v : Word) : State :=
  if (path ≠ .spi ∧ path ≠ .bar0) ∨ nbit v.toNat 0 = false ∨ (mailboxOf s path).busy then s
  else
    let s1 := mailboxBegin s path
    let l := Memory.bytes ramDefault (mailboxOf s path).req 0 0x800
    if l.getD 0 0 = 1 ∧ l.getD 1 0 ≠ 0 then
      (let s2 := mailboxMessage s1 path l
       if (mailboxOf s2 path).busy && s2.mgmt.body.isNone then mailboxDone s2 path [] else s2)
    else startBody s1 path none l

/-! ### The rows of the table -/

/-- READ (R462), or a read by a path; in DUSK only of SYS (R489). -/
def execMgmtRead (path : PathId) (addr count : Nat) (s : State) : Host.Outcome State Fault Refusal :=
  if servesRead s path (addr + 4 * (count - 1)) then
    let r := gatedReads path count addr s
    .next (answer r.1 r.2.1 r.2.2 [])
  else .next s

/-- Words that a path writes; in DUSK only RESTART (R489). -/
def pathWrite (s : State) (path : PathId) (addr : Nat) (ws : List Word) : State × Nat :=
  if serves s path then gatedWrite doorbell s path addr ws
  else match ws with
    | [v] => if servesWrite s path addr v then (if mayRestart s path then (restart s, 0) else (refuseRole s path 9 addr, 2)) else (s, 4)
    | _ => (s, 4)

/-- WRITE (R462), or writes by a path. -/
def execMgmtWrite (path : PathId) (addr : Nat) (words : List Word) (s : State) : Host.Outcome State Fault Refusal :=
  let r := pathWrite s path addr words
  .next (answer r.1 r.2 [] [])

/-- A write to a register or table word by its access class (R9). -/
def execRegisterWrite (path : PathId) (addr : Nat) (v : Word) (s : State) : Host.Outcome State Fault Refusal :=
  .next (pathWrite s path addr [v]).1

/-- A write to EVT_READ (R497). -/
def execEvtReadWrite (path : PathId) (v : Word) (s : State) : Host.Outcome State Fault Refusal :=
  .next (withRole s path 1 0x104 fun s => writeEvtRead s path v)

/-- RESTART (R479). -/
def execModeCmdRestart (path : PathId) (s : State) : Host.Outcome State Fault Refusal :=
  .next (pathWrite s path 0x14 [0x40000000]).1

def execMgmtPour (path : PathId) (v : Word) (target : Nat) (s : State) : Host.Outcome State Fault Refusal :=
  if serves s path then .next (pourCommand s path v target) else .next s
def execIngotBegin (path : PathId) (length : Nat) (s : State) : Host.Outcome State Fault Refusal :=
  if serves s path then .next (withCommandRole s path 7 fun s => beginIngot s path length) else .next s
def execIngotData (path : PathId) (ofs : Nat) (bytes : List Byte) (s : State) : Host.Outcome State Fault Refusal :=
  if serves s path then .next (withCommandRole s path 7 fun s => dataIngot s ofs bytes) else .next s
def execIngotCommit (path : PathId) (s : State) : Host.Outcome State Fault Refusal :=
  if serves s path then .next (withCommandRole s path 7 commitRequest) else .next s
def execIngotApply (path : PathId) (s : State) : Host.Outcome State Fault Refusal :=
  if serves s path then .next (withCommandRole s path 7 fun s => applyIngot s path) else .next s
def execMgmtTime (path : PathId) (ns : Nat) (s : State) : Host.Outcome State Fault Refusal :=
  if serves s path then .next (setTime s path ns) else .next s
def execRevoke (path : PathId) (slot : Nat) (s : State) : Host.Outcome State Fault Refusal :=
  if serves s path then .next (revokeSlot s path slot) else .next s
def execProvision (path : PathId) (slot : Nat) (key : List Byte) (s : State) : Host.Outcome State Fault Refusal :=
  if serves s path then .next (provisionSlot s path slot key) else .next s

/-! ### The SPI port (R465, R466) -/

/-- LAST_RESULT for a RESULT of R462: 4 for a refused role or owner, 6 for every other access that had no effect. -/
def spiResult (r : Nat) : Nat := if r = 0 then 0 else if r = 2 ∨ r = 3 then 4 else 6

/-- The end of a frame: LAST_RESULT, the opcode, the count of refused frames and SPI_FRAME_ERR. -/
def spiEnd (s : State) (op result : Nat) (out : List Byte) : State :=
  let s1 := s.modMgmt fun m => { m with
    lastResult := result, lastOp := op, spiReply := out, refused := (m.refused + if result = 0 then 0 else 1) % 256 }
  if result = 0 then s1 else raiseP s1 0x0016 1 .spi

/-- Whether a frame's last two bytes are the CRC of those before them. -/
def spiCrcOk (l : List Byte) : Bool := decide (2 ≤ l.length) && beNat (l.drop (l.length - 2)) == crc16 (l.take (l.length - 2))

/-- The fault of a WRITE or READ frame's form (R465), 0 for none: opcode, length, CRC. -/
def spiForm (op words : Nat) (l : List Byte) : Nat :=
  let n := beAt l 1 1
  if (l.getD 0 0).toNat ≠ op then 3
  else if n = 0 ∨ 64 < n ∨ l.length ≠ 8 + 4 * words * n then 2
  else if !spiCrcOk l then 1
  else 0

/-- A WRITE frame (R465). -/
def spiWrite (s : State) (l : List Byte) : State :=
  let op := (l.getD 0 0).toNat
  match spiForm 0x02 1 l with
  | 0 =>
    let ws := beWords ((l.drop 6).take (4 * beAt l 1 1))
    if serves s .spi || servesWrite s .spi (beAt l 2 4) (ws.headD 0) then
      (let r := pathWrite s .spi (beAt l 2 4) ws
       spiEnd r.1 op (spiResult r.2) [])
    else spiEnd s op 5 []
  | e => spiEnd s op e []

/-- A READ frame (R465): its words, or 0x5A where they are not ready or the frame is refused. -/
def spiRead (s : State) (l : List Byte) (ready : Bool) : State :=
  let op := (l.getD 0 0).toNat
  match spiForm 0x03 0 l with
  | 0 =>
    if !ready || !servesRead s .spi (beAt l 2 4 + 4 * (beAt l 1 1 - 1)) then spiEnd s op 5 [0x5A]
    else match gatedReads .spi (beAt l 1 1) (beAt l 2 4) s with
      | (s1, 0, ws) =>
        let data := ws.flatMap fun w => beBytes 4 w.toNat
        spiEnd s1 op 0 ([0xA5] ++ data ++ beBytes 2 (crc16 data))
      | (s1, r, _) => spiEnd s1 op (spiResult r) [0x5A]
  | e => spiEnd s op e [0x5A]

def execSpiWriteFrame (bytes : List Byte) (s : State) : Host.Outcome State Fault Refusal := if s.mode.core then .next (spiWrite s bytes) else .next s
def execSpiReadFrame (bytes : List Byte) (ready : Bool) (s : State) : Host.Outcome State Fault Refusal :=
  if s.mode.core then .next (spiRead s bytes ready) else .next s

/-- SPI_STATUS (R465). -/
def spiStatus (m : MgmtState) : Nat :=
  flagAt 31 m.irq + flagAt 30 m.msgReady + fieldAt 16 8 m.refused + fieldAt 8 8 m.lastOp + fieldAt 0 8 m.lastResult

/-- A STATUS frame (R465): SPI_STATUS and its CRC; it clears IRQ. -/
def execSpiStatusFrame (s : State) : Host.Outcome State Fault Refusal :=
  if s.mode.core then
    let l := beBytes 4 (spiStatus s.mgmt)
    .next (s.modMgmt fun m => { m with spiReply := l ++ beBytes 2 (crc16 l), irq := false })
  else .next s

end Sys2Proof.Machine
end

