-- ==== Sys2Proof/Machine/Dawn.lean ====
section
/-! DEFINITION. Dawn and Dusk: the supplies, the steps of Dawn to DAWN_DONE, the supply-failure Dusk and the end of every Dusk
(R472 to R477, R488 to R492, R505). -/
namespace Sys2Proof.Machine

/-- Whether the always-on domain has its supply. -/
def vauxUp (s : State) : Bool := nth s.mode.rails 0 false

/-! ### Reset sources (R472) -/

/-- VAUX rises into its range: reset cause 0. -/
def execVauxRise (s : State) : Host.Outcome State Fault Refusal := .next (coldReset s)

/-- RESET_N low for 1 µs: reset cause 1. -/
def execResetNAssert (s : State) : Host.Outcome State Fault Refusal := .next (if vauxUp s then warmReset s 1 else s)

/-- VCORE valid for 1 ms after a core loss with VAUX held: reset cause 2 (R406, R491). -/
def execVcoreReturn (s : State) : Host.Outcome State Fault Refusal :=
  .next (if vauxUp s ∧ !s.mode.core ∧ !s.guard.heartbeat then
    warmReset (s.modMode fun x => { x with rails := listSet x.rails 1 true }) 2
  else s)

/-- PWRFAIL_N high for 100 ms after a supply-failure Dusk has ended: reset cause 4 (R490). -/
def execPwrfailNHighTimeout (s : State) : Host.Outcome State Fault Refusal :=
  let s1 := s.modMode fun x => { x with pwrfail := false }
  .next (if vauxUp s ∧ s.mode.dev = 7 ∧ s.mode.duskCause = 2 ∧ s.mode.duskStep = 6 then warmReset s1 4 else s1)

/-- VAUX below 1.62 V for 1 µs (R505, R492): the always-on domain is invalid, the core is lost and the strings are undriven. -/
def execVauxLow (s : State) : Host.Outcome State Fault Refusal :=
  let s1 := s.modAod fun a => { a with valid := false }
  let s2 := s1.modDrive fun d => { d with strings := d.strings.map stringOff }
  .next ((s2.modMode fun x => { x with rails := listSet x.rails 0 false, core := false }).modGuard fun g => { g with heartbeat := false })

/-! ### Dawn, steps 1 to 9 (R474) -/

/-- DAWN_FAIL with cause 7 arises before the core is released: it is not logged, and its journal record carries what its
event record would have held (R477, R501, R519). -/
def supplyFail (s : State) : State :=
  let r : EvtRec := { ts := 0, frame := 0, code := 0x0002, path := 0, seq := 0, data := 0x700, sev := 1, tdom := false, at_ := 0 }
  journal (s.modMode fun x => { x with fail := 7 }) (newRecord s 0 0x0002 .internal (evtBytes r) 1)

/-- Dawn waits for its supplies. -/
def awaitsSupplies (s : State) : Bool := s.mode.dev == 0 && s.mode.dawnStep == 1 && s.mode.fail == 0 && !s.mode.core

/-- The supplies are valid: the core is released, its checks run, and the tick starts at 0 (R65, R420, R474 steps 2 and 3). -/
def execDawnSuppliesValid (romFuseOk rngOk : Bool) (s : State) : Host.Outcome State Fault Refusal :=
  if !awaitsSupplies s then .next s
  else
    let s1 := s.modMode fun x => { x with rails := List.replicate 6 true, core := true, dawnStep := 2 }
    if !romFuseOk then .next (dawnFail s1 1)
    else if !rngOk then .next (dawnFail (raise (s1.modCruc fun c => { c with rngFail := true }) 0x1009 0) 2)
    else
      let s2 := s1.modCruc fun c => { c with drbgSeed := c.drbgSeed + 1, drbgRequests := 0 }
      .next ({ s2 with tb := { s2.tb with running := true, tick := 0 } }.modMode fun x => { x with dawnStep := 4 })

/-- The supplies are not valid within 1 s (R477). -/
def execDawnSupplyTimeout (s : State) : Host.Outcome State Fault Refusal :=
  if awaitsSupplies s then .next (supplyFail s) else .next s

/-- The first of 49 consecutive values from `v` that is neither 0 nor used: a seed unlike every other (R309, R321). -/
def pickSeed (used : List Nat) (v : Nat) : Nat :=
  (((List.range 49).map fun i => (v + i) % 2 ^ 32).find? fun x => x != 0 && !used.contains x).getD 1

/-- `n` seeds from the Crucible's random generator, each unlike the others: free values (R309, R321, notes/assumptions/7.md). -/
def drawSeeds : Nat → List Nat → State → List Nat × State
  | 0, used, s => (used, s)
  | n + 1, used, s => let (v, s1) := s.draw 5; drawSeeds n (used ++ [pickSeed used v]) s1

/-- The draws of the 16 channels and the 32 pseudo-channels are seeded (R474 step 9). -/
def seedDraws (s : State) : State :=
  let (l, s1) := drawSeeds 48 [] s
  (s1.modRun fun r => { r with chans := (List.range 16).map fun h => { nth r.chans h {} with lfsr := nth l h 1 } }).modHbm fun h =>
    { h with lfsr := l.drop 16 }

/-- A copy has been judged: its cause is reported, and INGOT_REJECTED raised for one the Crucible refuses (R451). -/
def noteCause (s : State) (c cause : Nat) : State :=
  rejectEvent (s.modMgmt fun m => if c = 0 then { m with causeA := cause } else { m with causeB := cause }) cause

/-- The copy that Dawn selects (R452, R474 step 5): that with the higher SEQ is judged first, the other only if it fails. -/
def selectCopy (s : State) : State × Option Nat :=
  let first := if (readIngot s.flash 0).seq < (readIngot s.flash 1).seq then 1 else 0
  let k := judgeCopy s first false
  let s1 := noteCause s first k
  if k = 0 then (s1, some first)
  else
    let k2 := judgeCopy s1 (otherCopy first) false
    (noteCause s1 (otherCopy first) k2, if k2 = 0 then some (otherCopy first) else none)

/-- HBM3 training of every set point, from FSP 3 to FSP 0 (R301). -/
def trainAll (s : State) (pass : Nat) : State :=
  [3, 2, 1, 0].foldl (fun s f => if nbit pass f then s else raise s 0x0604 (f * 2 ^ 8))
    (s.modHbm fun h => { h with valid := pass, trained := [0, 1, 2, 3].map fun f => if nbit pass f then nth h.trained f 0 + 1 else 0 })

/-- The records of the lamp boards as lane L read them; a board without PRESENT is set aside when the copy is applied (R99). -/
def readBoards (s : State) (eeproms : List (Option (List Byte))) : State :=
  s.modDrive fun d => { d with boards := (List.range 6).map fun b => readBoard true (nth eeproms b none) }

/-- A Dawn after VAUX was lost that finds the mirror set writes an unrecorded-shutdown marker (R369, R467). -/
def markShutdown (s : State) : State :=
  if !s.aod.valid ∧ s.jrn.mirror then raise (journalKind s 9 .internal (leBytes 4 s.jrn.seq) 1) 0x0D0D 0 else s

/-- A selected copy is applied, with what step 9 does beside it. -/
def dawnCopy (s : State) (c : Nat) : State :=
  let s1 := raise s 0x0010 (ingotData .internal c (readIngot s.flash c).seq)
  let s2 := (seedDraws s1).modTherm fun t => { t with awake := 2 ^ 26 - 1, usable := 2 ^ 26 - 1, pend := 0 }
  (markShutdown (dawnApply s2 c)).modMode fun x => { x with dawnStep := 9 }

/-- The fastest mode that the flash declares and the DV9840 supports (R290): 3 = 8D-8D-8D, 2 = 1-4-4, 1 = 4-4-4, 0 = 1-1-1. -/
def flashModeOf (modes : Nat) : Nat := if nbit modes 2 then 3 else if nbit modes 0 then 2 else if nbit modes 1 then 1 else 0

/-- The smallest declared erase type of at least 4 KB (R290). -/
def eraseTypeOf (l : List Nat) : Option Nat :=
  (l.filter (4096 ≤ ·)).foldl (fun (a : Option Nat) e => match a with | some b => some (min b e) | none => some e) none

/-- The flash as Dawn starts it (R290): its mode, page size and erase type; none for a flash failure, which is a missing or invalid
SFDP, or a density outside 64 MB to 1 GB. -/
def startFlash (x : Option Sfdp) : Option (Nat × Nat × Nat) :=
  match x with
  | none => none
  | some t =>
    if t.density < 2 ^ 26 ∨ 2 ^ 30 < t.density then none
    else (eraseTypeOf t.erases).map fun e => (flashModeOf t.modes, t.page, e)

/-- The SFDP tables as Dawn could read them (R290). -/
def flashRead (ok : Bool) (x : Sfdp) : Option Sfdp := if ok then some x else none

/-- The flash, HBM3 and lamp lanes have ended (R474 steps 4 to 9, R477). -/
def execDawnLanesDone (sfdpOk : Bool) (sfdp : Sfdp) (fspPass : Nat) (eeproms : List (Option (List Byte))) (s : State) :
    Host.Outcome State Fault Refusal :=
  if s.mode.dev ≠ 0 ∨ !s.mode.core ∨ s.mode.dawnStep ≠ 4 ∨ s.mode.fail ≠ 0 then .next s
  else
    let flash := startFlash (flashRead sfdpOk sfdp)
    let s1 := trainAll (readBoards (match flash with
      | some (mode, page, unit) => s.modJrn fun j => { j with flashMode := mode, flashPage := page, eraseUnit := unit }
      | none => s) eeproms) fspPass
    if flash.isNone then .next (dawnFail s1 3)
    else if s.fuse.anchors.all Option.isNone then .next (dawnFail s1 4)
    else match selectCopy s1 with
      | (s2, none) => .next (dawnFail s2 5)
      | (s2, some c) => if fspPass = 0 then .next (dawnFail s2 6) else .next (dawnCopy s2 c)

/-! ### Dawn, step 10 (R474, R475) -/

/-- Whether a trip source's condition still stands at the end of Dawn (R475). -/
def sourceStands (s : State) (src : Nat) : Bool :=
  match src with
  | 0 => !(ilkSafe s && s.mode.ilkSinceStep1)
  | 1 => s.guard.disc
  | 5 => zonesMissing s
  | 7 => s.guard.qnLow
  | 9 => classCStands s
  | _ => false

/-- Dawn removes every source whose condition is absent, with HALT and class D (R475). -/
def dawnSources (s : State) : State :=
  let left := ((List.range 12).filter fun k => hasSource s k && sourceStands s k).foldl (fun m k => withBit m k true) 0
  let stays := nbit left 9
  s.modAod fun a => { a with sources := left, halt := stays, cls := if stays then 2 else if left = 0 then 0 else 1 }

/-- The latch is released with path 0 when no source remains; otherwise the device enters QUENCH (R475). -/
def dawnLatch (s : State) : State :=
  if s.aod.sources ≠ 0 then setDevice s 6
  else
    let t := setDevice s 1
    releaseLatch (if t.mgmt.applied then raiseFloor t t.mgmt.inForce else t) .internal

/-- The session-open record and the dirty flag (R369, R467). -/
def recordSession (s : State) : State :=
  journalKind (s.modAod fun a => { a with dirty := true }) 7 .internal
    (leBytes 1 s.mgmt.inForce ++ leBytes 4 s.mgmt.seq ++ leBytes 4 s.aod.cause ++ leBytes 4 s.ann.seq) 0

/-- Step 10: the settings act, the generators and links of outputs with a partition start, the session opens, the latch is
released or retained, and AUTO_SHOW asks for its outputs (R474, R475, R478). -/
def finishDawn (s : State) : State :=
  let s1 := s.modLadle fun l => { l with rt := List.replicate 5 l.act }
  let s2 := outputs.foldl (fun s o => if fsSize s.act o = 0 then s else startGenerator s o) s1
  let s3 := recordSession s2
  let s4 := if ilkSafe s3 then judgeIlk s3 else tripEvent (judgeIlk s3) 0 0 .internal
  let s5 := raise (dawnLatch (dawnSources s4)) 0x0001 0
  outputs.foldl (fun s o => if autoShows s o then requestShow s o true .internal else s) s5

def execDawnDone (s : State) : Host.Outcome State Fault Refusal :=
  if s.mode.dev = 0 ∧ s.mode.fail = 0 ∧ s.mode.dawnStep = 10 ∧ s.ladle.pending.isNone then .next (finishDawn s) else .next s

/-! ### The supply-failure Dusk and the end of every Dusk (R489, R490) -/

/-- An output is stopped at once, without a ramp frame (R490): PARK is sent, or the fast axis stopped. -/
def dropOutput (s : State) (o : Nat) : State :=
  let x := s.outAt o
  if x.mode = 1 ∧ !x.trans then endPattern s o
  else
    let s1 := (stopComposition s o 12).modOut o fun x => { x with trans := true, entry := none, exit := .stopping, held := none }
    let s2 := (stopStrings s1 o).modTg o fun t => { t with composeStopped := true, tm := .idle }
    if isScan (s2.rt o) o then reachStandby (s2.modScan o fun x => { x with allForced := true, driveOn := false, fast := 0 }) o
    else if (s2.portAt o).link = 5 then portSend s2 o 0x10 0
    else reachStandby s2 o

/-- HBM3 enters self-refresh with its clocks stopped, for Dusk (R310, R489). -/
def duskRefresh (s : State) : State :=
  if s.hbm.st = 4 then s.modHbm fun h => { h with srDusk := true }
  else s.modHbm fun h => { enterSelfRefresh h s.tb.tick with st := 4, srDusk := true, drained := false }

/-- The supply-failure Dusk (R490), which takes over a Dusk that runs. -/
def failDusk (s : State) : State :=
  let s1 := raise s 0x0005 0x200
  let s2 := setDevice s1 7
  let s3 := (tripEvent s2 8 0x800 .internal).modMode fun x => { x with duskStep := 1, duskCause := 2, dawnFollows := false }
  let s4 := duskStep1 (abortTraining s3)
  let s5 := outputs.foldl dropOutput s4
  let s6 := duskRefresh s5
  let s7 := { s6 with input := s6.input.map (fun i => { i with st := 0, run := none }) }
  let s8 := duskStep4 s7
  if s8.therm.flashOpen then s8 else s8.modMode fun x => { x with duskStep := 5 }

/-- PWRFAIL_N falls (R490). -/
def execPwrfailNFall (s : State) : Host.Outcome State Fault Refusal :=
  let s1 := raise (s.modMode fun x => { x with pwrfail := true }) 0x0007 0
  if s.mode.dev = 7 ∧ (s.mode.duskStep = 6 ∨ s.mode.duskCause = 2) then .next s1 else .next (failDusk s1)

/-- The window has not opened within 10 s of step 4: what is unwritten stays queued (R489). -/
def execDuskFlashTimeout (s : State) : Host.Outcome State Fault Refusal :=
  if s.mode.dev = 7 ∧ s.mode.duskStep = 4 ∧ !s.therm.flashOpen ∧ s.mode.duskAt + 4000000000 ≤ s.tb.tick then .next (s.modMode fun x => { x with duskStep := 5 }) else .next s

/-- The last step of a Dusk (R489): HBM3 is in self-refresh, DUSK_DONE is raised, and Dawn follows a restart. -/
def endDusk (s : State) : State :=
  let s1 := duskRefresh s
  let s2 := (raise s1 0x0006 0).modMode fun x => { x with duskStep := 6 }
  if s2.mode.dawnFollows then warmReset s2 3 else s2

/-- DUSK_DONE (R489); a training pass that runs ends first (R304). -/
def execDuskDone (s : State) : Host.Outcome State Fault Refusal :=
  if s.mode.dev = 7 ∧ s.mode.duskStep = 5 ∧ ¬ s.hbm.training then .next (endDusk s) else .next s

end Sys2Proof.Machine
end

