-- ==== Sys2Proof/Machine/Dispatch.lean ====
section
/-! DEFINITION. One arm per command of the part: each calls the meaning of its command. -/
namespace Sys2Proof.Machine

/-- The effect of a command on everything but the queue. -/
def exec (i : Instr) (s : State) : Host.Outcome State Fault Refusal :=
  match i with
  | .eventPost o cls idx fire fine payload => Sys2Proof.Machine.execEventPost o cls idx fire fine payload s
  | .eventFire o twinOk => Sys2Proof.Machine.execEventFire o twinOk s
  | .slackClear path v => Sys2Proof.Machine.execSlackClear path v s
  | .tbTickLoRead path => Sys2Proof.Machine.execTbTickLoRead path s
  | .frameCntLoRead path o => Sys2Proof.Machine.execFrameCntLoRead path o s
  | .ptpOfsLoRead path => Sys2Proof.Machine.execPtpOfsLoRead path s
  | .tbReferenceSample err => Sys2Proof.Machine.execTbReferenceSample err s
  | .tbRefLost => Sys2Proof.Machine.execTbRefLost s
  | .tbHoldoverExit => Sys2Proof.Machine.execTbHoldoverExit s
  | .tbLocked => Sys2Proof.Machine.execTbLocked s
  | .frameBoundary o => Sys2Proof.Machine.execFrameBoundary o s
  | .frameHeadPost o => Sys2Proof.Machine.execFrameHeadPost o s
  | .compositionStart o => Sys2Proof.Machine.execCompositionStart o s
  | .waitAllReady o => Sys2Proof.Machine.execWaitAllReady o s
  | .waitRepeat o => Sys2Proof.Machine.execWaitRepeat o s
  | .binningDone o => Sys2Proof.Machine.execBinningDone o s
  | .sprueSpill queue ok => Sys2Proof.Machine.execSprueSpill queue ok s
  | .tileDispatch engine => Sys2Proof.Machine.execTileDispatch engine s
  | .tileCommit engine refillOk stall => Sys2Proof.Machine.execTileCommit engine refillOk stall s
  | .composeLate o => Sys2Proof.Machine.execComposeLate o s
  | .composeFault engine frag => Sys2Proof.Machine.execComposeFault engine frag s
  | .composeRecovered o => Sys2Proof.Machine.execComposeRecovered o s
  | .layerPresent path v => Sys2Proof.Machine.execLayerPresent path v s
  | .warpTileStart o tile => Sys2Proof.Machine.execWarpTileStart o tile s
  | .encodeComplete o => Sys2Proof.Machine.execEncodeComplete o s
  | .lsWrite path addr v => Sys2Proof.Machine.execLsWrite path addr v s
  | .registerWrite path addr v => Sys2Proof.Machine.execRegisterWrite path addr v s
  | .evtReadWrite path v => Sys2Proof.Machine.execEvtReadWrite path v s
  | .ladlePourRequest path v => Sys2Proof.Machine.execLadlePourRequest path v s
  | .ladlePourCancel path => Sys2Proof.Machine.execLadlePourCancel path s
  | .pourChecksDone => Sys2Proof.Machine.execPourChecksDone s
  | .pourCommit corrupt => Sys2Proof.Machine.execPourCommit corrupt s
  | .ladleCopyDone => Sys2Proof.Machine.execLadleCopyDone s
  | .tgRestart o => Sys2Proof.Machine.execTgRestart o s
  | .disableDone k => Sys2Proof.Machine.execDisableDone k s
  | .genlockReference o instant => Sys2Proof.Machine.execGenlockReference o instant s
  | .tgRefLost o => Sys2Proof.Machine.execTgRefLost o s
  | .rlvMessageReceive bytes arrival => Sys2Proof.Machine.execRlvMessageReceive bytes arrival s
  | .rlvForward bytes => Sys2Proof.Machine.execRlvForward bytes s
  | .rlvTimeSend => Sys2Proof.Machine.execRlvTimeSend s
  | .rlvMarkSend o slot => Sys2Proof.Machine.execRlvMarkSend o slot s
  | .rlvLost => Sys2Proof.Machine.execRlvLost s
  | .loadStart o => Sys2Proof.Machine.execLoadStart o s
  | .loadDone o => Sys2Proof.Machine.execLoadDone o s
  | .loadLate o => Sys2Proof.Machine.execLoadLate o s
  | .bchFrameReceive o bytes => Sys2Proof.Machine.execBchFrameReceive o bytes s
  | .bchSilence o => Sys2Proof.Machine.execBchSilence o s
  | .bringupStepTimeout o => Sys2Proof.Machine.execBringupStepTimeout o s
  | .bringupRestart o => Sys2Proof.Machine.execBringupRestart o s
  | .commandEchoTimeout o => Sys2Proof.Machine.execCommandEchoTimeout o s
  | .linkDownTimeout o => Sys2Proof.Machine.execLinkDownTimeout o s
  | .portCmdStatusReq path o kind => Sys2Proof.Machine.execPortCmdStatusReq path o kind s
  | .portCmdTestPattern path o arg => Sys2Proof.Machine.execPortCmdTestPattern path o arg s
  | .fastAxisCapture o => Sys2Proof.Machine.execFastAxisCapture o s
  | .scanLockTimeout o => Sys2Proof.Machine.execScanLockTimeout o s
  | .fastAxisCrossing o t peak => Sys2Proof.Machine.execFastAxisCrossing o t peak s
  | .fastStop o => Sys2Proof.Machine.execFastStop o s
  | .slowStallWindow o mean => Sys2Proof.Machine.execSlowStallWindow o mean s
  | .scanSample o filled => Sys2Proof.Machine.execScanSample o filled s
  | .scanLineEnd o => Sys2Proof.Machine.execScanLineEnd o s
  | .jesdUp o => Sys2Proof.Machine.execJesdUp o s
  | .jesdDown o => Sys2Proof.Machine.execJesdDown o s
  | .jesdSyncError o => Sys2Proof.Machine.execJesdSyncError o s
  | .pdSample k code => Sys2Proof.Machine.execPdSample k code s
  | .pdFault k reading => Sys2Proof.Machine.execPdFault k reading s
  | .pdFaultClear path v => Sys2Proof.Machine.execPdFaultClear path v s
  | .measurementWindowEnd nn isns vhr vk => Sys2Proof.Machine.execMeasurementWindowEnd nn isns vhr vk s
  | .stringOvercurrent nn sense => Sys2Proof.Machine.execStringOvercurrent nn sense s
  | .stringOverlimit nn sense => Sys2Proof.Machine.execStringOverlimit nn sense s
  | .stringFailClear path nn => Sys2Proof.Machine.execStringFailClear path nn s
  | .headroomLow nn vk => Sys2Proof.Machine.execHeadroomLow nn vk s
  | .lampBoardTempUpdate b => Sys2Proof.Machine.execLampBoardTempUpdate b s
  | .stringAdmit => Sys2Proof.Machine.execStringAdmit s
  | .stringReady nn => Sys2Proof.Machine.execStringReady nn s
  | .stringRampTimeout nn => Sys2Proof.Machine.execStringRampTimeout nn s
  | .captureFrameStart inp fmt tRef fine tc rtp metas => Sys2Proof.Machine.execCaptureFrameStart inp fmt tRef fine tc rtp metas s
  | .captureFrameComplete inp skew words => Sys2Proof.Machine.execCaptureFrameComplete inp skew words s
  | .capSignalLost inp => Sys2Proof.Machine.execCapSignalLost inp s
  | .ethPacketReceive inp net seq words => Sys2Proof.Machine.execEthPacketReceive inp net seq words s
  | .capPktLoss inp => Sys2Proof.Machine.execCapPktLoss inp s
  | .capPathLost inp net => Sys2Proof.Machine.execCapPathLost inp net s
  | .ptpMessage offset domain => Sys2Proof.Machine.execPtpMessage offset domain s
  | .ptpLost => Sys2Proof.Machine.execPtpLost s
  | .ethArpIcmp net bytes => Sys2Proof.Machine.execEthArpIcmp net bytes s
  | .dpAuxRequest inp write i2c addr bytes len => Sys2Proof.Machine.execDpAuxRequest inp write i2c addr bytes len s
  | .hostAccessErr addr size write => Sys2Proof.Machine.execHostAccessErr addr size write s
  | .bar2Write addr bytes => Sys2Proof.Machine.execBar2Write addr bytes s
  | .bar2Read addr len => Sys2Proof.Machine.execBar2Read addr len s
  | .bar2Atomic addr => Sys2Proof.Machine.execBar2Atomic addr s
  | .pcieReset => Sys2Proof.Machine.execPcieReset s
  | .hbmFspDrained => Sys2Proof.Machine.execHbmFspDrained s
  | .hbmFspDone => Sys2Proof.Machine.execHbmFspDone s
  | .hbmRetrainStart => Sys2Proof.Machine.execHbmRetrainStart s
  | .hbmTrainSlot => Sys2Proof.Machine.execHbmTrainSlot s
  | .hbmTrainCommit within => Sys2Proof.Machine.execHbmTrainCommit within s
  | .hbmTrainRetry => Sys2Proof.Machine.execHbmTrainRetry s
  | .hbmTempRead temp => Sys2Proof.Machine.execHbmTempRead temp s
  | .hbmRefresh h => Sys2Proof.Machine.execHbmRefresh h s
  | .hbmRefreshDone h => Sys2Proof.Machine.execHbmRefreshDone h s
  | .hbmTransaction runner engine addr write data ecc parity => Sys2Proof.Machine.execHbmTransaction runner engine addr write data ecc parity s
  | .hbmSrEnter => Sys2Proof.Machine.execHbmSrEnter s
  | .hbmSrExit pattern train => Sys2Proof.Machine.execHbmSrExit pattern train s
  | .runnerRequest r h => Sys2Proof.Machine.execRunnerRequest r h s
  | .runnerRelease r h => Sys2Proof.Machine.execRunnerRelease r h s
  | .hbmTokenWaitEnd => Sys2Proof.Machine.execHbmTokenWaitEnd s
  | .lockRequest r h waits count => Sys2Proof.Machine.execLockRequest r h waits count s
  | .lockCommit r addr data parity => Sys2Proof.Machine.execLockCommit r addr data parity s
  | .runnerReset r => Sys2Proof.Machine.execRunnerReset r s
  | .waitCycle members => Sys2Proof.Machine.execWaitCycle members s
  | .lockRollback => Sys2Proof.Machine.execLockRollback s
  | .surfCmdMap path sf => Sys2Proof.Machine.execSurfCmdMap path sf s
  | .surfMapped => Sys2Proof.Machine.execSurfMapped s
  | .surfCmdFree path sf => Sys2Proof.Machine.execSurfCmdFree path sf s
  | .surfCmdBadOp path v => Sys2Proof.Machine.execSurfCmdBadOp path v s
  | .surfRevokeDone sf => Sys2Proof.Machine.execSurfRevokeDone sf s
  | .surfReclaimStart sf => Sys2Proof.Machine.execSurfReclaimStart sf s
  | .surfReclaimed sf => Sys2Proof.Machine.execSurfReclaimed sf s
  | .tlbMiss sf offset runner engine write o layer queue frag => Sys2Proof.Machine.execTlbMiss sf offset runner engine write o layer queue frag s
  | .tlbWalkDone k poison => Sys2Proof.Machine.execTlbWalkDone k poison s
  | .sensorConversion counts => Sys2Proof.Machine.execSensorConversion counts s
  | .temperLevelStep => Sys2Proof.Machine.execTemperLevelStep s
  | .sensorFailHoldEnd => Sys2Proof.Machine.execSensorFailHoldEnd s
  | .extConversion x code bad => Sys2Proof.Machine.execExtConversion x code bad s
  | .journalWriteDone => Sys2Proof.Machine.execJournalWriteDone s
  | .flashWriteWaitTimeout => Sys2Proof.Machine.execFlashWriteWaitTimeout s
  | .droopSample sensor count => Sys2Proof.Machine.execDroopSample sensor count s
  | .droopClear => Sys2Proof.Machine.execDroopClear s
  | .domainWakeRequest d => Sys2Proof.Machine.execDomainWakeRequest d s
  | .domainWakeAdmit => Sys2Proof.Machine.execDomainWakeAdmit s
  | .domainUsable d => Sys2Proof.Machine.execDomainUsable d s
  | .domainSleep d => Sys2Proof.Machine.execDomainSleep d s
  | .annCtrlStart path v => Sys2Proof.Machine.execAnnCtrlStart path v s
  | .annCtrlAbort path => Sys2Proof.Machine.execAnnCtrlAbort path s
  | .annealStepsBegin => Sys2Proof.Machine.execAnnealStepsBegin s
  | .annealPointDone values => Sys2Proof.Machine.execAnnealPointDone values s
  | .annealCheckDone darks again => Sys2Proof.Machine.execAnnealCheckDone darks again s
  | .annealPourWaitTimeout => Sys2Proof.Machine.execAnnealPourWaitTimeout s
  | .calBlockWriteDone => Sys2Proof.Machine.execCalBlockWriteDone s
  | .dowserChange level => Sys2Proof.Machine.execDowserChange level s
  | .zoneSigCheck => Sys2Proof.Machine.execZoneSigCheck s
  | .ilkInputChange a b => Sys2Proof.Machine.execIlkInputChange a b s
  | .ilkDiscrepancy => Sys2Proof.Machine.execIlkDiscrepancy s
  | .quenchNInput low => Sys2Proof.Machine.execQuenchNInput low s
  | .quenchTrip cause => Sys2Proof.Machine.execQuenchTrip cause s
  | .guardCmdQuench path => Sys2Proof.Machine.execGuardCmdQuench path s
  | .guardCmdRelease path => Sys2Proof.Machine.execGuardCmdRelease path s
  | .quenchAutoRelease => Sys2Proof.Machine.execQuenchAutoRelease s
  | .coreLost vcoreLow => Sys2Proof.Machine.execCoreLost vcoreLow s
  | .kdmSubmit path => Sys2Proof.Machine.execKdmSubmit path s
  | .kdmDiscard path keyId => Sys2Proof.Machine.execKdmDiscard path keyId s
  | .kdmPurge path => Sys2Proof.Machine.execKdmPurge path s
  | .sealHostBind path v => Sys2Proof.Machine.execSealHostBind path v s
  | .drbgReseed healthy => Sys2Proof.Machine.execDrbgReseed healthy s
  | .crucMonitorTrip m => Sys2Proof.Machine.execCrucMonitorTrip m s
  | .crucResume => Sys2Proof.Machine.execCrucResume s
  | .sessionHello path peer port bytes => Sys2Proof.Machine.execSessionHello path peer port bytes s
  | .sessionFinish path bytes => Sys2Proof.Machine.execSessionFinish path bytes s
  | .sessionStepTimeout => Sys2Proof.Machine.execSessionStepTimeout s
  | .sessionRequest session seq body mac => Sys2Proof.Machine.execSessionRequest session seq body mac s
  | .sessionResend session seq body mac => Sys2Proof.Machine.execSessionResend session seq body mac s
  | .sessionClose session seq mac => Sys2Proof.Machine.execSessionClose session seq mac s
  | .sessionTimeout session => Sys2Proof.Machine.execSessionTimeout session s
  | .mgmtRead path addr count => Sys2Proof.Machine.execMgmtRead path addr count s
  | .mgmtWrite path addr words => Sys2Proof.Machine.execMgmtWrite path addr words s
  | .mgmtPour path v target => Sys2Proof.Machine.execMgmtPour path v target s
  | .ingotBegin path length => Sys2Proof.Machine.execIngotBegin path length s
  | .ingotEraseDone => Sys2Proof.Machine.execIngotEraseDone s
  | .ingotData path ofs bytes => Sys2Proof.Machine.execIngotData path ofs bytes s
  | .ingotCommit path => Sys2Proof.Machine.execIngotCommit path s
  | .ingotApply path => Sys2Proof.Machine.execIngotApply path s
  | .mgmtTime path ns => Sys2Proof.Machine.execMgmtTime path ns s
  | .revoke path slot => Sys2Proof.Machine.execRevoke path slot s
  | .provision path slot key => Sys2Proof.Machine.execProvision path slot key s
  | .spiWriteFrame bytes => Sys2Proof.Machine.execSpiWriteFrame bytes s
  | .spiReadFrame bytes ready => Sys2Proof.Machine.execSpiReadFrame bytes ready s
  | .spiStatusFrame => Sys2Proof.Machine.execSpiStatusFrame s
  | .vauxRise => Sys2Proof.Machine.execVauxRise s
  | .resetNAssert => Sys2Proof.Machine.execResetNAssert s
  | .dawnSuppliesValid romFuseOk rngOk => Sys2Proof.Machine.execDawnSuppliesValid romFuseOk rngOk s
  | .dawnSupplyTimeout => Sys2Proof.Machine.execDawnSupplyTimeout s
  | .dawnLanesDone sfdpOk sfdp fspPass eeproms => Sys2Proof.Machine.execDawnLanesDone sfdpOk sfdp fspPass eeproms s
  | .dawnDone => Sys2Proof.Machine.execDawnDone s
  | .pwrfailNFall => Sys2Proof.Machine.execPwrfailNFall s
  | .pwrfailNHighTimeout => Sys2Proof.Machine.execPwrfailNHighTimeout s
  | .vauxLow => Sys2Proof.Machine.execVauxLow s
  | .modeCmdShow path outs => Sys2Proof.Machine.execModeCmdShow path outs s
  | .modeCmdStandby path outs => Sys2Proof.Machine.execModeCmdStandby path outs s
  | .modeCmdDusk path => Sys2Proof.Machine.execModeCmdDusk path s
  | .modeCmdRestart path => Sys2Proof.Machine.execModeCmdRestart path s
  | .entryTimeout o => Sys2Proof.Machine.execEntryTimeout o s
  | .duskFlashTimeout => Sys2Proof.Machine.execDuskFlashTimeout s
  | .duskDone => Sys2Proof.Machine.execDuskDone s
  | .vcoreReturn => Sys2Proof.Machine.execVcoreReturn s
  | .heldRequestTimeout o => Sys2Proof.Machine.execHeldRequestTimeout o s
  | .signalChangeMidFrame inp => Sys2Proof.Machine.execSignalChangeMidFrame inp s
  | .syncNHigh o => Sys2Proof.Machine.execSyncNHigh o s
  | .hpdPulseEnd inp => Sys2Proof.Machine.execHpdPulseEnd inp s

end Sys2Proof.Machine
end

