-- ==== Sys2Proof/Machine/Step.lean ====
section
/-! DEFINITION. One step of the machine: the command at the front of the queue, or one tick. -/
namespace Sys2Proof.Machine

/-- With no command waiting, a tick passes while TICK runs (R5, R22, R65); the part idles otherwise. That a tick passes
exactly when no command waits is a DESIGN CHOICE (notes/assumptions/8.md). -/
def idle (s : State) : State :=
  if s.tb.running then tickPass s else s

/-- Take the command at the front of the queue and run it with the rest of the queue. -/
def step (s : State) : Host.Outcome State Fault Refusal :=
  match s.pending with
  | [] => .next (idle s)
  | c :: rest => exec c { s with pending := rest }

/-- The state with the command that a word spells put at the front of its queue. -/
def State.withFetchWord (s : State) (nbits w : Nat) : State :=
  match decodeTableWord nbits w with
  | none => s
  | some c => { s with pending := c :: s.pending }

end Sys2Proof.Machine
end

