-- ==== Sys2Proof/Safety.lean ====
section
/-! DEFINITION. What a safe run keeps, in the terms the claims use: the shape of the state, the canonical form of its memories,
and fuses that are only ever burnt. -/
namespace Sys2Proof.Machine

/-- How many outputs, inputs, strings and settings copies the state holds. -/
def State.shape (s : State) : List Nat :=
  [s.seq.length, s.enc.length, s.tg.length, s.comp.length, s.port.length, s.scan.length, s.input.length, s.mode.outs.length,
   s.drive.strings.length, s.ladle.rt.length]

/-- Four outputs, eight inputs, 24 strings and five copies of the settings in force (R8). -/
def State.wellShaped (s : State) : Prop := s.shape = [4, 4, 4, 4, 4, 4, 8, 4, 24, 5]

/-- The flash, the frame store and HBM3 are in canonical form. -/
def State.memoriesWf (s : State) : Prop :=
  Memory.wf flashDefault s.flash = true ∧ Memory.wf ramDefault s.fs = true ∧ Memory.wf ramDefault s.hbm.mem = true

/-- One fuse array is a later state of another (R1, R419 to R422, R454): the factory's values stay, a written anchor slot keeps
its hash, a burnt revoke bit stays burnt, and the security floor never falls. -/
def FuseState.burntFrom (a b : FuseState) : Prop :=
  b.devId = a.devId ∧ b.code = a.code ∧ b.hbmGb = a.hbmGb ∧ b.major = a.major ∧ b.minor = a.minor ∧ b.rom = a.rom ∧
  b.sensors = a.sensors ∧ b.cert = a.cert ∧ a.floor ≤ b.floor ∧
  (∀ (i : Nat) (k : List Byte), a.anchors[i]? = some (some k) → b.anchors[i]? = some (some k)) ∧
  (∀ i : Nat, a.revoked[i]? = some true → b.revoked[i]? = some true)

end Sys2Proof.Machine
end

