-- ==== Sys2Proof/Certificates/Slice0/Obligations.lean ====
section
/-! DEFINITION. The statements about the model, one family of commands or one kind of state each. -/
open Sys2Proof Sys2Proof.Machine

/-- A step takes the command at the front of the queue and runs it with the queue's rest. -/
def Obligations.StepRunsTheFrontCommand : Prop :=
  ∀ (s : State) (c : Instr) (rest : List Instr), s.pending = c :: rest → step s = exec c { s with pending := rest }

/-- R469 and the table of classes: no command ends in a fault or a refusal. A command never adds to the queue of waiting
commands nor takes from it: only the outside world does. R5, R22, R65: with no command waiting, TICK counts by one
while it runs and the drive die's replica with it; events for the drive die whose fire time is no more than 32 ticks
away are handed over, and nothing else changes while no post waits for room and no deferred second fault waits. Before
Dawn has started the tick, nothing changes. That the tick passes when no command waits is the model's choice
(assumption 8). -/
def Obligations.CommandsCompleteAndLeaveTheQueue : Prop :=
  (∀ (c : Instr) (s : State), ∃ t, exec c s = .next t) ∧
  (∀ (c : Instr) (s t : State), exec c s = .next t → t.pending = s.pending) ∧
  ((∀ s : State, s.pending = [] → s.tb.running = false → step s = .next s) ∧
   (∀ s : State, s.pending = [] → s.tb.running = true → s.log.second = none → (∀ o, (s.seqAt o).waiting = none) →
     ∃ t, step s = .next t ∧ t = { s with
       tb := { s.tb with tick := s.tb.tick + 1 }
       drive := { s.drive with replica := s.tb.tick + 1, replicaFine := t.drive.replicaFine }
       seq := (s.seq.mapIdx fun o q => if o < 4 then { q with queue := q.queue.map fun p =>
         if (p.cls = 1 ∨ p.cls = 2) ∧ p.fire ≤ s.tb.tick + 1 + 32 then { p with handed := true } else p } else q)
       free := t.free } ∧
       (t.drive.replicaFine = s.drive.replicaFine ∨ (-1 ≤ t.drive.replicaFine ∧ t.drive.replicaFine ≤ 1))))

/-- R405, R470 to R474: what VAUX rising leaves. The device is in DAWN with every output in STANDBY, parked; the Quench
latch is set with the one source DAWN, FIRST is DAWN, the cause is 0; TICK stands at 0; no command, event, Pour, walk
or session waits. -/
def Obligations.ResetLeavesDawn : Prop :=
  let s := State.reset
  s.mode.dev = 0 ∧ (∀ x ∈ s.mode.outs, x.mode = 1 ∧ x.trans = false ∧ x.parked = true) ∧
  s.aod.latch = true ∧ s.aod.sources = 2 ^ 11 ∧ s.aod.first = 11 ∧ s.aod.halt = false ∧ s.aod.cls = 0 ∧ s.aod.cause = 0 ∧
  s.tb.tick = 0 ∧ s.tb.running = false ∧ s.pending = [] ∧ s.log.records = [] ∧ s.log.head = 0 ∧ s.ladle.pending = none ∧
  (∀ q ∈ s.seq, q.queue = [] ∧ q.waiting = none ∧ q.unposted = [] ∧ q.runningMin = 0xFFFFFFFF) ∧ s.surf.walks = [] ∧
  (∀ x ∈ s.cruc.sessions, x = none) ∧ s.flash = [] ∧ s.fs = [] ∧ s.hbm.mem = []

/-- The canonical memories and the shape of the state hold at reset. -/
def Obligations.ResetIsWellFormed : Prop :=
State.reset.wellShaped ∧ State.reset.memoriesWf

/-- Every step keeps the flash, the frame store and HBM3 in canonical form (so that equal contents are equal data) and the
four outputs, eight inputs, 24 strings and five copies of the settings that the part has (R8). -/
def Obligations.EveryStepKeepsShapeAndMemories : Prop :=
  ∀ s t : State, s.wellShaped → s.memoriesWf → step s = .next t → t.wellShaped ∧ t.memoriesWf

/-- R1, R419 to R422, R454, R460, R472: no command changes what the factory fused; a written anchor slot keeps its hash, a
burnt revoke bit stays burnt, and the security floor never falls, through every reset. -/
def Obligations.EveryStepOnlyBurnsFuses : Prop :=
  ∀ s t : State, step s = .next t → s.fuse.burntFrom t.fuse

/-- R472, R473: every Dawn sets the latch with source DAWN and adds that source to SOURCES; causes 1 to 4 keep the
sources, HALT flag and CLASS of the always-on domain. -/
def Obligations.EveryDawnSetsTheLatch : Prop :=
  (∀ s : State, ∃ t, exec .vauxRise s = .next t ∧ t.mode.dev = 0 ∧ t.aod.latch = true ∧ t.aod.sources = 2 ^ 11 ∧ t.aod.cause = 0) ∧
  (∀ (s : State) (c : Instr) (cause : Nat),
    (c = .resetNAssert ∧ cause = 1 ∧ vauxUp s = true) ∨
    (c = .vcoreReturn ∧ cause = 2 ∧ vauxUp s = true ∧ s.mode.core = false ∧ s.guard.heartbeat = false) ∨
    (c = .duskDone ∧ cause = 3 ∧ s.mode.dev = 7 ∧ s.mode.duskStep = 5 ∧ s.mode.dawnFollows = true ∧ s.hbm.training = false) ∨
    (c = .pwrfailNHighTimeout ∧ cause = 4 ∧ vauxUp s = true ∧ s.mode.dev = 7 ∧ s.mode.duskCause = 2 ∧ s.mode.duskStep = 6) →
    ∃ t, exec c s = .next t ∧ t.mode.dev = 0 ∧ t.aod.cause = cause ∧ t.aod.latch = true ∧ hasSource t 11 = true ∧
      (∀ k, hasSource s k = true → hasSource t k = true) ∧ (∀ k, k ≠ 11 → hasSource t k = true → hasSource s k = true) ∧
      t.aod.halt = s.aod.halt ∧ t.aod.cls = s.aod.cls ∧ t.aod.dawns = satAdd 0xFFFF s.aod.dawns 1)

/-- R472: what each reset keeps. The fuses and the flash outlive every reset, the pins keep their levels, and everything
else stands as right after reset; only VAUX's loss makes the always-on domain invalid. R490, R492, R505: PWRFAIL_N
high again ends no Dusk that still runs; VAUX low for 1 µs loses the core and the always-on domain and leaves every
string undriven. -/
def Obligations.ResetsKeepAndSuppliesLose : Prop :=
  ((∀ s : State, ∃ t, exec .vauxRise s = .next t ∧
     t = { State.reset with fuse := s.fuse, flash := s.flash, free := s.free, pending := s.pending, mgmt := t.mgmt, guard := t.guard,
                            mode := t.mode, ann := t.ann } ∧
     t.mgmt = { State.reset.mgmt with layout := s.mgmt.layout } ∧
     t.guard = { State.reset.guard with ilkA := s.guard.ilkA, ilkB := s.guard.ilkB, qnLow := s.guard.qnLow } ∧
     t.ann = { State.reset.ann with dowser := s.ann.dowser } ∧ t.mode = { State.reset.mode with pwrfail := s.mode.pwrfail }) ∧
   (∀ s : State, vauxUp s = true → ∃ t, exec .resetNAssert s = .next t ∧
     t = { State.reset with fuse := s.fuse, flash := s.flash, free := s.free, pending := s.pending, mgmt := t.mgmt, guard := t.guard,
                            mode := t.mode, ann := t.ann, aod := t.aod } ∧
     t.aod.valid = true ∧ t.aod.dirty = s.aod.dirty ∧ t.aod.lost = s.aod.lost ∧ t.aod.dropped = 0 ∧
     (s.jrn.writing = none → t.aod.queue = s.aod.queue) ∧
     t.mode = { State.reset.mode with rails := s.mode.rails, pwrfail := s.mode.pwrfail }) ∧
   (∀ s : State, vauxUp s = false → exec .resetNAssert s = .next s ∧ exec .vcoreReturn s = .next s) ∧
   (∀ s : State, vauxUp s = true → exec .resetNAssert s = .next (warmReset s 1) ∧
     (s.mode.core = false → s.guard.heartbeat = false →
       exec .vcoreReturn s = .next (warmReset (s.modMode fun x => { x with rails := listSet x.rails 1 true }) 2)) ∧
     (s.mode.core = true ∨ s.guard.heartbeat = true → exec .vcoreReturn s = .next s))) ∧
  ((∀ s : State, ∃ t, exec .vauxLow s = .next t ∧
     t = { s with aod := { s.aod with valid := false }, drive := { s.drive with strings := s.drive.strings.map stringOff },
                  guard := { s.guard with heartbeat := false }, mode := { s.mode with rails := listSet s.mode.rails 0 false, core := false } } ∧
     vauxUp t = false ∧ ∀ x ∈ t.drive.strings, x.cmd = 0 ∧ x.stageOn = false) ∧
   (∀ s : State, s.mode.dev ≠ 7 ∨ s.mode.duskCause ≠ 2 ∨ s.mode.duskStep ≠ 6 →
     exec .pwrfailNHighTimeout s = .next { s with mode := { s.mode with pwrfail := false } }))

/-- R498: the 32 bytes of an event record, little-endian, with the CRC-16 over bytes 0 to 29. R498, R499, R501, R519: an
event raised while the core runs takes the next number, with the time, frame, path and data of its instant; it comes
after the records of its instant with lower codes (the order of equal instants: assumption 12); the log keeps 1,024
records. Below AUDIT_MIN nothing else changes but the interrupts it signals. While the core does not run nothing is
logged. R520: a limited event is raised when at least its interval of local time has passed since the last record of
the same event with the same key; a suppressed one leaves no record and does not restart the interval, and no other
key is affected. -/
def Obligations.EventsAreRecorded : Prop :=
  (∀ r : EvtRec, (evtBytes r).length = 32 ∧
     leNat (((evtBytes r).drop 0).take 8) = r.ts % 2 ^ 64 ∧ leNat (((evtBytes r).drop 8).take 4) = r.frame % 2 ^ 32 ∧
     leNat (((evtBytes r).drop 12).take 2) = r.code % 2 ^ 16 ∧ leNat (((evtBytes r).drop 14).take 2) = r.path % 16 + 16 * (r.seq % 4096) ∧
     leNat (((evtBytes r).drop 16).take 8) = r.data % 2 ^ 64 ∧ leNat (((evtBytes r).drop 24).take 1) = r.sev % 256 ∧
     leNat (((evtBytes r).drop 25).take 1) = (if r.tdom then 1 else 0) ∧ leNat (((evtBytes r).drop 26).take 4) = 0 ∧
     leNat (((evtBytes r).drop 30).take 2) = crc16 ((evtBytes r).take 30) % 2 ^ 16) ∧
  ((∀ (s : State) (code data : Nat) (path : PathId), s.mode.core = false → raiseP s code data path = s) ∧
   (∀ (s : State) (code data : Nat) (path : PathId), s.mode.core = true → evtSev code < auditMin s →
     let t := raiseP s code data path
     let r : EvtRec := { ts := (stamp s).1, frame := frameStamp s, code := code, path := pathNum path, seq := s.log.head % 4096,
                         data := data % 2 ^ 64, sev := evtSev code, tdom := (stamp s).2, at_ := s.tb.tick }
     t = { s with log := t.log, pcie := { s.pcie with msixLast := t.pcie.msixLast, msixSent := t.pcie.msixSent }
                  mgmt := { s.mgmt with irq := t.mgmt.irq } } ∧
     t.log = { s.log with records := t.log.records, head := (s.log.head + 1) % 2 ^ 32 } ∧
     t.log.records.length = min 1024 (s.log.records.length + 1) ∧
     ((∀ e ∈ s.log.records, e.at_ = s.tb.tick → e.code ≤ code) → t.log.records = (r :: s.log.records).take 1024) ∧
     t.mgmt.irq = (s.mgmt.irq || s.act.bit 0x80C (evtSev code)))) ∧
  (∀ (s : State) (code key data interval : Nat) (path : PathId),
     (∀ t, lastRaised s code key = some t → localNs s < t + interval → raiseLimited s code key data interval path = s) ∧
     ((∀ t, lastRaised s code key = some t → t + interval ≤ localNs s) → ∃ u : State,
       raiseLimited s code key data interval path = raiseP u code data path ∧
       u = { s with log := { s.log with limits := u.log.limits } } ∧ lastRaised u code key = some (localNs s) ∧
       ∀ c k, (c, k) ≠ (code, key) → lastRaised u c k = lastRaised s c k))

/-- R23, R24, R66, R86: a post is acknowledged with a slack of fire time minus TICK; one in time joins the queue of its
output, whether it is the front event of its sequencer's list or, with the list empty, an event of the present frame.
R20, R71, R86, R88: what a post does that does not join the queue at once. A reserved class is refused; an event that
is not the front one of its sequencer's list does not overtake it; a full queue keeps a post waiting; an event of a
held frame, a mark apart, is acknowledged and discarded. R24, R25: a late post never joins the queue: it is counted,
its slack joins the minima (a negative one as 0) and the output is held and darkened for its frame. -/
def Obligations.PostedEvents : Prop :=
  (∀ (s : State) (o : Fin 4) (cls idx fire fine payload : Nat),
     cls ≤ 5 → (s.seqAt o).waiting = none → hasRoom (s.seqAt o) = true →
     (s.seqAt o).holding = false → (s.portAt o).darkByLink = false →
     s.tb.tick + minLead (s.rt o) o cls ≤ resolveFire s.tb.tick fire →
     ((s.seqAt o).unposted = [] → ∃ p : Post,
       exec (.eventPost o cls idx fire fine payload) s =
         .next (s.modSeq o fun q => { q with posts := (s.seqAt o).posts + 1, waiting := none, queue := insertPost p q.queue }) ∧
       p.cls = cls ∧ p.idx = idx ∧ p.fire = resolveFire s.tb.tick fire ∧ p.fine = fine ∧ p.payload = payload ∧
       p.slack = (resolveFire s.tb.tick fire : Int) - s.tb.tick ∧ p.frame = (s.tgAt o).counter) ∧
     (∀ (e : Post) (rest : List Post), (s.seqAt o).unposted = e :: rest → e.is cls idx (resolveFire s.tb.tick fire) fine payload = true →
       ∃ p : Post, exec (.eventPost o cls idx fire fine payload) s =
         .next (s.modSeq o fun q => { q with unposted := rest, posts := (s.seqAt o).posts + 1, waiting := none, queue := insertPost p q.queue }) ∧
       p = { e with slack := (resolveFire s.tb.tick fire : Int) - s.tb.tick, ord := p.ord })) ∧
  ((∀ (s : State) (o : Fin 4) (cls idx fire fine payload : Nat), 5 < cls →
     exec (.eventPost o cls idx fire fine payload) s = .next s) ∧
   (∀ (s : State) (o : Fin 4) (cls idx fire fine payload : Nat) (e : Post) (rest : List Post), (s.seqAt o).unposted = e :: rest →
     e.is cls idx (resolveFire s.tb.tick fire) fine payload = false → exec (.eventPost o cls idx fire fine payload) s = .next s) ∧
   (∀ (s : State) (o : Fin 4) (cls idx fire fine payload : Nat), cls ≤ 5 → (s.seqAt o).waiting = none → (s.seqAt o).unposted = [] →
     hasRoom (s.seqAt o) = false → ∃ p : Post,
       exec (.eventPost o cls idx fire fine payload) s =
         .next (s.modSeq o fun q => { q with posts := (s.seqAt o).posts + 1, waiting := some p }) ∧
       p.cls = cls ∧ p.idx = idx ∧ p.fire = resolveFire s.tb.tick fire ∧ p.fine = fine ∧ p.payload = payload) ∧
   (∀ (s : State) (o : Fin 4) (cls idx fire fine payload : Nat), cls ≤ 4 → (s.seqAt o).waiting = none → (s.seqAt o).unposted = [] →
     hasRoom (s.seqAt o) = true → (s.seqAt o).holding = true → (s.tgAt o).counter ≤ (s.seqAt o).holdUntil →
     exec (.eventPost o cls idx fire fine payload) s =
       .next (s.modSeq o fun q => { q with posts := (s.seqAt o).posts + 1, waiting := none }))) ∧
  (∀ (s : State) (o : Fin 4) (cls idx fire fine payload : Nat),
     s.wellShaped → cls ≤ 5 → (s.seqAt o).waiting = none → (s.seqAt o).unposted = [] → hasRoom (s.seqAt o) = true →
     (s.seqAt o).holding = false → (s.portAt o).darkByLink = false →
     resolveFire s.tb.tick fire < s.tb.tick + minLead (s.rt o) o cls →
     exec (.eventPost o cls idx fire fine payload) s = .next (holdFaultCore (s.modSeq o fun q => { q with
         posts := (s.seqAt o).posts + 1
         waiting := none
         lateCount := satAdd 0xFFFFFFFF q.lateCount 1
         runningMin := min q.runningMin (resolveFire s.tb.tick fire - s.tb.tick)
         slackRunMin := min q.slackRunMin (resolveFire s.tb.tick fire - s.tb.tick) })
       o (s.tgAt o).counter (resolveFire s.tb.tick fire) s.tb.tick))

/-- R66: local time is floor(TICK × 5 / 2); PTP time adds the servo's offset; the 56-bit fire time of a post stands for
the TICK value with those 56 low bits that lies within ±2^55 ticks of the present count. -/
def Obligations.LocalPtpAndFireTimes : Prop :=
  (∀ s : State, localNs s = s.tb.tick * 5 / 2) ∧
  (∀ s : State, 0 ≤ (localNs s : Int) + s.ptp.offset → (ptpNs s : Int) = localNs s + s.ptp.offset) ∧
  (∀ now f : Nat, 2 ^ 55 ≤ now ∨ f % 2 ^ 56 ≤ now + 2 ^ 55 → resolveFire now f % 2 ^ 56 = f % 2 ^ 56 ∧
    now ≤ resolveFire now f + 2 ^ 55 ∧ resolveFire now f ≤ now + 2 ^ 55)

/-- R21: the queue of an output stays in order of fire time and fine offset, and a post comes after those of its instant
that were posted before it and before every later one. R21, R25, R71, R401: the event at the front of the queue fires
at its target and its slack joins the minima; a mark has no target inside the part; an event that the twin copies
disagree on is withheld and trips. -/
def Obligations.EventsKeepTheirOrderAndFire : Prop :=
  (∀ (p : Post) (q : List Post),
     (q.Pairwise fun a b => a.fire < b.fire ∨ (a.fire = b.fire ∧ a.fine ≤ b.fine)) →
     ((insertPost p q).Pairwise fun a b => a.fire < b.fire ∨ (a.fire = b.fire ∧ a.fine ≤ b.fine)) ∧
     insertPost p q = (q.filter fun a => decide (a.fire < p.fire ∨ (a.fire = p.fire ∧ a.fine ≤ p.fine))) ++ p ::
       q.filter fun a => decide ¬(a.fire < p.fire ∨ (a.fire = p.fire ∧ a.fine ≤ p.fine))) ∧
  ((∀ (s : State) (o : Fin 4) (p : Post) (rest : List Post),
     (s.seqAt o).queue = p :: rest → p.cls = 1 → p.idx < 6 →
     exec (.eventFire o true) s = .next (ackWaiting (applyAmplitude
       ((s.modSeq o fun q => { q with queue := rest }).modSeq o fun q => { q with
         runningMin := min q.runningMin p.slack.toNat, slackRunMin := min q.slackRunMin p.slack.toNat })
       o p.idx (if (frontBuf s o).dark then 0 else p.payload % 65536)) o)) ∧
   (∀ (s : State) (o : Fin 4) (p : Post) (rest : List Post),
     (s.seqAt o).queue = p :: rest → (s.seqAt o).waiting = none → p.cls = 5 →
     exec (.eventFire o true) s = .next ((s.modSeq o fun q => { q with queue := rest }).modSeq o fun q => { q with
         runningMin := min q.runningMin p.slack.toNat, slackRunMin := min q.slackRunMin p.slack.toNat })) ∧
   (∀ (s : State) (o : Fin 4) (p : Post) (rest : List Post),
     (s.seqAt o).queue = p :: rest →
     exec (.eventFire o false) s = .next (ackWaiting (tripEvent
       ((s.modSeq o fun q => { q with queue := rest }).modGuard fun g => { g with
         twinCount := satAdd 0xFFFF g.twinCount 1, twinCls := p.cls, twinOut := o, twinIdx := p.idx })
       4 (guardData o 4 0) .internal) o)))

/-- R25, R65, R233, R280, R458: SLACK_CTRL resets the minima and late counts of the outputs it names; a read of
TB_TICK_LO, FRAME_CNT_LO_n or PTP_OFS_LO answers the low word and latches the high one. Nothing else changes. -/
def Obligations.ClearAndLatchingReads : Prop :=
  (∀ (s : State) (path : PathId) (v : Word), serves s path = true →
    exec (.slackClear path v) s = .next { s with seq := (s.seq.mapIdx fun o q =>
      if o < 4 ∧ nbit v.toNat o = true then { q with slackRunMin := 0xFFFFFFFF, lateCount := 0 } else q) }) ∧
  (∀ (s : State) (path : PathId), serves s path = true → hasRole s path 0 = true →
    exec (.tbTickLoRead path) s = .next { s with
      tb := { s.tb with tickHi := BitVec.ofNat 32 (s.tb.tick / 2 ^ 32) }
      mgmt := { s.mgmt with answer := [BitVec.ofNat 32 s.tb.tick], answerStatus := 0 } }) ∧
  (∀ (s : State) (path : PathId) (o : Fin 4), serves s path = true → hasRole s path 0 = true →
    exec (.frameCntLoRead path o) s = .next ((s.modTg o fun t => { t with cntHi := BitVec.ofNat 32 ((s.tgAt o).counter / 2 ^ 32) }).modMgmt
      fun m => { m with answer := [BitVec.ofNat 32 (s.tgAt o).counter], answerStatus := 0 })) ∧
  (∀ (s : State) (path : PathId), serves s path = true → hasRole s path 0 = true →
    exec (.ptpOfsLoRead path) s = .next { s with
      ptp := { s.ptp with offHi := BitVec.ofNat 32 (wrapInt 64 s.ptp.offset / 2 ^ 32) }
      mgmt := { s.mgmt with answer := [BitVec.ofNat 32 (wrapInt 64 s.ptp.offset)], answerStatus := 0 } })

/-- R67, R68: a sample of the selected reference is measured against its band, its interval and its frequency, and gives
the correction a new target within ±200 ppm; TICK and every posted event stay. However many ticks pass, the correction
moves no faster than the slew limit. The loop's own law is a free value (assumption 7). R67, R69: a reference without
an edge for its interval, or more than 200 ppm off, is lost: holdover, in which the correction makes for the mean of
the last 10 s, with TB_HOLDOVER; 1 s of validity relocks; a phase error that has stayed within its band for its time
locks with TB_LOCKED. TICK never steps. -/
def Obligations.TimebaseReferences : Prop :=
  ((∀ (s : State) (err : Int), refSel (s.rt 4) ≠ 0 → s.tb.phase ≠ 3 →
     ∃ t, exec (.tbReferenceSample err) s = .next t ∧
       t = { s with tb := { s.tb with
         phaseErr := err, refValid := true, sample := s.tb.tick, phase := if s.tb.phase = 0 then 1 else s.tb.phase
         validSince := if s.tb.refValid then s.tb.validSince else s.tb.tick
         bandSince := if err.natAbs ≤ (lockBand (s.rt 4)).1 then some (s.tb.bandSince.getD s.tb.tick) else none
         offset := refOffset (s.rt 4) s.tb err
         corr := corrAt (s.rt 4) s.tb s.tb.tick, target := t.tb.target, slewAt := s.tb.tick, knots := t.tb.knots } } ∧
       -3276800 ≤ t.tb.target ∧ t.tb.target ≤ 3276800) ∧
   (∀ s : State, refSel (s.rt 4) ≠ 0 → s.tb.phase = 3 → ∀ err : Int, ∃ t, exec (.tbReferenceSample err) s = .next t ∧
     t.tb.corr = s.tb.corr ∧ t.tb.target = s.tb.target ∧ t.tb.phase = 3 ∧ t.tb.refValid = true ∧ t.tb.tick = s.tb.tick) ∧
   (∀ (m : WordMap) (t : TbState) (a b : Nat), t.slewAt ≤ a → a ≤ b →
     corrAt m t b - corrAt m t a ≤ slewStep m (b - a) ∧ corrAt m t a - corrAt m t b ≤ slewStep m (b - a)) ∧
   (∀ (m : WordMap) (t : TbState) (x : Rat) (n : Nat), -3276800 ≤ t.corr → t.corr ≤ 3276800 → -3276800 ≤ t.target → t.target ≤ 3276800 →
     -3276800 ≤ corrAt m (steer m t x) n ∧ corrAt m (steer m t x) n ≤ 3276800)) ∧
  ((∀ s : State, refSel (s.rt 4) ≠ 0 → refGone (s.rt 4) s.tb = true → s.tb.phase ≠ 3 → ∃ t : TbState,
     exec .tbRefLost s = .next (raise { s with tb := t } 0x0201 0) ∧
     t = { s.tb with phase := 3, refValid := false, bandSince := none, offset := 0, corr := corrAt (s.rt 4) s.tb s.tb.tick
                     target := max (-3276800) (min 3276800 (meanCorr (s.rt 4) s.tb)), slewAt := s.tb.tick, knots := t.knots }) ∧
   (∀ s : State, refSel (s.rt 4) = 0 ∨ refGone (s.rt 4) s.tb = false → exec .tbRefLost s = .next s) ∧
   (∀ s : State, s.tb.phase = 3 → refGone (s.rt 4) s.tb = false → s.tb.validSince + 400000000 ≤ s.tb.tick →
     exec .tbHoldoverExit s = .next { s with tb := { s.tb with phase := 1, bandSince := none } }) ∧
   (∀ s : State, refSel (s.rt 4) ≠ 0 → s.tb.phase = 1 → lockHolds (s.rt 4) s.tb = true →
     exec .tbLocked s = .next (raise { s with tb := { s.tb with phase := 2 } } 0x0202 0)) ∧
   (∀ (m : WordMap) (t : TbState), lockHolds m t = true ↔ ∃ b, t.bandSince = some b ∧
     b + (if refSel m = 2 then 4000000000 else 400000000) ≤ t.tick))

/-- R240 to R243, R69: a message that fails its CRC is counted and dropped, one of another root raises RLV_ROOT_MISMATCH;
TIME gives the mapping of root instants to local ones, FRAME announces a stream's next frame start and lets the
generators that follow it count it as a reference again; a forwarding device adds its hop, its cable and 1,600 fine
steps and makes the CRC anew; the root sends TIME with its TICK; a lost link loses the mapping and every generator
that follows a stream. -/
def Obligations.RelvorMessages : Prop :=
  (∀ (s : State) (b : List Byte) (t : Nat), rlvCrcOk b = false →
    exec (.rlvMessageReceive b t) s = .next { s with rlv := { s.rlv with crcErrs := min 0xFF (s.rlv.crcErrs + 1) } }) ∧
  (∀ (s : State) (b : List Byte) (t : Nat), rlvCrcOk b = true → msgField b 2 2 % 2048 ≠ (s.rt 4).fld 0x20200 22 12 →
    exec (.rlvMessageReceive b t) s = .next (raise s 0x0232 0)) ∧
  (∀ (s : State) (b : List Byte) (t : Nat), rlvCrcOk b = true → msgField b 2 2 % 2048 = (s.rt 4).fld 0x20200 22 12 → msgField b 0 1 = 1 →
    refSel (s.rt 4) ≠ 3 →
    exec (.rlvMessageReceive b t) s = .next { s with rlv := { s.rlv with
      map := some ((t : Int) - 25 * msgField b 8 8 - (msgField b 4 3 + rlvCable (s.rt 4)))
      runMaps := (((t : Int) - 25 * msgField b 8 8 - (msgField b 4 3 + rlvCable (s.rt 4))) :: s.rlv.runMaps).take 16
      hops := msgField b 1 1 % 16, origin := msgField b 2 2 % 2048, state := if s.rlv.state = 2 then 2 else 1 } }) ∧
  (∀ (s : State) (b : List Byte) (t k : Nat), rlvCrcOk b = true → msgField b 2 2 % 2048 = (s.rt 4).fld 0x20200 22 12 → msgField b 0 1 = 2 →
    k = msgField b 1 1 / 16 % 4 → ∃ u, exec (.rlvMessageReceive b t) s = .next u ∧ u = { s with rlv := u.rlv, tg := u.tg } ∧
      u.rlv.map = s.rlv.map ∧ u.rlv.sent = s.rlv.sent ∧
      (∀ x, s.rlv.map = some x → u.rlv.announced = listSet s.rlv.announced k
        (some ((25 * (msgField b 8 8 + msgField b 24 4 % 2 ^ 27 : Nat) + (msgField b 24 4 / 2 ^ 27 : Nat) + x).toNat, msgField b 16 8))) ∧
      ∀ o : Fin 4, u.tgAt o = if genSrc (s.rt o) o = 3 ∧ srcIdx (s.rt o) o = k then { s.tgAt o with refLost := false } else s.tgAt o) ∧
  (∀ (s : State) (b : List Byte), rlvRoot (s.rt 4) = false → rlvCrcOk b = true →
    msgField b 2 2 % 2048 = (s.rt 4).fld 0x20200 22 12 → (s.rt 4).fld 0x20200 30 28 ≠ 0 →
    ∃ x : List Byte, exec (.rlvForward b) s = .next { s with rlv := { s.rlv with sent := (x :: s.rlv.sent).take 16 } } ∧
      x.length = 30 ∧ msgField x 0 1 = msgField b 0 1 ∧
      msgField x 1 1 = msgField b 1 1 / 16 * 16 + (msgField b 1 1 + 1) % 16 ∧ msgField x 2 2 = msgField b 2 2 ∧
      msgField x 4 3 = (msgField b 4 3 + rlvCable (s.rt 4) + 1600) % 2 ^ 24 ∧ (x.drop 7).take 21 = (b.drop 7).take 21) ∧
  (∀ s : State, rlvRoot (s.rt 4) = true →
    exec .rlvTimeSend s = .next (rlvSend s (rlvBytes 1 0 0 (rlvId (s.rt 4)) 0 s.tb.tick 0 0 0))) ∧
  (∀ (s : State) (o : Fin 4) (slot : Nat) (p : Post), ((s.seqAt o).queue.filter fun p => p.cls == 5)[slot]? = some p →
    rlvRoot (s.rt 4) = true → nbit (rlvExport (s.rt 4)) o = true → s.tb.tick + 2000 ≤ p.fire →
    exec (.rlvMarkSend o slot) s =
      .next (rlvSend s (rlvBytes 3 0 o (rlvId (s.rt 4)) 0 s.tb.tick (p.payload % 256) (p.fire - s.tb.tick) p.fine))) ∧
  (∀ s : State, s.rlv.state = 1 ∨ s.rlv.state = 2 → refSel (s.rt 4) ≠ 3 → (∀ o ∈ outputs, genSrc (s.rt o) o ≠ 3) →
    ∃ t, exec .rlvLost s = .next t ∧ t = raise { s with rlv := { s.rlv with state := 3, runMaps := [], map := none } } 0x0231 0)

/-- R233, R253: a frame boundary of a running generator runs its frame start, gives back replaced capture buffers that no
fence holds, and signals the output's vector. Its own frame counter advances by one, but at the first start, and no
other output's moves; the frame start writes neither the frame store, HBM3, flash nor fuses (R60, R165). A stopped
generator has no boundary. R31, R60, R253, R254, R260: at a boundary the buffers change roles only when the back
buffer holds this boundary's complete frame; then the flip count advances, and the log records KIND 0 with the tag of
the new front buffer. Otherwise the front buffer is shown again and no flip is counted: STILL logs KIND 2 and raises
nothing; every other repeat logs KIND 1, and where the output is lit or entering it is counted and FRAME_REPEAT raised
with its cause. -/
def Obligations.FrameBoundaries : Prop :=
  (∀ (s : State) (o : Fin 4),
     ((s.tgAt o).running = true → exec (.frameBoundary o) s = .next (pruneAll (msix (frameBoundary s o) (4 + o))) ∧
       (frameBoundary s o).fs = s.fs ∧ (frameBoundary s o).hbm.mem = s.hbm.mem ∧ (frameBoundary s o).flash = s.flash ∧
       (frameBoundary s o).fuse = s.fuse ∧
       (s.wellShaped → (s.tgAt o).ctaken = false → (s.rt o).bit (aTgCfg o) 16 = false →
         ((frameBoundary s o).tgAt o).counter = if (s.tgAt o).started then (s.tgAt o).counter + 1 else (s.tgAt o).counter) ∧
       ∀ p : Nat, p ≠ o → ((frameBoundary s o).tgAt p).counter = (s.tgAt p).counter) ∧
     ((∀ i, (s.inAt i).oldBufs = []) → pruneAll s = s) ∧
     ((s.tgAt o).running = false → exec (.frameBoundary o) s = .next s)) ∧
  (∀ (s : State) (o : Fin 4), s.wellShaped → (s.tgAt o).flipLog.length = 16 →
     (flips s o = true → ∃ t, t = flipOrRepeat s o ∧
       (t.encAt o).frontIdx = 1 - (s.encAt o).frontIdx ∧ (t.tgAt o).flips = ((s.tgAt o).flips + 1) % 2 ^ 32 ∧
       (t.tgAt o).repeats = (s.tgAt o).repeats ∧ (t.compAt o).fuc = none ∧ t.log = s.log ∧
       ∃ r : FlipRec, (t.tgAt o).flipLog[(s.tgAt o).counter % 16]? = some r ∧ r.count = (s.tgAt o).counter ∧ r.kind = 0 ∧
         r.tag = (frontBuf (swapBuffers s o) o).tag ∧ r.prog = (frontBuf (swapBuffers s o) o).prog) ∧
     (flips s o = false → ∃ t, t = flipOrRepeat s o ∧
       (t.encAt o).frontIdx = (s.encAt o).frontIdx ∧ (t.tgAt o).flips = (s.tgAt o).flips ∧
       ((s.outAt o).mode = 4 → (s.outAt o).exit = .none_ → (t.tgAt o).lastKind % 128 = 2 ∧ (t.tgAt o).repeats = (s.tgAt o).repeats ∧
         t.log = s.log ∧ t.enc = s.enc) ∧
       ((s.outAt o).mode ≠ 4 ∨ (s.outAt o).exit ≠ .none_ → (t.tgAt o).lastKind % 128 = 1 ∧ (t.compAt o).fuc = none ∧
         ((s.outAt o).mode = 2 ∨ (s.outAt o).mode = 3 ∨ (s.outAt o).entry.isSome →
           (t.tgAt o).repeats = satAdd 0xFFFF (s.tgAt o).repeats 1 ∧ (t.tgAt o).lastCause = (if (s.outAt o).mode = 5 then 0 else repeatCause s o) ∧
           ∃ u, t = clearFrame (raise u 0x0223 (o + repeatCause s o * 2 ^ 8)) o) ∧
         (¬ ((s.outAt o).mode = 2 ∨ (s.outAt o).mode = 3 ∨ (s.outAt o).entry.isSome) →
           (t.tgAt o).repeats = (s.tgAt o).repeats ∧ t.log = s.log))))

/-- R232, R236, R237: without a reference the next frame start lies one nominal period of NUM / DEN ticks on; with one,
and not stretching, the frame's length is the period pulled by an eighth of the error, at most 1/2,000 of the period,
and rounded; a stretched frame is longer by the error modulo the period. 16 frames in a row within 2 fine steps lock
it, 4 beyond 40 unlock it. R235, R236: a SYNC_IN edge is kept with the one before it and ends a loss; an instant of
another source ends the loss once that source has its reference again. A lost reference unlocks a locked generator
with TG_UNLOCK; one that is not lost by R236 stays. -/
def Obligations.GeneratorReferences : Prop :=
  (∀ (s : State) (o : Fin 4), s.wellShaped →
     (genRef s (s.rt o) o (s.tgAt o).den (s.tgAt o).pos = none → ((nextStart s o).tgAt o).len = periodUnits s o ∧
       ((nextStart s o).tgAt o).pos = (s.tgAt o).pos + periodUnits s o ∧ (nextStart s o).log = s.log) ∧
     (∀ r e t, genRef s (s.rt o) o (s.tgAt o).den (s.tgAt o).pos = some r →
       e = genErr (s.tgAt o) (tgNum (s.rt o) o) (tgPhase (s.rt o) o) r → t = (nextStart s o).tgAt o →
       t.pos = (s.tgAt o).pos + t.len ∧
       (t.stretching = true → t.len = periodUnits s o + (e % (periodUnits s o : Int)).toNat) ∧
       (t.stretching = false → t.len = (pulledLen (periodUnits s o) e).toNat ∧
         2000 * t.len ≤ 2001 * periodUnits s o + 1000 ∧ 1999 * periodUnits s o ≤ 2000 * t.len + 1000) ∧
       (t.stretching = true ↔ (s.rt o).bit (aTgCfg o) 15 = true ∧ periodUnits s o < 8 * e.natAbs) ∧
       t.goodRun = (if e.natAbs ≤ 2 * (s.tgAt o).den then min 16 ((s.tgAt o).goodRun + 1) else 0) ∧
       t.badRun = (if 40 * (s.tgAt o).den < e.natAbs then min 4 ((s.tgAt o).badRun + 1) else 0) ∧
       (t.locked = true ↔ ((s.tgAt o).locked = true ∧ t.badRun ≠ 4) ∨ ((s.tgAt o).locked = false ∧ t.goodRun = 16)))) ∧
  ((∀ (s : State) (o : Fin 4) (instant : Nat), s.wellShaped → genSrc (s.rt o) o = 1 →
     (longPast s o (some instant) = false → exec (.genlockReference o instant) s =
       .next (s.modTg o fun t => { t with ref := some instant, refPrev := t.ref, refLost := false })) ∧
     (longPast s o (some instant) = true → exec (.genlockReference o instant) s =
       .next (s.modTg o fun t => { t with ref := some instant, refPrev := t.ref }))) ∧
   (∀ (s : State) (o : Fin 4) (instant : Nat), genSrc (s.rt o) o ≠ 1 →
     (genRefGone s o = false → exec (.genlockReference o instant) s = .next (s.modTg o fun t => { t with refLost := false })) ∧
     (genRefGone s o = true → exec (.genlockReference o instant) s = .next s)) ∧
   (∀ (s : State) (o : Fin 4), genRefGone s o = true → (s.tgAt o).refLost = false →
     ((s.tgAt o).locked = true → exec (.tgRefLost o) s = .next (raise (s.modTg o fun t =>
       { t with refLost := true, ref := none, refPrev := none, locked := false, goodRun := 0, badRun := 0 }) 0x0221 o)) ∧
     ((s.tgAt o).locked = false → exec (.tgRefLost o) s = .next (s.modTg o fun t =>
       { t with refLost := true, ref := none, refPrev := none, locked := false, goodRun := 0, badRun := 0 }))) ∧
   (∀ (s : State) (o : Fin 4), genRefGone s o = false → exec (.tgRefLost o) s = .next s))

/-- R87, R174, R255, R383: the head events of the next frame are posted for its frame start: those of a SCAN frame that is
shown, or the clear strobe and six zero amplitudes of a stolen PLANE frame, which is marked stolen with ANNEAL_STEAL.
In a timing-mode change the new timing's first start is fixed, at least 4,096 ticks ahead, and its head events are
posted at that decision. -/
def Obligations.FrameHeadEventsArePosted : Prop :=
  (∀ (s : State) (o : Fin 4), (s.tgAt o).running = true → (s.outAt o).exit ≠ .stopping → (∀ since, (s.tgAt o).tm ≠ .ready since) →
    isScan (s.rt o) o = true → isLit s o = true ∨ (s.outAt o).entry.isSome = true ∨ (s.outAt o).mode = 5 →
    exec (.frameHeadPost o) s = .next (postAll s o ((scanHeadEvents (s.rt o) o).map (placeEvent (frontCfg s o) o
      (posInstant (s.tgAt o) (s.tgAt o).pos).1 (posInstant (s.tgAt o) (s.tgAt o).pos).2
      (if (s.tgAt o).started then (s.tgAt o).counter + 1 else (s.tgAt o).counter))))) ∧
  (∀ (s : State) (o : Fin 4) (k : Nat), (s.tgAt o).running = true → (s.outAt o).exit ≠ .stopping → (∀ since, (s.tgAt o).tm ≠ .ready since) →
    steals s o = true → isScan (s.rt o) o = false → k = (if (s.tgAt o).started then (s.tgAt o).counter + 1 else (s.tgAt o).counter) →
    ∃ (u : State) (p : Post) (l : List Post), exec (.frameHeadPost o) s = .next (postAll u o (p :: l)) ∧
      u = raiseLimited ((s.modSeq o fun q => { q with steal := some k, sinceSteal := 0 }).modAnn fun a => { a with
        run := a.run.map fun r => { r with since := (posInstant (s.tgAt o) (s.tgAt o).pos).1, stolen := true } }) 0x0E05 o o oneSecond .internal ∧
      p.cls = 0 ∧ p.frame = k ∧ l.length = 6 ∧ ∀ e ∈ l, e.cls = 1 ∧ e.payload = 0 ∧ e.frame = k) ∧
  (∀ (s : State) (o : Fin 4) (since : Nat), s.wellShaped → (s.tgAt o).tm = .ready since →
    (s.tb.tick + 4096) * 25 * max 1 (tgDen s.act o) ≤ firstStart s s.act o ∧
    ∃ u, exec (.frameHeadPost o) s = .next (postHeads u s.act o ((s.tgAt o).counter + 1) false) ∧ (u.tgAt o).tm = .fixed since ∧
      (u.tgAt o).pos = firstStart s s.act o ∧ (u.tgAt o).den = max 1 (tgDen s.act o) ∧ u.seq = s.seq ∧ u.rt o = s.rt o)

/-- R255 step 4: at the instant fixed for it the new generator makes its first start: the frame counter goes on by one, no
other output's moves, and an array whose link is up is told to unpark. R257: once the last work of a disabled item has
retired, the item leaves the list and DISABLE_DONE is raised; before, it waits. -/
def Obligations.RestartsAndDisables : Prop :=
  (∀ (s : State) (o : Fin 4) (since : Nat), s.wellShaped → (s.tgAt o).tm = .fixed since →
     (s.tb.tick < (posInstant (s.tgAt o) (s.tgAt o).pos).1 → exec (.tgRestart o) s = .next s) ∧
     ((posInstant (s.tgAt o) (s.tgAt o).pos).1 ≤ s.tb.tick → ∃ t, exec (.tgRestart o) s = .next t ∧
       (t.tgAt o).counter = (s.tgAt o).counter + 1 ∧ (∀ p : Nat, p ≠ o → (t.tgAt p).counter = (s.tgAt p).counter) ∧
       t.fs = s.fs ∧ t.flash = s.flash ∧ t.hbm.mem = s.hbm.mem ∧
       (isScan s.act o = false → (s.outAt o).mode ≠ 1 → (s.outAt o).exit = .none_ → fsSize s.act o ≠ 0 →
         ∃ u : State, t = if (u.portAt o).link = 5 then portSend u o 0x11 0 else u))) ∧
  (∀ (s : State) (k : Nat) (d : Retire), s.ladle.disables[k]? = some d →
     (retired s d = true → exec (.disableDone k) s =
       .next (raise (s.modLadle fun l => { l with disables := l.disables.eraseIdx k }) 0x0106 (disableData d))) ∧
     (retired s d = false → exec (.disableDone k) s = .next s))

/-- R26, R190, R198, R202: a composition start of a running generator runs, and writes neither the frame store nor flash;
a frame that waits for WAIT_ALL layers begins binning when none waits, and at the limit of its wait repeats with cause
3; at the deadline with tiles uncommitted the frame is abandoned with cause 1. Binning keeps the frame's number and
settings; a full pool abandons it with cause 4. R38, R202, R205: a frame that is given up keeps no entries, records,
engines or contexts. -/
def Obligations.CompositionStartsAndEnds : Prop :=
  ((∀ (s : State) (o : Fin 4), (s.tgAt o).running = true → exec (.compositionStart o) s = .next (compositionStart s o) ∧
     (compositionStart s o).fs = s.fs ∧ (compositionStart s o).flash = s.flash) ∧
   (∀ (s : State) (o : Fin 4) (f : FrameUC), (s.compAt o).fuc = some f → f.phase = .waiting →
     (waitingLayers s f.snap.cfg o = [] → exec (.waitAllReady o) s = .next (bin s o f)) ∧
     (waitingLayers s f.snap.cfg o ≠ [] → exec (.waitAllReady o) s = .next (judgeWaiting s f.snap.cfg o)) ∧
     exec (.waitRepeat o) s = .next (raise ((releaseFrame s o .abandoned).modComp o fun c => { c with lastCause := 3 }) 0x0703
       (compData o ((waitingLayers s f.snap.cfg o).headD 0)))) ∧
   (∀ (s : State) (o : Fin 4) (f : FrameUC), (s.compAt o).fuc = some f → f.phase = .binning ∨ f.phase = .composing ∨ f.phase = .waiting →
     exec (.composeLate o) s = .next (raise ((releaseFrame s o .abandoned).modComp o fun c => { c with lastCause := 1 }) 0x0704
       (compData o (firstUncommitted s o f)))) ∧
   (∀ (s : State) (o : Fin 4) (f : FrameUC), s.wellShaped → ∃ g : FrameUC, ((bin s o f).compAt o).fuc = some g ∧ g.frame = f.frame ∧
     g.snap = f.snap ∧ (g.phase = .binning ∨ g.phase = .abandoned ∧ ((bin s o f).compAt o).lastCause = 4))) ∧
  (∀ (s : State) (o : Fin 4) (phase : FramePhase), s.wellShaped →
     let t := releaseFrame s o phase
     (∀ f, (t.compAt o).fuc = some f → f.phase = phase ∧ f.entries = [] ∧ f.canvas = []) ∧
     (∀ e ∈ t.composer.engines, ∀ k, e ≠ some ((o : Nat), k)) ∧
     (∀ c, some c ∈ t.composer.contexts ∨ some c ∈ t.composer.resumed → c.out ≠ o) ∧
     (∀ q, (s.compAt o).qbase ≤ q → q < (s.compAt o).qbase + (s.compAt o).ntiles →
       (∀ r ∈ t.composer.sprue, r.queue ≠ q) ∧ (∀ e ∈ t.composer.spill, e.1 ≠ q) ∧ ∀ w ∈ t.surf.heldFaults, w.1.queue ≠ q) ∧
     ∀ p : Nat, p ≠ o → t.compAt p = s.compAt p)

/-- R193: a Sprue record of a queue is written to its place in HBM3 with the spill pointer, which then names it, and is
linked; a failed write is repeated up to twice, and the third failure poisons the frame. R200, R201: when binning
completes every tile is eligible; a free engine takes the first tile in the order of deadline, output and tile number;
a saved tile leaves its context slot, and its engine resumes from that context. R193, R202, R223, R230, R345: an
engine commits the tile it has composed: the tile's pixels join the canvas, and the warp canvas where the warp is on;
its entries and records are released and the engine is free; a failed read of its records is tried again, up to twice.
An output tile of the geometry half starts once every canvas tile in its footprint is committed. -/
def Obligations.TilesAreComposed : Prop :=
  (∀ (s : State) (queue i : Nat) (r : SprueRec), (s.composer.sprue.findIdx? fun x => x.queue == queue && !x.linked) = some i →
     s.composer.sprue[i]? = some r →
     exec (.sprueSpill queue true) s = .next ((s.modHbm fun h => { h with
       mem := Memory.store ramDefault h.mem (sprueAddr r.idx) (sprueBytes r (spillPointer s queue)) }).modComposer fun x => { x with
         sprue := listSet x.sprue i { r with linked := true }, spill := (queue, r.idx) :: x.spill.filter fun e => e.1 != queue }) ∧
     (r.tries < 2 → exec (.sprueSpill queue false) s =
       .next (s.modComposer fun x => { x with sprue := listSet x.sprue i { r with tries := r.tries + 1 } })) ∧
     (2 ≤ r.tries → ∀ o, queueOwner s queue = some o →
       exec (.sprueSpill queue false) s = .next (poisonFrame (fault s 0x0709 (compData o queue) o) o 2))) ∧
  ((∀ (s : State) (o : Fin 4) (f : FrameUC), (s.compAt o).fuc = some f → f.phase = .binning → (∀ r ∈ s.composer.sprue, r.linked = true) →
     exec (.binningDone o) s = .next (preempt 16 (s.modComp o fun c =>
       { c with fuc := some { f with phase := .composing, tiles := f.tiles.map fun _ => .eligible } }))) ∧
   (∀ (s : State) (e : Fin 16) (o t : Nat), nth s.composer.engines e none = none → firstTile s (tilesIn s isWaiting) = some (o, t) →
     ∃ u : State, exec (.tileDispatch e) s = .next u ∧ u = ((setTile s o t (.running e)).modComposer fun x => { x with
       engines := u.composer.engines, resumed := u.composer.resumed, contexts := u.composer.contexts }) ∧
       u.composer.engines = listSet s.composer.engines e (some (o, t)) ∧ u.composer.resumed = listSet s.composer.resumed e (slotOf s o t) ∧
       (∀ c : TileCtx, some c ∈ u.composer.contexts ↔ some c ∈ s.composer.contexts ∧ ¬ (c.out = o ∧ c.tile = t))) ∧
   (∀ (s : State) (e : Fin 16), nth s.composer.engines e none = none → tilesIn s isWaiting = [] → exec (.tileDispatch e) s = .next s) ∧
   (∀ (s : State) (l : List (Nat × Nat)) (a : Nat × Nat), firstTile s l = some a →
     a ∈ l ∧ ∀ b ∈ l, tileAhead s b a = false)) ∧
  ((∀ (s : State) (e : Fin 16) (ok : Bool) (stall o t : Nat) (f : FrameUC), nth s.composer.engines e none = some (o, t) →
     (s.compAt o).fuc = some f → f.phase = .composing → tileFaults s o t = false →
     (ok = true ∨ s.composer.sprue.any (fun r => r.queue == (s.compAt o).qbase + t) = false →
       exec (.tileCommit e ok stall) s = .next (finishFrame (dropFaults
         (((writeWarp s o f (composeTile s o f t (nth s.composer.resumed e none))).modComp o fun c => { c with
           stalls := c.stalls + stall
           warpFirst := some (c.warpFirst.getD s.tb.tick)
           fuc := some { f with
             tiles := listSet f.tiles t .committed
             entries := f.entries.filter fun x => x.1 != t
             canvas := (composeTile s o f t (nth s.composer.resumed e none)).foldl (fun m p => Sparse.set (fun _ => 0) m p.1 p.2) f.canvas } })
           |>.modComposer fun x => { x with
             engines := listSet x.engines e none, resumed := listSet x.resumed e none
             sprue := x.sprue.filter fun r => r.queue != (s.compAt o).qbase + t
             spill := x.spill.filter fun y => y.1 != (s.compAt o).qbase + t })
         ((s.compAt o).qbase + t)) o)) ∧
     (s.composer.sprue.any (fun r => r.queue == (s.compAt o).qbase + t) = true →
       exec (.tileCommit e false stall) s = .next (refillFailed s o ((s.compAt o).qbase + t)))) ∧
   (∀ (s : State) (o q i : Nat) (r : SprueRec), (s.composer.sprue.findIdx? fun x => x.queue == q) = some i → s.composer.sprue[i]? = some r →
     (r.reads < 2 → refillFailed s o q = s.modComposer fun x => { x with sprue := listSet x.sprue i { r with reads := r.reads + 1 } }) ∧
     (2 ≤ r.reads → refillFailed s o q = poisonFrame (fault s 0x0709 (compData o q) o) o 2)) ∧
   (∀ (s : State) (o : Nat) (f : FrameUC) (px : List (Nat × Nat)), f.snap.cfg.bit (aPixCtrl o) 3 = false → writeWarp s o f px = s) ∧
   (∀ (s : State) (o : Fin 4) (tile : Nat) (f : FrameUC), (s.compAt o).fuc = some f → f.snap.cfg.bit (aPixCtrl o) 3 = true →
     f.phase = .composing ∨ f.phase = .complete → tile ∉ f.warpDone → tile < f.tiles.length → (∀ x ∈ f.tiles, x = .committed) →
     exec (.warpTileStart o tile) s = .next (s.modComp o fun c => { c with
       fuc := some { f with warpDone := tile :: f.warpDone }
       warpWait := if f.warpDone.length + 1 = f.tiles.length then s.tb.tick - c.warpFirst.getD s.tb.tick else c.warpWait })))

/-- R205, R414: an engine that reaches a faulted fragment reports it, notes its layer and poisons its frame with
COMPOSE_FAULT once; the fault registers keep the first fault. When the frame has been released, its layers are
disabled and COMPOSE_RECOVERED raised. -/
def Obligations.ComposeFaultsPoisonTheFrame : Prop :=
  (∀ (s : State) (e : Fin 16) (frag o t kind : Nat) (w : Walk) (f : FrameUC), s.wellShaped → o < 4 → faultingTile s e = some (o, t) →
    (s.compAt o).fuc = some f →
    (s.surf.heldFaults.find? fun v => v.1.queue == (s.compAt o).qbase + t && v.1.frag == frag) = some (w, kind) →
    ∃ (u : State) (g : FrameUC), (u.compAt o).fuc = some g ∧ w.layer ∈ g.faulted ∧ g.phase = f.phase ∧ u.log = s.log ∧
      (f.phase ≠ .poisoned → exec (.composeFault e frag) s =
        .next (poisonFrame (fault (raise u 0x0405 (xlateData w.surf kind)) 0x0705 (compData o w.layer) o) o 2)) ∧
      (f.phase = .poisoned → exec (.composeFault e frag) s = .next (raise u 0x0405 (xlateData w.surf kind))) ∧
      u.composer.faultValid = true ∧
      (s.composer.faultValid = true → s.composer.faultAt ≠ s.tb.tick → u.composer = s.composer) ∧
      (s.composer.faultValid = false → u.composer.faultOut = o ∧ u.composer.faultLayer = w.layer ∧
        u.composer.faultQueue = (s.compAt o).qbase + t ∧ u.composer.faultSurface = w.surf ∧ u.composer.faultFrag = frag)) ∧
  (∀ (s : State) (o : Fin 4) (f : FrameUC), (s.compAt o).fuc = some f → f.phase = .poisoned →
    s.log.recovering.contains (0x0705, (o : Nat)) = false →
    exec (.composeRecovered o) s = .next (recoveredAll (releaseFrame s o .poisoned) [0x0606, 0x0709] o)) ∧
  (∀ (s : State) (o : Fin 4) (f : FrameUC), s.wellShaped → (s.compAt o).fuc = some f → f.phase = .poisoned →
    s.log.recovering.contains (0x0705, (o : Nat)) = true →
    ∃ u : State, exec (.composeRecovered o) s = .next (recoveredAll (raise u 0x0706 0x0705) [0x0606, 0x0709] o) ∧
      u.log.recovering = s.log.recovering.erase (0x0705, (o : Nat)) ∧
      (∀ l ∈ f.faulted, l ∈ u.composer.disabledByFault ∧ lyEnable u.act l = false ∧ lyEnable u.ladle.stg l = false) ∧
      ∀ g, (u.compAt o).fuc = some g → g.entries = [] ∧ g.faulted = [])

/-- R199: a present of a live surface to a host layer takes effect at the output's next composition start and is a layer
change; any other is refused with PRESENT_REFUSED. R57, R60 to R62, R394, R396, R399: a frame whose tiles have all
passed is stored in the back buffer alone: the front buffer and every other memory stay; the buffer is complete, with
the frame's number, settings, program and tag; ACTION 1 and 3 of a mismatch withhold it, ACTION 2 darkens it. A zone
mask that fails its check encodes nothing. -/
def Obligations.PresentsAndEncoding : Prop :=
  ((∀ (s : State) (path : PathId) (v : Word), serves s path = true → hasRole s path 2 = true →
     lyKind s.act (nbits v.toNat 22 16) = 0 → (s.surfAt (nbits v.toNat 11 0)).st = 2 →
     exec (.layerPresent path v) s = .next ((s.modComposer fun x => { x with
         presentsNext := (nbits v.toNat 22 16, nbits v.toNat 11 0) :: x.presentsNext.filter fun e => e.1 != nbits v.toNat 22 16 }).modTg
       (lyOutput s.act (nbits v.toNat 22 16)) fun t => { t with layerChange := true })) ∧
   (∀ (s : State) (path : PathId) (v : Word), serves s path = true → hasRole s path 2 = true →
     (lyKind s.act (nbits v.toNat 22 16) ≠ 0 ∨ (s.surfAt (nbits v.toNat 11 0)).st ≠ 2) →
     exec (.layerPresent path v) s =
       .next (raiseP s 0x070B (compData (lyOutput s.act (nbits v.toNat 22 16)) (nbits v.toNat 22 16)) path))) ∧
  ((∀ (s : State) (o : Fin 4) (f : FrameUC), (s.compAt o).fuc = some f → encodable f o = true → (backBuf s o).complete = false →
     crc32 (zoneResident s o (nth s.guard.zones o {}).w (nth s.guard.zones o {}).h) = zoneExpect s.act o →
     ∃ (u : State) (act : Option Nat),
       judgeRects s f.snap.cfg o (fun c x y => zonedValue s f o c x y) (fun c x y => canvasAt f o c x y) f.still = (u, act) ∧
       u.fs = s.fs ∧ u.flash = s.flash ∧ u.hbm.mem = s.hbm.mem ∧
       exec (.encodeComplete o) s = .next { u.modEnc o (fun e => { e with bufs := listSet e.bufs (1 - e.frontIdx) {
         tag := f.tag, prog := f.prog, planeSet := if isScan f.snap.cfg o then 0 else progPlaneSet f.snap.cfg o f.prog
         snap := f.snap, complete := true, frame := f.frame, still := f.still
         dark := act == some 2, withhold := act == some 1 || act == some 3 } }) with fs := storeFrame s f o }) ∧
   (∀ (s : State) (o : Fin 4) (f : FrameUC), (s.compAt o).fuc = some f → encodable f o = true → (backBuf s o).complete = false →
     crc32 (zoneResident s o (nth s.guard.zones o {}).w (nth s.guard.zones o {}).h) ≠ zoneExpect s.act o →
     exec (.encodeComplete o) s =
       .next (zoneFail s o (crc32 (zoneResident s o (nth s.guard.zones o {}).w (nth s.guard.zones o {}).h)))) ∧
   (∀ (s : State) (f : FrameUC) (o c x y : Nat), zonedValue s f o c x y ≤ zoneLimit s o c x y))

/-- R34, R245, R247, R458: a write to a staged field changes the staged copy alone, with the path that staged it; one that
names an owner of the pending Pour is refused with LADLE_REFUSED, one during the copy after a commit waits in order,
and one without the role, or for an owner outside the path's mask, is refused. The settings in force never change.
R247: when the copy after a commit is done, the writes held meanwhile are staged in the order they came. -/
def Obligations.StagedWritesAndTheCopy : Prop :=
  ((∀ (s : State) (path : PathId) (a : Nat) (v : Word), serves s path = true → a % 4 = 0 → clsOf a = some .ls →
     hasRole s path 1 = true → (∀ o ∈ ownersOf s.ladle a v, nbit (pathMask s path) o = true) →
     (s.ladle.busy = false → (∀ p, s.ladle.pending = some p → ∀ o ∈ ownersOf s.ladle a v, nbit p.mask o = false) →
       exec (.lsWrite path a v) s = .next { s with ladle := { s.ladle with
         stg := s.ladle.stg.set a v
         touched := Sparse.put s.ladle.touched a (Sparse.get (fun _ => 0) s.ladle.touched a ||| 2 ^ pathNum path) } }) ∧
     (s.ladle.busy = false → ∀ p, s.ladle.pending = some p → (∃ o ∈ ownersOf s.ladle a v, nbit p.mask o = true) →
       exec (.lsWrite path a v) s =
         .next (raiseP (s.modLadle fun l => { l with refused := satAdd 0xFF l.refused 1 }) 0x0104 (pourData p) path)) ∧
     (s.ladle.busy = true →
       exec (.lsWrite path a v) s = .next (s.modLadle fun l => { l with held := l.held ++ [(path, a, v)] }))) ∧
   (∀ (s : State) (path : PathId) (a : Nat) (v : Word), serves s path = true → a % 4 = 0 → clsOf a = some .ls →
     hasRole s path 1 = false ∨ (∃ o ∈ ownersOf s.ladle a v, nbit (pathMask s path) o = false) →
     exec (.lsWrite path a v) s = .next (refuseRole s path 1 a)) ∧
   (∀ (s t : State) (path : PathId) (a : Nat) (v : Word), exec (.lsWrite path a v) s = .next t → t.ladle.act = s.ladle.act ∧ t.ladle.rt = s.ladle.rt)) ∧
  (∀ s : State, s.ladle.busy = true → s.ladle.pending = none → s.ann.run = none →
     ∃ t, exec .ladleCopyDone s = .next t ∧ t = { s with ladle := { s.ladle with
         busy := false, held := [], touched := t.ladle.touched
         stg := s.ladle.held.foldl (fun m h => m.set (h.2.1 / 4 * 4) h.2.2) s.ladle.stg } } ∧
       ∀ h ∈ s.ladle.held, nbit (Sparse.get (fun _ => 0) t.ladle.touched (h.2.1 / 4 * 4)) (pathNum h.1) = true)

/-- R247, R251, R372, R458: a request that passes the LADLE checks becomes the pending Pour under the next number, and the
domains it needs are asked for; one that fails a check is rejected and takes a number too; one without its role or for
outputs outside the path's mask is refused. Staged writes held by a copy enter first. A cancellation withdraws the
pending Pour with POUR_CANCELLED, and its staged values stay; with none pending it does nothing. -/
def Obligations.PourRequestsAndCancels : Prop :=
  (∀ (s r : State) (path : PathId) (v : Word), serves s path = true → hasRole s path 1 = true → nbit v.toNat 9 = false →
    v.toNat % 32 &&& pathMask s path = v.toNat % 32 → r = flushHeld s →
    (ladleChecks r v.toNat (ladleTarget s) = none → ∃ t, exec (.ladlePourRequest path v) s = .next t ∧
      t = { r with ladle := t.ladle, therm := { r.therm with pend := t.therm.pend } } ∧
      t.ladle = { r.ladle with seq := r.ladle.seq + 1, st := 1, armed := false, pending := t.ladle.pending } ∧
      t.ladle.pending = some { mask := v.toNat % 32, targeted := nbit v.toNat 8, target := ladleTarget s, seq := r.ladle.seq + 1,
                               kind := .host, path := path, freed := [] } ∧
      t.therm.pend = ((neededDomains (candidate t.ladle (pourWords t.ladle (v.toNat % 32)))).filter fun d => !nbit r.therm.awake d).foldl
        (fun p d => withBit p d true) r.therm.pend) ∧
    (∀ n, ladleChecks r v.toNat (ladleTarget s) = some n → exec (.ladlePourRequest path v) s = .next (rejectRequest r (v.toNat % 32) n path))) ∧
  (∀ (s : State) (path : PathId) (p : Pour), serves s path = true → hasRole s path 1 = true → s.ladle.pending = some p → p.kind = .host →
    s.ann.run = none → ∃ u t, exec (.ladlePourCancel path) s = .next t ∧ t = journalKind (raiseP u 0x0105 (pourData p) path) 2 path
        (changeData (raiseP u 0x0105 (pourData p) path) p.seq p.mask 3 0 false []) 0 ∧
      u = { s with ladle := { s.ladle with pending := none, armed := false, st := if p.seq = s.ladle.seq then 5 else s.ladle.st } } ∧
      t.ladle.stg = s.ladle.stg ∧ t.ladle.act = s.ladle.act) ∧
  (∀ (s : State) (path : PathId), serves s path = true → hasRole s path 1 = true → s.ladle.pending = none →
    exec (.ladlePourCancel path) s = .next (annealKick s)) ∧
  (∀ (s : State) (path : PathId) (v : Word), serves s path = true →
    hasRole s path 1 = false ∨ (nbit v.toNat 9 = false ∧ v.toNat % 32 &&& pathMask s path ≠ v.toNat % 32) →
    exec (.ladlePourRequest path v) s = .next (refuseRole s path 1 0x10000))

/-- R247, R251, R372, R388: a pending Pour whose check lists find nothing is armed, with LADLE_CHECK 0; Anneal's waits for
its block to be written; a failure rejects it. While a domain it needs sleeps it stays as it is. R249, R250, R252,
R342: the commit of an armed Pour whose boundary has come writes the selector's three copies; with two or more
corrupted it raises HALT_LADLE and applies nothing, else the settings are taken and the blocks that hold state of
their own follow them; a Pour whose layer shows a surface freed meanwhile is rejected. One that is not armed, or that
waits for its frame, stays. -/
def Obligations.PoursAreCheckedAndCommitted : Prop :=
  (∀ (s : State) (p : Pour) (u : State), s.ladle.pending = some p → s.ladle.armed = false →
     (p.kind = .anneal → ∀ r, s.ann.run = some r → r.checked = false) →
     (domainsAwake s p (pourView s p) = false → exec .pourChecksDone s = .next (annealKick s)) ∧
     (domainsAwake s p (pourView s p) = true →
       (runLists s (pourView s p) (candidateFlux s (pourView s p) (pourBlock s p)) (p.kind == .dawn || p.kind == .ingotApply) = (u, none) →
         (p.kind ≠ .anneal → exec .pourChecksDone s = .next (annealKick (armPour u)) ∧ (armPour u).ladle.armed = true ∧ (armPour u).ladle.chkNo = 0) ∧
         (p.kind = .anneal → exec .pourChecksDone s = .next (annealKick (u.modAnn fun a => { a with run := a.run.map fun r =>
           { r with checked := true, st := 4, writeWait := !u.therm.flashOpen, waitAt := u.tb.tick } })))) ∧
       (∀ f, runLists s (pourView s p) (candidateFlux s (pourView s p) (pourBlock s p)) (p.kind == .dawn || p.kind == .ingotApply) = (u, some f) →
         exec .pourChecksDone s = .next (annealKick (rejectPour u p f))))) ∧
  ((∀ (s : State) (p : Pour) (k : Fin 8), s.ladle.pending = some p → s.ladle.armed = true →
     (p.targeted = false ∨ p.target ≤ pourCounter s p) → (nbit k 0 && nbit k 1) = false → (nbit k 0 && nbit k 2) = false → (nbit k 1 && nbit k 2) = false →
     (freedLayer (pourView s p).settled p = none → p.kind ≠ .dawn → p.kind ≠ .ingotApply →
       ∃ u : State, exec (.pourCommit k) s = .next (annealKick (commitBlocks u p (pourView s p).settled)) ∧
         u.ladle.selector = List.replicate 3 (!(nth s.ladle.selector 0 false)) ∧ u.ladle.act = (takeWords s p).ladle.act ∧
         u.ladle.stg = (takeWords s p).ladle.stg ∧ u.ladle.pending = none ∧ u.ladle.busy = true) ∧
     exec (.pourCommit k) s = .next (annealKick (commitPour
       (s.modLadle fun l => { l with selector := List.replicate 3 (!(nth s.ladle.selector 0 false)) }) p))) ∧
   (∀ (s : State) (p : Pour) (k : Fin 8), s.ladle.pending = some p → s.ladle.armed = true →
     (p.targeted = false ∨ p.target ≤ pourCounter s p) → (nbit k 0 && nbit k 1) = true ∨ (nbit k 0 && nbit k 2) = true ∨ (nbit k 1 && nbit k 2) = true →
     ∃ l : List Bool, exec (.pourCommit k) s = .next (raiseHalt (s.modLadle fun d => { d with selector := l }) 0x0F18 0)) ∧
   (∀ (s : State) (p : Pour) (k : Fin 8), s.ladle.pending = some p → s.ladle.armed = false ∨ (p.targeted = true ∧ pourCounter s p < p.target) →
     exec (.pourCommit k) s = .next s))

/-- R34, R247, R252: what comes into force at a commit. Every pair the Pour applies is in force and staged; every other
word, active or staged, stays; of a Pour without sealed words each word it applies takes its staged value with the
reserved bits cleared; no Pour is pending any longer and the copy into the staged side begins. -/
def Obligations.CommittedWordsComeIntoForceTogether : Prop :=
  ∀ (s : State) (p : Pour), Sparse.wf cfgDefault s.ladle.act = true → Sparse.wf cfgDefault s.ladle.stg = true →
    (∀ e ∈ pourPairs s p, e.1 % 4 = 0) →
    let t := takeWords s p
    (∀ e ∈ pourPairs s p, t.ladle.act.get e.1 = e.2 ∧ t.ladle.stg.get e.1 = e.2) ∧
    (∀ a, a % 4 = 0 → (∀ e ∈ pourPairs s p, e.1 ≠ a) → t.ladle.act.get a = s.ladle.act.get a ∧ t.ladle.stg.get a = s.ladle.stg.get a) ∧
    (sealedOf s p = [] → (pourPairs s p).map (·.1) ⊆ pourWords s.ladle p.mask ∧
      ∀ a ∈ pourWords s.ladle p.mask, t.ladle.act.get a = s.ladle.stg.clean a) ∧
    t.ladle.pending = none ∧ t.ladle.armed = false ∧ t.ladle.busy = true ∧
    t = { s with ladle := { s.ladle with act := t.ladle.act, stg := t.ladle.stg, touched := t.ladle.touched, pending := none,
                                         armed := false, busy := true, st := t.ladle.st } }

/-- R283, R457, R458, R462, R489: a read answers the words read in order, up to the first that is refused; one word of a
served, aligned address is answered whenever the path may read; without the role nothing is read. R9, R10, R283, R458,
R461, R462: a served write whose roles and owners are held is carried out by the class of its address, or rings the
doorbell; a request of several words of which one is refused changes nothing, else its words are written in order; a
misaligned one raises HOST_ACCESS_ERR. -/
def Obligations.ManagementReadsAndWrites : Prop :=
  ((∀ (s : State) (path : PathId) (a n : Nat), servesRead s path (a + 4 * (n - 1)) = true →
     exec (.mgmtRead path a n) s = .next (answer (gatedReads path n a s).1 (gatedReads path n a s).2.1 (gatedReads path n a s).2.2 [])) ∧
   (∀ (s : State) (path : PathId) (a : Nat), servesRead s path a = true → a % 4 = 0 → hasRole s path 0 = true →
     exec (.mgmtRead path a 1) s = .next (answer (readWord s path a).1 0 [(readWord s path a).2] [])) ∧
   (∀ (s t u : State) (path : PathId) (a n c : Nat) (w : Word) (ws : List Word), gatedRead s path a = (t, 0, w) →
     gatedReads path n (a + 4) t = (u, c, ws) → gatedReads path (n + 1) a s = (u, c, w :: ws)) ∧
   (∀ (s : State) (path : PathId) (a n : Nat), servesRead s path (a + 4 * n) = true → a % 4 = 0 → hasRole s path 0 = false →
     exec (.mgmtRead path a (n + 1)) s = .next (answer (refuseRole s path 0 a) 2 [] []))) ∧
  ((∀ (s : State) (path : PathId) (a : Nat) (v : Word), serves s path = true → a % 4 = 0 → writeRefused s path a v = none →
     (a ≠ 0x800 → exec (.registerWrite path a v) s = .next (busWrite s path a v).1 ∧
       exec (.mgmtWrite path a [v]) s = .next (answer (busWrite s path a v).1 (busWrite s path a v).2 [] [])) ∧
     (a = 0x800 → exec (.registerWrite path a v) s = .next (doorbell s path v) ∧
       exec (.mgmtWrite path a [v]) s = .next (answer (doorbell s path v) 0 [] []))) ∧
   (∀ (s t : State) (path : PathId) (a : Nat) (v : Word) (ws : List Word), serves s path = true → a % 4 = 0 →
     firstRefused s path a (v :: ws) = none → a ≠ 0x800 → busWrite s path a v = (t, 0) →
     exec (.mgmtWrite path a (v :: ws)) s = .next (answer (writeWords doorbell path (a + 4) ws t).1 (writeWords doorbell path (a + 4) ws t).2 [] [])) ∧
   (∀ (s : State) (path : PathId) (a c role ad : Nat) (ws : List Word), serves s path = true → a % 4 = 0 →
     firstRefused s path a ws = some (c, role, ad) → exec (.mgmtWrite path a ws) s = .next (answer (refuseRole s path role ad) c [] [])) ∧
   (∀ (s : State) (path : PathId) (a : Nat) (ws : List Word), serves s path = true → a % 4 ≠ 0 →
     exec (.mgmtWrite path a ws) s = .next (answer (raiseP s 0x030C 0 path) 1 [] [])) ∧
   (∀ (s : State) (path : PathId) (v : Word), serves s path = true →
     (hasRole s path 1 = true → exec (.evtReadWrite path v) s = .next (s.modMgmt fun m =>
       { m with evtRead := listSet m.evtRead (pathIdx path) (min v.toNat s.log.head) })) ∧
     (hasRole s path 1 = false → exec (.evtReadWrite path v) s = .next (refuseRole s path 1 0x104))))

/-- R9, R11, R467, R469, R496: what a write does by the class of its address: an RO word without W1C bits ignores it, an
undefined address raises ADDR_UNDEFINED, an SE word keeps its value with SE_WRITE_REFUSED and a journal record, an RW
word takes it in both copies at once with its reserved bits cleared (EVT_READ, LADLE_VIEW and KDM_HOST in the state
they name), and W1C, WO and LS words go to their own operations. -/
def Obligations.WritesFollowTheAccessClass : Prop :=
  ∀ (s : State) (path : PathId) (a : Nat) (v : Word), mailboxAddr a = false →
    (clsOf a = some .ro → holdsW1c a = false → busWrite s path a v = (s, 0)) ∧
    (clsOf a = none → busWrite s path a v = (undefinedAddr s path a, 0)) ∧
    (clsOf a = some .se → (busWrite s path a v).2 = 5 ∧ (busWrite s path a v).1 =
      journalRefusal (raiseP s 0x0017 (pathNum path + a * 2 ^ 32) path) 5 0 a path ∧ (busWrite s path a v).1.ladle = s.ladle) ∧
    (clsOf a = some .rw → a ≠ 0x104 → a ≠ 0x10014 → a ≠ 0x100040 → busWrite s path a v = ({ s with ladle := { s.ladle with
      act := s.ladle.act.set a (cleared [] a v), stg := s.ladle.stg.set a (cleared [] a v) } }, 0)) ∧
    (a = 0x104 → busWrite s path a v = (s.modMgmt fun m =>
      { m with evtRead := listSet m.evtRead (pathIdx path) (min v.toNat s.log.head) }, 0)) ∧
    (a = 0x10014 → busWrite s path a v = (s.modLadle fun l =>
      { l with views := (path, nbit v.toNat 0) :: l.views.filter fun e => e.1 != path }, 0)) ∧
    (a = 0x100040 → busWrite s path a v = (sealHost s v, 0)) ∧
    (clsOf a = some .w1c ∨ (clsOf a = some .ro ∧ holdsW1c a = true) → busWrite s path a v = (writeW1c s path a v, 0)) ∧
    (clsOf a = some .wo → busWrite s path a v = writeWo s path a v) ∧
    (clsOf a = some .ls → busWrite s path a v = lsWrite s path a v)

/-- R422, R431, R460, R462: POUR answers LADLE_STATUS; TIME sets secure time in a session with its role, never below the
floor it has reached; REVOKE burns a slot's bit in a session with KEYS; PROVISION writes a blank slot from SPI or BAR0
only, whatever their roles. -/
def Obligations.KeyAndTimeCommands : Prop :=
  (∀ (s : State) (path : PathId) (v : Word) (target : Nat), serves s path = true → writeRefused s path 0x10000 v = none →
    ∃ u : State, exec (.mgmtPour path v target) s = .next (answer u (pourWrite (putWord (putWord s 0x10004 (BitVec.ofNat 32 target)) 0x10008
        (BitVec.ofNat 32 (target / 2 ^ 32))) path v.toNat (ladleTarget (putWord (putWord s 0x10004 (BitVec.ofNat 32 target)) 0x10008
        (BitVec.ofNat 32 (target / 2 ^ 32))))).2 [BitVec.ofNat 32 (ladleStatus u)] [])) ∧
  (∀ (s : State) (k : Fin 4) (ns : Nat), serves s (.eth k) = true → hasRole s (.eth k) 6 = true →
    exec (.mgmtTime (.eth k) ns) s = .next (answer (s.modCruc fun c =>
      { c with timeFloor := (secureNow s).getD c.timeFloor, time := some (ns, localNs s) }) 0 [] [])) ∧
  (∀ (s : State) (k : Fin 4) (slot : Nat), serves s (.eth k) = true → hasRole s (.eth k) 8 = true → slot < 4 →
    exec (.revoke (.eth k) slot) s =
      .next (answer { s with fuse := { s.fuse with revoked := listSet s.fuse.revoked slot true } } 0 [] [])) ∧
  (∀ (s : State) (path : PathId) (slot : Nat) (key : List Byte), serves s path = true → path = .spi ∨ path = .bar0 → slot < 4 →
    key.length = 97 → nth s.fuse.anchors slot none = none →
    exec (.provision path slot key) s =
      .next (answer { s with fuse := { s.fuse with anchors := listSet s.fuse.anchors slot (some (Config.sha384 key)) } } 0 [] [])) ∧
  (∀ (s : State) (path : PathId) (slot : Nat) (key : List Byte), serves s path = true → path = .spi ∨ path = .bar0 → slot < 4 →
    key.length = 97 → nth s.fuse.anchors slot none ≠ none → exec (.provision path slot key) s = .next (answer s 5 [] []))

/-- R455, R456, R368: an update erases the copy that is not in force, takes data once erased while the window is open, and
commits by judging the copy, a rejected one staying blank; a committed copy is applied through a Pour of every owner,
which the path's mask must hold. -/
def Obligations.IngotCommands : Prop :=
  (∀ (s : State) (path : PathId) (n : Nat), serves s path = true → hasRole s path 7 = true → n ≤ 16777216 → n % 4 = 0 →
    s.mgmt.update = none → s.therm.flashOpen = true → ∃ u v t : State, exec (.ingotBegin path n) s = .next t ∧
      u = s.modMgmt (fun m => { m with
        update := some { path := path, length := n, copy := targetCopy s, erased := false }
        committed := if m.committed = some (targetCopy s) then none else m.committed }) ∧
      v = { u with flash := Sparse.clear s.flash (copyBase (targetCopy s)) (copyBase (targetCopy s) + s.jrn.eraseUnit) } ∧
      t = answer (journalIngot v 6 (targetCopy s) path) 0 [] []) ∧
  (∀ (s : State) (u : Update), s.mgmt.update = some u → u.erased = false → s.therm.flashOpen = true →
    exec .ingotEraseDone s = .next ((eraseFlash s (copyBase u.copy) (ceilDiv u.length s.jrn.eraseUnit * s.jrn.eraseUnit)).modMgmt fun m =>
      { m with update := some { u with erased := true } })) ∧
  (∀ (s : State) (path : PathId) (ofs : Nat) (l : List Byte) (u : Update), serves s path = true → hasRole s path 7 = true →
    s.mgmt.update = some u → u.erased = true → u.waitData = none → u.waitCommit = false → l.length ≤ 1024 → 4 ≤ ofs → ofs + l.length ≤ u.length →
    (s.therm.flashOpen = true → exec (.ingotData path ofs l) s = .next (answer (programFlash s (copyBase u.copy + ofs) l) 0 [] [])) ∧
    (s.therm.flashOpen = false → exec (.ingotData path ofs l) s =
      .next (s.modMgmt fun m => { m with update := some { u with waitData := some (ofs, l), waitAt := some s.tb.tick } }))) ∧
  (∀ (s : State) (path : PathId) (u : Update), serves s path = true → hasRole s path 7 = true →
    s.mgmt.update = some u → u.erased = true → u.waitData = none → u.waitCommit = false → s.therm.flashOpen = true →
    exec (.ingotCommit path) s = .next (commitIngot s u)) ∧
  (∀ (s : State) (path : PathId) (c : Nat), serves s path = true → hasRole s path 7 = true → s.mgmt.committed = some c →
    (31 &&& pathMask s path = 31 → s.ladle.pending = none → ∃ u t : State, exec (.ingotApply path) s = .next t ∧
      t = answer (beginPour u 31 false 0 .ingotApply path) 0 [BitVec.ofNat 32 (u.ladle.seq + 1)] [] ∧
      u.mgmt.applying = some c ∧ u.ladle.act = s.ladle.act) ∧
    (31 &&& pathMask s path ≠ 31 → exec (.ingotApply path) s = .next (answer (refuseRole s path 7 0) 3 [] []))) ∧
  (∀ (s : State) (u : Update), judgeCopy s u.copy true ≠ 0 → (commitIngot s u).flash = s.flash ∧ (commitIngot s u).mgmt.committed = s.mgmt.committed)

/-- R424: a device with no written anchor slot accepts no ingot. -/
def Obligations.NoAnchorNoIngot : Prop :=
  ∀ (s : State) (c : Nat) (update : Bool), (∀ x ∈ s.fuse.anchors, x = none) → judgeCopy s c update ≠ 0

/-- R465, R466: a STATUS frame answers SPI_STATUS with its CRC and clears IRQ; a WRITE or READ frame whose form is wrong
is counted as refused with SPI_FRAME_ERR, its fault in LAST_RESULT; a good WRITE frame writes its words, a good READ
frame answers 0xA5, the words and their CRC. -/
def Obligations.SpiFrames : Prop :=
  (∀ s : State, s.mode.core = true → exec .spiStatusFrame s = .next (s.modMgmt fun m => { m with
    spiReply := beBytes 4 (spiStatus s.mgmt) ++ beBytes 2 (crc16 (beBytes 4 (spiStatus s.mgmt))), irq := false })) ∧
  (∀ (s : State) (l : List Byte) (e : Nat), s.mode.core = true → spiForm 0x02 1 l = e → e ≠ 0 →
    exec (.spiWriteFrame l) s = .next (raiseP (s.modMgmt fun m => { m with
      lastResult := e, lastOp := (l.getD 0 0).toNat, spiReply := [], refused := (m.refused + 1) % 256 }) 0x0016 1 .spi)) ∧
  (∀ (s : State) (l : List Byte) (e : Nat) (ready : Bool), s.mode.core = true → spiForm 0x03 0 l = e → e ≠ 0 →
    exec (.spiReadFrame l ready) s = .next (raiseP (s.modMgmt fun m => { m with
      lastResult := e, lastOp := (l.getD 0 0).toNat, spiReply := [0x5A], refused := (m.refused + 1) % 256 }) 0x0016 1 .spi)) ∧
  (∀ (s : State) (l : List Byte), s.mode.core = true → spiForm 0x02 1 l = 0 → serves s .spi = true →
    (pathWrite s .spi (beAt l 2 4) (beWords ((l.drop 6).take (4 * beAt l 1 1)))).2 = 0 →
    exec (.spiWriteFrame l) s = .next ((pathWrite s .spi (beAt l 2 4) (beWords ((l.drop 6).take (4 * beAt l 1 1)))).1.modMgmt fun m => { m with
      lastResult := 0, lastOp := (l.getD 0 0).toNat, spiReply := [], refused := m.refused % 256 })) ∧
  (∀ (s : State) (l : List Byte) (w : Word) (u : State), s.mode.core = true → spiForm 0x03 0 l = 0 → beAt l 1 1 = 1 →
    servesRead s .spi (beAt l 2 4) = true → gatedRead s .spi (beAt l 2 4) = (u, 0, w) →
    exec (.spiReadFrame l true) s = .next (u.modMgmt fun m => { m with
      lastResult := 0, lastOp := (l.getD 0 0).toNat, refused := m.refused % 256
      spiReply := [0xA5] ++ beBytes 4 w.toNat ++ beBytes 2 (crc16 (beBytes 4 w.toNat)) }))

/-- R299: a set-point change runs its course: once no channel is granted every bank precharges and every debt is repaid;
its end puts the new set point in force with its trained values, clears the debts, raises HBM_FSP_CHANGE and grants
again. While a channel is granted the change waits. R302, R303: a pass begins when it is due, gathers 128 slots at
least 50 µs apart, and ends in one write of the new values or in a failure with HBM_TRAIN_FAIL; a failed pass is
repeated 1 s later, and the third failure in a row takes the set point's VALID. -/
def Obligations.SetPointsAndTraining : Prop :=
  ((∀ s : State, s.hbm.st = 2 → s.hbm.drained = false → (∀ c ∈ s.run.chans, c.owner = none) → ∃ t, exec .hbmFspDrained s = .next t ∧
     t = { s with hbm := t.hbm } ∧ t.hbm.st = 2 ∧ t.hbm.drained = true ∧ t.hbm.openRows = [] ∧ t.hbm.nrq = List.replicate 32 [] ∧
     (∀ d ∈ t.hbm.debt, d ≤ 0) ∧ t.hbm.mem = s.hbm.mem) ∧
   (∀ s : State, (∃ c ∈ s.run.chans, c.owner ≠ none) → exec .hbmFspDrained s = .next s) ∧
   (∀ s : State, s.hbm.st = 2 → s.hbm.drained = true → ∃ u : State, exec .hbmFspDone s = .next (grantAll (raise u 0x0603 (hbmData u 0))) ∧
     u = { s with hbm := u.hbm } ∧ u.hbm.st = 1 ∧ u.hbm.fspNow = s.hbm.target.getD s.hbm.fspNow ∧ u.hbm.target = none ∧
     u.hbm.debt = List.replicate 16 0 ∧ u.hbm.phy = List.replicate 16 (nth s.hbm.trained u.hbm.fspNow 0) ∧ u.hbm.mem = s.hbm.mem)) ∧
  ((∀ s : State, s.hbm.st = 1 → s.hbm.training = false →
     (s.hbm.passTick + hbmRetrain (s.rt 4) * 400000000 ≤ s.tb.tick ∨ 64 ≤ (s.hbm.temp - s.hbm.passTemp).natAbs) →
     exec .hbmRetrainStart s = .next (s.modHbm fun h => { h with training := true, slots := 0, retry := false })) ∧
   (∀ s : State, s.hbm.training = true → s.hbm.slots < 128 →
     (s.hbm.slots = 0 ∨ s.hbm.slotAt + 20000 ≤ s.tb.tick → exec .hbmTrainSlot s = .next (s.modHbm fun h =>
       { h with slots := h.slots + 1, slotAt := s.tb.tick })) ∧
     (s.hbm.slots ≠ 0 → s.tb.tick < s.hbm.slotAt + 20000 → exec .hbmTrainSlot s = .next s)) ∧
   (∀ s : State, s.hbm.training = true → s.hbm.slots = 128 → exec (.hbmTrainCommit true) s =
     .next (resumeChange (s.modHbm fun h => { endPass h s.tb.tick with trained := upd h.trained h.fspNow (· + 1), fails := 0 }))) ∧
   (∀ s : State, s.hbm.training = true → s.hbm.slots = 128 → ∃ u v : State, v = recovered (fault u 0x0604 (hbmData s 0) 0) 0x0604 0 ∧
     u = s.modHbm (fun h => { endPass h s.tb.tick with fails := h.fails + 1, retry := true }) ∧
     exec (.hbmTrainCommit false) s = .next (if 3 ≤ v.hbm.fails then
       loseFsp (v.modHbm fun h => { h with fails := 0, retry := false }) v.hbm.fspNow else resumeChange v)) ∧
   (∀ s : State, s.hbm.retry = true → s.hbm.st = 1 → s.hbm.training = false →
     (s.hbm.passTick + 400000000 ≤ s.tb.tick →
       exec .hbmTrainRetry s = .next (s.modHbm fun h => { h with training := true, slots := 0, retry := false })) ∧
     (s.tb.tick < s.hbm.passTick + 400000000 → exec .hbmTrainRetry s = .next s)))

/-- R303, R306, R308, R310, R311: a due refresh closes the channel's rows, lowers its debt by one interval and loads the
trained values; the end of a debt flush withholds nothing any longer; self-refresh, entered automatically or at Dusk,
repays the debts and closes every row, and its exit takes a set point asked for meanwhile, trains it anew where the
pattern fails, and grants again. R305: 85 °C doubles the refresh rate with HBM_REF_DOUBLE and re-judges every channel;
8 ms below 81 °C ends it. Other readings only keep the temperature. -/
def Obligations.RefreshAndTemperature : Prop :=
  ((∀ (s u : State) (h : Fin 16), u = flushCheck s h → carrying u = true →
     (refreshDue u h = true → ∃ t, exec (.hbmRefresh h) s = .next t ∧ t = { u with hbm := t.hbm } ∧ t.hbm.mem = s.hbm.mem ∧
       t.hbm.openRows = (s.hbm.openRows.filter fun e => pcOfBank e.1 / 2 != h) ∧
       nth t.hbm.debt h 0 = debtNow s.hbm s.tb.tick h - refreshT s.hbm ∧
       t.hbm.phy = listSet s.hbm.phy h (nth s.hbm.trained s.hbm.fspNow 0)) ∧
     (refreshDue u h = false → exec (.hbmRefresh h) s = .next u)) ∧
   (∀ (s : State) (h : Fin 16), nth s.hbm.flushing h false = true → debtNow s.hbm s.tb.tick h ≤ 7 * refreshT s.hbm →
     exec (.hbmRefreshDone h) s = .next (s.modHbm fun x => { x with flushing := listSet x.flushing h false })) ∧
   (∀ (s : State) (h : Fin 16), nth s.hbm.flushing h false = false ∨ 7 * refreshT s.hbm < debtNow s.hbm s.tb.tick h →
     exec (.hbmRefreshDone h) s = .next (flushCheck s h)) ∧
   (∀ (s : State) (h : Fin 16), 8 * refreshT s.hbm < debtNow s.hbm s.tb.tick h → nth s.hbm.flushing h false = false →
     flushCheck s h = raise (s.modHbm fun x => { x with flushing := listSet x.flushing h true }) 0x0601 (hbmData s h)) ∧
   (∀ (s : State) (dusk : Bool), s.hbm.training = false → (dusk = true ↔ s.mode.dev = 7 ∧ s.mode.duskStep = 5) →
     (dusk = true → s.hbm.st ≠ 4) → (dusk = false → s.hbm.st = 1 ∧ autoSelfRefresh s = true) → ∃ t, exec .hbmSrEnter s = .next t ∧
     t = { s with hbm := t.hbm } ∧ t.hbm.st = 4 ∧ t.hbm.openRows = [] ∧ (∀ d ∈ t.hbm.debt, d ≤ 0) ∧ t.hbm.mem = s.hbm.mem ∧ t.hbm.srDusk = dusk) ∧
   (∀ (s : State) (a b : Bool), s.hbm.st ≠ 5 → exec (.hbmSrExit a b) s = .next s) ∧
   (∀ s : State, s.hbm.st = 5 → s.hbm.srDusk = false → ∃ u v : State,
     u = { s with hbm := u.hbm } ∧ u.hbm.st = 1 ∧ u.hbm.fspNow = s.hbm.target.getD s.hbm.fspNow ∧ u.hbm.target = none ∧
     u.hbm.debt = List.replicate 16 0 ∧ u.hbm.mem = s.hbm.mem ∧ v = (if s.hbm.target.isSome then raise u 0x0603 (hbmData u 0) else u) ∧
     (∀ train, exec (.hbmSrExit true train) s = .next (grantAll v)) ∧
     exec (.hbmSrExit false true) s = .next (grantAll ((raise v 0x0608 (hbmData v 0)).modHbm fun h =>
       { h with trained := upd h.trained u.hbm.fspNow (· + 1), phy := List.replicate 16 (nth h.trained u.hbm.fspNow 0 + 1) })))) ∧
  ((∀ (s : State) (x : Int), s.hbm.st ≠ 4 → s.hbm.hot = false → 680 ≤ x → ∃ u : State,
     exec (.hbmTempRead x) s = .next ((List.range 16).foldl flushCheck (raise u 0x0602 1)) ∧ u = { s with hbm := u.hbm } ∧
     u.hbm.hot = true ∧ u.hbm.temp = x ∧ u.hbm.mem = s.hbm.mem) ∧
   (∀ (s : State) (x : Int) (since : Nat), s.hbm.st ≠ 4 → s.hbm.hot = true → x < 648 → s.hbm.coolSince = some since → since + 3200000 ≤ s.tb.tick →
     ∃ u : State, exec (.hbmTempRead x) s = .next (raise u 0x0602 0) ∧ u = { s with hbm := u.hbm } ∧ u.hbm.hot = false ∧ u.hbm.temp = x) ∧
   (∀ (s : State) (x : Int), s.hbm.st ≠ 4 → s.hbm.hot = false → x < 680 → ∃ t, exec (.hbmTempRead x) s = .next t ∧
     t = { s with hbm := t.hbm } ∧ t.hbm.hot = false ∧ t.hbm.temp = x ∧ t.hbm.mem = s.hbm.mem))

/-- R38, R294, R307, R312, R319, R325, R327: a transaction of the channel's owner within the capacity, while the stack
carries transactions, is carried out: its row is opened, and the read or write finished, counted and carried; an error
within a locked sequence ends the sequence. Anyone else's, and what a locked sequence may not hold, does nothing.
R312: a granted write stores its 64 bytes at its place unless a third parity error fails it, when the data stay and
the Runner is told; a granted read delivers the 64 bytes there, or poison after a third parity error or an
uncorrectable one; it never writes HBM3. -/
def Obligations.HbmTransactions : Prop :=
  ((∀ (s : State) (r e : Fin 16) (a : Nat) (w : Bool) (d : List Byte) (ecc parity : Nat) (p : HbmPlace),
     p = hbmPlace s.hbm.mapOrder (a / 64 * 64) → canIssue s r (a / 64 * 64) = true → sequenceAdmits (s.chanAt p.ch) w = true →
     ∃ u v : State, u = { s with hbm := u.hbm } ∧ u.hbm.mem = s.hbm.mem ∧ (p.bankKey, p.row) ∈ u.hbm.openRows ∧
       v = (if w then finishWrite u p r (a / 64 * 64) d parity else finishRead u p r e (a / 64 * 64) ecc parity) ∧
       ((s.chanAt p.ch).locked = false ∨ (parity < 3 ∧ (w = true ∨ ecc ≠ 2)) →
         exec (.hbmTransaction r e a w d ecc parity) s = .next (countParity (carryOne v p.ch r w) p.ch (min parity 3))) ∧
       ((s.chanAt p.ch).locked = true → 3 ≤ parity ∨ (w = false ∧ ecc = 2) →
         exec (.hbmTransaction r e a w d ecc parity) s = .next (countParity (abandonSequence v r p.ch) p.ch (min parity 3)))) ∧
   (∀ (s : State) (r e : Fin 16) (a : Nat) (w : Bool) (d : List Byte) (ecc parity : Nat),
     canIssue s r (a / 64 * 64) = false ∨ sequenceAdmits (s.chanAt (hbmPlace s.hbm.mapOrder (a / 64 * 64)).ch) w = false →
     exec (.hbmTransaction r e a w d ecc parity) s = .next s) ∧
   (∀ (s : State) (r a : Nat), hbmCapacity s ≤ a ∨ (s.chanAt (hbmPlace s.hbm.mapOrder a).ch).owner ≠ some r ∨ s.hbm.drained = true →
     canIssue s r a = false)) ∧
  ((∀ (s : State) (p : HbmPlace) (r a parity : Nat) (d : List Byte), parity < 3 →
     (finishWrite s p r a d parity).hbm.mem = Memory.store ramDefault s.hbm.mem a (d.take 64) ∧
       (finishWrite s p r a d parity).hbm.ansKind = 0 ∧ (finishWrite s p r a d parity).hbm.ansRunner = r) ∧
   (∀ (s : State) (p : HbmPlace) (r a parity : Nat) (d : List Byte), 3 ≤ parity →
     (finishWrite s p r a d parity).hbm.mem = s.hbm.mem ∧ (finishWrite s p r a d parity).hbm.ansKind = 2) ∧
   (∀ (s : State) (p : HbmPlace) (r e a ecc parity : Nat), ecc ≠ 2 → parity < 3 →
     (finishRead s p r e a ecc parity).hbm.mem = s.hbm.mem ∧ (finishRead s p r e a ecc parity).hbm.ansKind = 0 ∧
     (finishRead s p r e a ecc parity).hbm.ansData = Memory.bytes ramDefault s.hbm.mem a 64) ∧
   (∀ (s : State) (p : HbmPlace) (r e a ecc parity : Nat), ecc = 2 ∨ 3 ≤ parity →
     (finishRead s p r e a ecc parity).hbm.mem = s.hbm.mem ∧ (finishRead s p r e a ecc parity).hbm.ansKind = 1))

/-- R319, R320, R363, R364: a Runner's request on a channel joins those that wait, a tempered Runner's takes its tokens
first or waits for them, and behind Runners that wait it takes its place among them by index; a free channel with one
requester is granted at once; an owner's release frees the channel. R321, R322: the lottery draws among those that
hold tickets, in proportion to them; a Runner that has reached its ceiling wins before any draw, RUNNER_00 to
RUNNER_07 first. -/
def Obligations.RunnersAndTheLottery : Prop :=
  ((∀ (s : State) (r h : Fin 16), (s.run.tokenWait.any fun w => w.1 == (r : Nat) && w.2.1 == (h : Nat)) = false →
     (r : Nat) < 8 ∨ (temperLevel s = 0 ∧ s.run.tokenWait = []) → exec (.runnerRequest r h) s = .next (addRequest s h r false)) ∧
   (∀ (s : State) (r h : Fin 16), 8 ≤ (r : Nat) → temperLevel s ≠ 0 → s.run.tokenWait = [] → 1 ≤ tokensNow s → exec (.runnerRequest r h) s =
     .next (addRequest (s.modRun fun x => { x with tokens := tokensNow s - 1, tokensAt := s.tb.tick }) h r false)) ∧
   (∀ (s : State) (r h : Fin 16), 8 ≤ (r : Nat) → temperLevel s ≠ 0 → s.run.tokenWait = [] → tokensNow s = 0 →
     exec (.runnerRequest r h) s = .next (s.modRun fun x => { x with tokenWait := [((r : Nat), (h : Nat), 1, false)] })) ∧
   (∀ (s : State) (r h : Fin 16), 8 ≤ (r : Nat) → s.run.tokenWait ≠ [] → (s.run.tokenWait.any fun w => w.1 == (r : Nat) && w.2.1 == (h : Nat)) = false →
     exec (.runnerRequest r h) s = .next (serveTokens (s.modRun fun x => { x with tokenWait := s.run.tokenWait ++ [((r : Nat), (h : Nat), 1, false)] })
       ((s.run.tokenWait ++ [((r : Nat), (h : Nat), 1, false)]).foldl (fun l w => insertWait w l) []))) ∧
   (∀ (s : State) (r h : Fin 16), (s.run.tokenWait.any fun w => w.1 == (r : Nat) && w.2.1 == (h : Nat)) = true → exec (.runnerRequest r h) s = .next s) ∧
   (∀ (s : State) (r h : Fin 16), (s.chanAt h).owner = some (r : Nat) → exec (.runnerRelease r h) s = .next (grantFree (s.modArb h fun c =>
     { c with owner := none, locked := false, accepted := false, carried := 0, shadows := 0 }) h)) ∧
   (∀ (s : State) (r h : Fin 16), (s.chanAt h).owner ≠ some (r : Nat) → exec (.runnerRelease r h) s = .next (dropRequest s h r)) ∧
   (∀ (s : State) (h r : Nat), (s.chanAt h).owner = none → (s.chanAt h).drawn = none → requesters s h = [r] → grantFree s h = grantTo s h r) ∧
   (∀ s : State, exec .hbmTokenWaitEnd s = .next (serveTokens s (s.run.tokenWait.foldl (fun l w => insertWait w l) [])))) ∧
  ((∀ (tk : Nat → Nat) (x : Nat) (req : List Nat), x < 65536 → (∃ r ∈ req, tk r ≠ 0) →
     ∃ r, lotteryWinner tk x req = some r ∧ r ∈ req ∧ tk r ≠ 0) ∧
   (∀ (tk : Nat → Nat) (x : Nat) (req : List Nat), (∀ r ∈ req, tk r = 0) → lotteryWinner tk x req = req.head?) ∧
   (∀ (tk : Nat → Nat) (x : Nat) (pre post : List Nat) (r : Nat), (∀ q ∈ pre ++ r :: post, tk q ≠ 0) →
     (pre.map tk).sum ≤ x * ((pre ++ r :: post).map tk).sum / 65536 → x * ((pre ++ r :: post).map tk).sum / 65536 < (pre.map tk).sum + tk r →
     lotteryWinner tk x (pre ++ r :: post) = some r) ∧
   (∀ (c : ChanArb) (req : List Nat) (r : Nat), ceilingWinner c req = some r → r ∈ req ∧ r ∈ c.atCeil ∧
     (8 ≤ r → ∀ q ∈ c.atCeil, q ∈ req → 8 ≤ q)))

/-- R38, R325 to R327, R329, R330: a lock request that may not be made only advances REFUSED; a commit stores its data and
releases the grant, or after a third parity error stores nothing and abandons the sequence; a reset Runner drops its
requests and grants, and each lock it held is LOCK_ORPHAN; a cycle aborts its youngest lock holder, or is
WAIT_DEADLOCK. -/
def Obligations.LockedSequences : Prop :=
  (∀ (s : State) (r h : Fin 16) (waits : Bool) (n : Nat), (r : Nat) < 14 ∨ waits = true ∨ waitsElsewhere s r h = true ∨ 8 < n →
    exec (.lockRequest r h waits n) s = .next (s.modRun fun x => { x with refused := upd x.refused r (satAdd 0xFF 1) })) ∧
  (∀ (s : State) (r h : Fin 16) (n : Nat), 14 ≤ (r : Nat) → waitsElsewhere s r h = false → n ≤ 8 →
    exec (.lockRequest r h false n) s = .next (askChannel s h r n true)) ∧
  (∀ (s u : State) (r : Fin 16) (a parity : Nat) (d : List Byte) (p : HbmPlace), p = hbmPlace s.hbm.mapOrder (a / 64 * 64) →
    canIssue s r (a / 64 * 64) = true → (s.chanAt p.ch).locked = true →
    u = countParity (finishWrite ((openRow s p).modArb p.ch fun c => { c with accepted := true }) p r (a / 64 * 64) d parity) p.ch (min parity 3) →
    (parity < 3 → exec (.lockCommit r a d parity) s = .next (releaseOwner u p.ch)) ∧
    (3 ≤ parity → exec (.lockCommit r a d parity) s = .next (abandonSequence u r p.ch))) ∧
  (∀ (s u : State) (r : Fin 16), u = s.modRun (fun x => { x with tokenWait := x.tokenWait.filter fun w => w.1 != (r : Nat) }) →
    exec (.runnerReset r) s = .next ((resetChannels u r).2.foldl (fun s l => recovered (fault
      (s.modRun fun x => { x with orphans := satAdd 0xFFFF x.orphans 1 }) 0x0501 (orphanData r l.1 l.2) r) 0x0501 r) (resetChannels u r).1)) ∧
  (∀ (s : State) (r h : Nat) (acc : Bool), s.run.chans.length = 16 → ((h, acc) ∈ (resetChannels s r).2 ↔
    h < 16 ∧ (s.chanAt h).owner = some r ∧ (s.chanAt h).locked = true ∧ (s.chanAt h).accepted = acc)) ∧
  (∀ (s : State) (l : List (Fin 16)), youngest (cycleLocks s (l.map (·.val))) = none → exec (.waitCycle l) s = .next (raiseHalt s 0x0504 0)) ∧
  (∀ (s : State) (l : List (Fin 16)) (r h at_ : Nat), youngest (cycleLocks s (l.map (·.val))) = some (r, h, at_) → exec (.waitCycle l) s =
    .next (fault (s.modRun fun x => { x with rollback := some (r, h) }) 0x0502 (r + h * 2 ^ 8) 0)) ∧
  (∀ (s : State) (r h : Nat), s.run.rollback = some (r, h) → (s.chanAt h).owner = some r → ∃ u v : State, exec .lockRollback s = .next (raise v 0x0503 0x0502) ∧
    u = (resetChannels (s.modRun fun x => { x with rollback := none, rollbacks := satAdd 0xFFFF x.rollbacks 1
                                                   tokenWait := x.tokenWait.filter fun w => w.1 != r }) r).1 ∧
    v = { u with log := { u.log with recovering := u.log.recovering.erase (0x0502, 0) } })

/-- R332, R340, R342, R348, R458: MAP on a free descriptor takes its pages and tables (which ones: assumption 16) and
starts zeroing, and reports 0; a bad argument, an overlap, a busy manager or a surface in use reports its result and
changes no surface; FREE of a mapped surface is its revoke point, with SURF_FREED, and an armed Pour notes it; FREE of
another reports 6; an undefined OP is RESULT 2, and a path without the SURFACE role is refused. R332, R337, R340: a
surface becomes reachable when its pages are zero and its tables built; after the revoke no host right remains in the
TLB or the cache; an unreferenced freed surface is reclaimed, its TLB entries and walks gone, and a referenced one
waits; then its pages (overwritten first where it was PROT) and tables return to their pools and its descriptor is
free. -/
def Obligations.Surfaces : Prop :=
  ((∀ (s : State) (path : PathId) (i : Fin 4096) (v : Word), serves s path = true → hasRole s path 2 = true →
     exec (.surfCmdMap path i) s = .next (surfMap s i path) ∧ exec (.surfCmdFree path i) s = .next (surfFree s i path) ∧
     (nbits v.toNat 31 28 = 1 → exec (.surfCmdBadOp path v) s = .next (surfMap s (nbits v.toNat 11 0) path)) ∧
     (nbits v.toNat 31 28 = 2 → exec (.surfCmdBadOp path v) s = .next (surfFree s (nbits v.toNat 11 0) path)) ∧
     (nbits v.toNat 31 28 ≠ 1 → nbits v.toNat 31 28 ≠ 2 → exec (.surfCmdBadOp path v) s = .next (raiseP (s.modSurf fun m =>
       { m with result := if m.busy then 1 else 2, cmdSurf := nbits v.toNat 11 0 }) 0x0402 (nbits v.toNat 11 0) path))) ∧
   (∀ (s : State) (path : PathId) (i : Fin 4096) (v : Word), serves s path = true → hasRole s path 2 = false →
     exec (.surfCmdMap path i) s = .next (refuseRole s path 2 0x40000) ∧ exec (.surfCmdFree path i) s = .next (refuseRole s path 2 0x40000) ∧
     exec (.surfCmdBadOp path v) s = .next (refuseRole s path 2 0x40000)) ∧
   (∀ (s : State) (i : Nat) (path : PathId),
     (s.surf.busy = true ∨ (s.surfAt i).st ≠ 0 → surfMap s i path = raiseP (s.modSurf fun m => { m with result := 1, cmdSurf := i }) 0x0402 i path) ∧
     (s.surf.busy = false → (s.surfAt i).st = 0 → mapArgs s (argSurface s) ≠ 0 → surfMap s i path =
       raiseP (s.modSurf fun m => { m with result := mapArgs s (argSurface s), cmdSurf := i }) 0x0402 i path) ∧
     (s.surf.busy = true → surfFree s i path = raiseP (s.modSurf fun m => { m with result := 1, cmdSurf := i }) 0x0402 i path) ∧
     (s.surf.busy = false → (s.surfAt i).st ≠ 2 → surfFree s i path = raiseP (s.modSurf fun m => { m with result := 6, cmdSurf := i }) 0x0402 i path) ∧
     (s.surf.busy = false → (s.surfAt i).st = 2 → surfFree s i path = raiseP (((s.modLadle fun l => if l.armed then
         { l with pending := l.pending.map fun p => { p with freed := i :: p.freed } } else l).modSurfAt i fun x =>
           { x with st := 3, revoking := true }).modSurf fun m => { m with result := 0, cmdSurf := i }) 0x0403 i path)) ∧
   (∀ (s : State) (i l1 : Nat) (path : PathId) (pages l2s : List (Nat × Nat)) (pool tp1 tp2 : List (Nat × Nat)), s.surf.busy = false → (s.surfAt i).st = 0 →
     mapArgs s (argSurface s) = 0 → takePages (2 ^ (argSurface s).pageLog) (argSurface s).bytes s.surf.pool = (pages, pool, 0) →
     takeRun (argSurface s).l1Bytes s.surf.tablePool = some (l1, tp1) → takePages 4096 (4096 * (argSurface s).l1Count) tp1 = (l2s, tp2, 0) →
     surfMap s i path = ((s.setSurf i { argSurface s with
         l1 := l1 / 4096, pages := pages, tables := (l1, (argSurface s).l1Bytes) :: l2s, mapNo := s.surf.maps + 1 }).modSurf
       fun m => { m with pool := pool, tablePool := tp2, busy := true, maps := s.surf.maps + 1, result := 0, cmdSurf := i }))) ∧
  ((∀ (s : State) (i : Nat) (x : Surface), (s.surf.surfs.find? fun e => e.2.st == 1) = some (i, x) → s.surf.busy = true →
     exec .surfMapped s = .next (raise (((s.modHbm fun h => { h with mem := buildTables i x (zeroExtents h.mem x.pages) }).modSurfAt i fun x =>
       { x with st := 2 }).modSurf fun m => { m with busy := false }) 0x0401 i)) ∧
   (∀ (s : State) (i : Fin 4096), (s.surfAt i).st = 3 → ∃ t, exec (.surfRevokeDone i) s = .next t ∧ t = { s with surf := t.surf } ∧
     (∀ e ∈ t.surf.tlb, e.surf = i → e.hostR = false ∧ e.hostW = false) ∧ (i : Nat) ∉ t.surf.cache ∧ t.surf.pool = s.surf.pool) ∧
   (∀ (s : State) (i : Fin 4096), (s.surfAt i).st = 3 → (s.surfAt i).unreferenced = true → ∃ t, exec (.surfReclaimStart i) s = .next t ∧
     t = { s with surf := t.surf } ∧ (t.surfAt i).st = 4 ∧ (∀ e ∈ t.surf.tlb, e.surf ≠ i) ∧ (i : Nat) ∉ t.surf.cache ∧
     (∀ w ∈ t.surf.walks, w.surf = i → w.gone = true)) ∧
   (∀ (s : State) (i : Fin 4096), (s.surfAt i).unreferenced = false → exec (.surfReclaimStart i) s = .next s) ∧
   (∀ (s : State) (i : Fin 4096), (s.surfAt i).st = 4 → ∃ u v : State, exec (.surfReclaimed i) s = .next (raise v 0x0404 i) ∧
     u = (if (s.surfAt i).prot then s.modHbm fun h => { h with mem := zeroExtents h.mem (s.surfAt i).pages } else s) ∧
     v = (u.setSurf i {}).modSurf fun m => { m with
       pool := (s.surfAt i).pages.foldl (fun p e => giveBack e p) m.pool
       tablePool := (s.surfAt i).tables.foldl (fun p e => giveBack e p) m.tablePool }))

/-- R187, R335, R336, R340, R343 to R345: a miss starts a walk in a free slot, a layer fetch only through its engine's
Runner; a finished walk frees its slot and enters its page in the TLB, or its fault is held for the layer fetch,
recorded, or reported to the host; a walk of a reclaimed surface, or of a host access after the revoke point, faults
with kind 3. -/
def Obligations.TranslationWalks : Prop :=
  (∀ (s : State) (i : Fin 4096) (ofs : Nat) (r e : Fin 16) (w : Bool) (o : Fin 4) (l : Fin 128) (q f : Nat),
    tlbFind s i (ofs / 2 ^ (s.surfAt i).pageLog) = none → s.surf.walks.length < 8 →
    ((r : Nat) < 9 ∨ 12 < (r : Nat) ∨ (r : Nat) = engineRunner e → exec (.tlbMiss i ofs r e w o l q f) s = .next (s.modSurf fun m =>
      { m with walks := m.walks ++ [⟨i, ofs, r, e, w, o, l, q, f, decide ((r : Nat) = 8 ∧ (s.surfAt i).st = 3)⟩] })) ∧
    (9 ≤ (r : Nat) → (r : Nat) ≤ 12 → (r : Nat) ≠ engineRunner e → exec (.tlbMiss i ofs r e w o l q f) s = .next s)) ∧
  (∀ (s u : State) (k : Nat) (w : Walk) (poison : Bool), s.surf.walks[k]? = some w →
    u = s.modSurf (fun m => { m with walks := m.walks.eraseIdx k }) →
    (∀ z phys, w.gone = false → walkTables u w.surf w.offset false poison = (z, some phys) →
      exec (.tlbWalkDone k poison) s = .next (tlbEnter u w.surf (w.offset / 2 ^ (s.surfAt w.surf).pageLog) phys)) ∧
    (∀ kind, (w.gone = true ∧ kind = 3) ∨ (w.gone = false ∧ walkTables u w.surf w.offset false poison = (kind, none)) →
      (9 ≤ w.runner → w.runner ≤ 12 → exec (.tlbWalkDone k poison) s =
        .next (u.modSurf fun m => { m with heldFaults := m.heldFaults ++ [(w, kind)] })) ∧
      (w.runner = 8 → exec (.tlbWalkDone k poison) s =
        .next (raiseLimited (recordXlate u w kind) 0x0406 0 (xlateData w.surf kind) oneSecond .bar0)) ∧
      (w.runner < 8 ∨ 12 < w.runner → exec (.tlbWalkDone k poison) s = .next (recordXlate u w kind)))) ∧
  (∀ (s : State) (i ofs : Nat) (host poison : Bool), (s.surfAt i).st = 2 → (s.surfAt i).bytes ≤ ofs → walkTables s i ofs host poison = (1, none)) ∧
  (∀ (s : State) (i ofs : Nat) (poison : Bool), (s.surfAt i).st = 3 → walkTables s i ofs true poison = (3, none))

/-- R27, R81, R82, R133 to R135: the next load goes out from the front buffer behind an ALIGN and a LOAD_START column,
with the next sequence number and the CRC-32C of its bytes, through the port's elastic buffer; its data columns and
LOAD_END follow and free the link for the one after it; a load incomplete at its limit makes its strobe late, which is
a LOAD_LATE fault that holds the frame. -/
def Obligations.LoadsAreSent : Prop :=
  (∀ (s : State) (o : Fin 4) (l : LoadRun) (rest : List LoadRun) (run : LoadRun) (words : List Nat),
    (s.portAt o).loads = l :: rest → (s.portAt o).current = none → (s.portAt o).link = 5 → (s.portAt o).darkByLink = false →
    words = loadWords (runBytes s o l) → run = { l with seq := (s.portAt o).loadSeq, words := words.length, crc := crc32c (runBytes s o l) } →
    exec (.loadStart o) s = .next (s.modPort o fun y => { sendControl (frontCfg s o) o
        (startPayload (frontCfg s o) o (progNblocks (frontCfg s o) o (frontBuf s o).prog) run)
        (sendAlign (frontCfg s o) o { fillTo (frontCfg s o) o s.tb.tick y with wire := [] }) with
      loads := rest, current := some run, loadSeq := (y.loadSeq + 1) % 256
      elastic := words.take elasticWords, unread := words.length - elasticWords })) ∧
  (∀ (s : State) (o : Fin 4) (l : LoadRun) (words : List Nat), (s.portAt o).current = some l → words = loadWords (runBytes s o l) →
    l.words = words.length → (s.portAt o).elastic = words.take elasticWords → (s.portAt o).unread = words.length - elasticWords →
    exec (.loadDone o) s = .next (s.modPort o fun y => afterLoad (s.rt o) o s.tb.tick
      { sendControl (frontCfg s o) o (loadEndBlock l.seq l.crc) (sendData (frontCfg s o) o (dataColumns (frontCfg s o) o words.length) words y) with
        current := none, elastic := [], unread := 0 })) ∧
  (∀ (s : State) (o : Fin 4), (s.portAt o).current = none → exec (.loadDone o) s = .next s) ∧
  (∀ (s : State) (o : Fin 4) (l : LoadRun), (s.portAt o).current = some l ∨ ((s.portAt o).current = none ∧ (s.portAt o).loads.head? = some l) →
    (s.seqAt o).holding = false → (s.portAt o).darkByLink = false →
    exec (.loadLate o) s = .next (holdDark (fault (s.modSeq o fun q => { q with lateCount := satAdd 0xFFFFFFFF q.lateCount 1 })
      0x0A05 o o) o l.strobe l.deadline))

/-- R137, R138, R154: a command goes out when no echo is awaited and no load is being sent, and waits in order otherwise;
one without an echo is sent again three times with its own sequence number, after a load that is being sent; then
CMD_FAIL is raised and the link retrains. R137, R139, R154, R169: PORT_CMD sends STATUS_REQ while the link is up; a
test pattern is taken only in STANDBY: on PLANE, 0 stops it and parks, 1 starts PRBS31 and 2 unparks first, a running
one ending before; a pattern of a SCAN output is 0 or 1. Anything else is PORT_REJECT. While the link is not up
nothing is sent (the model's choice, assumption 100). -/
def Obligations.LinkCommands : Prop :=
  ((∀ (s : State) (o : Fin 4) (c : PortCmd), (s.portAt o).cmd = some c → c.tries < 3 → ∃ f : PortState → PortState,
     exec (.commandEchoTimeout o) s = .next (s.modPort o f) ∧
     ((s.portAt o).current = none → f (s.portAt o) =
       { commandColumn (s.rt o) o s.tb.tick c.opcode c.seq c.arg (s.portAt o) with cmd := some { c with tries := c.tries + 1 } }) ∧
     ((s.portAt o).current ≠ none → f (s.portAt o) = { s.portAt o with resend := true, cmd := some { c with tries := c.tries + 1 } })) ∧
   (∀ (s : State) (o : Fin 4) (c : PortCmd), (s.portAt o).cmd = some c → 3 ≤ c.tries →
     exec (.commandEchoTimeout o) s = .next (takeDown (raise s 0x0B07 (portData o c.seq)) o)) ∧
   (∀ (s : State) (o op arg : Nat), ∃ f : PortState → PortState, portSend s o op arg = s.modPort o f ∧
     (∀ op1 arg1 rest, (s.portAt o).cmd = none → (s.portAt o).current = none → (s.portAt o).cmdQueue ++ [(op, arg)] = (op1, arg1) :: rest →
       f (s.portAt o) = { commandColumn (s.rt o) o s.tb.tick op1 (((s.portAt o).cmdSeq + 1) % 256) arg1 { s.portAt o with cmdQueue := rest } with
         cmdSeq := ((s.portAt o).cmdSeq + 1) % 256
         cmd := some { opcode := op1, arg := arg1, seq := ((s.portAt o).cmdSeq + 1) % 256, tries := 0 } }) ∧
     ((s.portAt o).cmd ≠ none ∨ (s.portAt o).current ≠ none →
       f (s.portAt o) = { s.portAt o with cmdQueue := (s.portAt o).cmdQueue ++ [(op, arg)] })) ∧
   (∀ (m : WordMap) (o now op seq arg : Nat) (p : PortState),
     (commandColumn m o now op seq arg p).sent = ((op, seq, arg) :: p.sent).take 64)) ∧
  ((∀ (s : State) (path : PathId) (o : Fin 4) (kind : Nat), serves s path = true → hasRole s path 9 = true →
     ((s.portAt o).link = 5 → exec (.portCmdStatusReq path o kind) s = .next (portSend s o 0x20 (kind % 4))) ∧
     ((s.portAt o).link ≠ 5 → exec (.portCmdStatusReq path o kind) s = .next s)) ∧
   (∀ (s : State) (path : PathId) (o : Fin 4) (arg : Nat), serves s path = true → hasRole s path 9 = true →
     (s.outAt o).mode ≠ 1 ∨ (s.outAt o).trans = true ∨ 2 < arg ∨ (arg = 2 ∧ isScan (s.rt o) o = true) →
     exec (.portCmdTestPattern path o arg) s = .next (raiseP s 0x0B09 (portData o arg) path)) ∧
   (∀ (s : State) (path : PathId) (o : Fin 4) (arg : Nat), serves s path = true → hasRole s path 9 = true →
     (s.outAt o).mode = 1 → (s.outAt o).trans = false →
     (isScan (s.rt o) o = true → arg < 2 → exec (.portCmdTestPattern path o arg) s = .next (s.modPort o fun p => { p with pattern := arg })) ∧
     (isScan (s.rt o) o = false → (s.portAt o).link = 5 → arg = 0 → exec (.portCmdTestPattern path o arg) s =
       .next (portSend (portSend (s.modPort o fun p => { p with pattern := 0, patWait := false }) o 0x30 0) o 0x10 0)) ∧
     (isScan (s.rt o) o = false → (s.portAt o).link = 5 → arg = 1 → exec (.portCmdTestPattern path o arg) s =
       .next (portSend ((endPattern s o).modPort o fun p => { p with pattern := 1, patWait := false }) o 0x30 1)) ∧
     (isScan (s.rt o) o = false → (s.portAt o).link = 5 → arg = 2 → exec (.portCmdTestPattern path o arg) s =
       .next (portSend ((endPattern s o).modPort o fun p => { p with pattern := 2, patWait := true }) o 0x11 0)) ∧
     (isScan (s.rt o) o = false → (s.portAt o).link ≠ 5 → arg ≤ 2 → exec (.portCmdTestPattern path o arg) s = .next s)) ∧
   (∀ (s : State) (path : PathId) (o : Fin 4) (x : Nat), serves s path = true → hasRole s path 9 = false →
     exec (.portCmdStatusReq path o x) s = .next (refuseRole s path 9 (0xB0108 + 0x40 * o)) ∧
     exec (.portCmdTestPattern path o x) s = .next (refuseRole s path 9 (0xB0108 + 0x40 * o))))

/-- R136, R144 to R148: a back-channel frame with a bad check word is counted and breaks the run of valid ones; a good
STATUS or EVENT frame is taken, its load-error flag a fault of its own; an identity at step 4 brings the link up when
the port accepts the array, and is ARRAY_MISMATCH when it does not. A SCAN output has no back-channel. R147, R148,
R150 to R152, R171: bring-up goes on step by step, sending TRAIN, 16 ALIGN and STATUS_REQ; a step that takes longer
than 500 µs ends the attempt, which begins again after 10 ms; a link that falls silent while up is a LINK_DOWN fault,
and its output is held and dark; an output whose link has not returned leaves for STANDBY. -/
def Obligations.MirrorLinks : Prop :=
  ((∀ (s : State) (o : Fin 4) (l : List Byte), isScan (s.rt o) o = true → exec (.bchFrameReceive o l) s = .next s) ∧
   (∀ (s : State) (o : Fin 4) (l : List Byte), isScan (s.rt o) o = false → bchCrcOk l = false → exec (.bchFrameReceive o l) s =
     .next (s.modPort o fun p => { p with bchErrs := satAdd 0xFF p.bchErrs 1, validStatus := 0 })) ∧
   (∀ (s : State) (o : Fin 4) (l : List Byte), isScan (s.rt o) o = false → bchCrcOk l = true →
     ((l.headD 0).toNat = 1 → exec (.bchFrameReceive o l) s = .next (takeStatus s o false (parseStatus ((l.drop 1).take 28)))) ∧
     ((l.headD 0).toNat = 2 → exec (.bchFrameReceive o l) s = .next (takeStatus s o true (parseStatus ((l.drop 1).take 28)))) ∧
     ((l.headD 0).toNat = 3 → (s.portAt o).link = 4 →
       (acceptsArray (s.rt o) o (parseIdent ((l.drop 1).take 28)) = true → exec (.bchFrameReceive o l) s = .next (linkUp
         (s.modPort o fun p => { p with ident := some (parseIdent ((l.drop 1).take 28)), accepted := true, mismatch := false }) o)) ∧
       (acceptsArray (s.rt o) o (parseIdent ((l.drop 1).take 28)) = false → (s.portAt o).mismatch = false → exec (.bchFrameReceive o l) s =
         .next (raise (s.modPort o fun p => { p with accepted := false, mismatch := true }) 0x0B06 (portData o 4))))) ∧
   (∀ (s : State) (o : Nat) (old new : ArrayStatus), nbit new.flags 1 = false → nbit new.flags 2 = false → nbit new.flags 4 = false →
     nbit new.flags 5 = false → (nbit new.flags 0 = false → takeFlags s o old new = s) ∧
     (nbit new.flags 0 = true → takeFlags s o old new = fault (s.modPort o fun p => { p with
       loadErrs := satAdd 0xFFFF p.loadErrs 1
       loadErrTimes := s.tb.tick :: p.loadErrTimes.filter fun u => decide (s.tb.tick < u + 400000000) }) 0x0B03 (portData o new.loadSeq) o))) ∧
  ((∀ (s : State) (o : Nat) (event : Bool) (t : ArrayStatus),
     ((s.portAt o).link = 1 → 2 ≤ (s.portAt o).validStatus → bringUp s o event t = s.modPort o fun p => { p with link := 2 }) ∧
     ((s.portAt o).link = 2 → t.laneLock &&& laneMask (s.rt o) o = laneMask (s.rt o) o →
       bringUp s o event t = s.modPort o (startAlign (s.rt o) o s.tb.tick)) ∧
     ((s.portAt o).link = 3 → nbit t.flags 3 = true → bringUp s o false t = portSend (s.modPort o fun p => { p with link := 4 }) o 0x20 1) ∧
     ((s.portAt o).link = 3 → bringUp s o true t = s)) ∧
   (∀ (s : State) (o : Fin 4), 1 ≤ (s.portAt o).link → (s.portAt o).link ≤ 4 → (s.portAt o).mismatch = false → ∃ u : State,
     u = s.modPort o (fun p => { fillTo (s.rt o) o s.tb.tick p with
       link := 0, validStatus := 0, cmd := none, cmdQueue := [], resend := false, lossRaised := true }) ∧
     exec (.bringupStepTimeout o) s = .next (if (s.portAt o).lossRaised then u else raise u 0x0B02 (portData o (s.portAt o).link))) ∧
   (∀ (s : State) (o : Fin 4), (s.portAt o).link = 0 → isScan (s.rt o) o = false →
     exec (.bringupRestart o) s = .next (s.modPort o (startTraining (s.rt o) o s.tb.tick))) ∧
   (∀ (m : WordMap) (o now : Nat) (p : PortState), (startTraining m o now p).link = 1 ∧ (startTraining m o now p).validStatus = 0 ∧
     (startTraining m o now p).trainSeq = (p.trainSeq + 1) % 256 ∧ (startAlign m o now p).link = 3 ∧
     (startAlign m o now p).alignSeq = (p.alignSeq + 16) % 65536 ∧ (startAlign m o now p).wire.length = 16) ∧
   (∀ (s : State) (o : Fin 4), isScan (s.rt o) o = false → (s.portAt o).link = 5 → exec (.bchSilence o) s = .next (parkDone (fault (loseLink
     (s.modPort o fun p => { startTraining (s.rt o) o s.tb.tick p with
       lossRaised := false, mismatch := false, laneRuns := List.replicate 32 0, loadErrTimes := [] }) o) 0x0B02 (portData o 0) o) o)) ∧
   (∀ (s : State) (o : Fin 4), (isScan (s.rt o) o = false → (s.portAt o).link ≠ 5) → (isScan (s.rt o) o = true → (s.scanAt o).jesd ≠ 2) →
     ((s.outAt o).exit = .stopping → isScan (s.rt o) o = false → exec (.linkDownTimeout o) s = .next (reachStandby s o)) ∧
     ((s.outAt o).exit ≠ .stopping → isLit s o = true → exec (.linkDownTimeout o) s = .next (startExit s o 1)) ∧
     ((s.outAt o).exit ≠ .stopping → isLit s o = false → exec (.linkDownTimeout o) s = .next s)) ∧
   (∀ (s : State) (o : Fin 4), (isScan (s.rt o) o = false → (s.portAt o).link = 5) → (isScan (s.rt o) o = true → (s.scanAt o).jesd = 2) →
     exec (.linkDownTimeout o) s = .next s))

/-- R170, R171: JESD204B bring-up sends its alignment sequence once SYNC_N is high, and only then data; the first data
sample brings the link up and sets the time of sample 0; the loss of the link holds the frame, raises JESD_DOWN and
starts it again; a short low pulse is only counted. R161, R163, R164, R167, R170, R173: the scan engine fills its
elastic buffer and no further; the oldest sample of the buffer goes out with a code for every converter, a forced
light converter with its forced code, and the sample count advances; with none in the buffer a blank goes out,
SCAN_UNDERRUN is raised and the frame is held. R110, R176: at the end of an active line each channel's loop takes at
most one step, and none where the line gave no sample or a hold applies; the sums start afresh and the line is
counted. -/
def Obligations.ScanLinks : Prop :=
  ((∀ (s : State) (o : Fin 4), isScan (s.rt o) o = true → isJesdB (s.rt o) o = true → (s.scanAt o).jesd ≠ 2 →
     exec (.syncNHigh o) s = .next (s.modScan o fun x => { x with jesd := 1, sends := .ilas })) ∧
   (∀ (s : State) (o : Fin 4), isScan (s.rt o) o = true → (s.scanAt o).jesd ≠ 2 → isJesdB (s.rt o) o = false ∨ (s.scanAt o).sends = .ilas →
     exec (.jesdUp o) s = .next (linkReturned (raise ((s.modScan o fun y => { y with
       jesd := 2, sends := .data, samples := 0, lmfc := s.tb.tick * 25, ahead := [], reqs := [] }).modPort o
         fun p => { p with resumeWait := true }) 0x0B12 o) o)) ∧
   (∀ (s : State) (o : Fin 4), isJesdB (s.rt o) o = true → (s.scanAt o).sends ≠ .ilas → exec (.jesdUp o) s = .next s) ∧
   (∀ (s : State) (o : Fin 4), (s.scanAt o).jesd = 2 →
     exec (.jesdDown o) s = .next (raise (loseLink (s.modScan o (startJesd (s.rt o) o)) o) 0x0B13 o)) ∧
   (∀ (m : WordMap) (o : Nat) (x : ScanState), (startJesd m o x).jesd = 1 ∧ (startJesd m o x).sysrefs = x.sysrefs + 1 ∧
     (startJesd m o x).sends = (if isJesdB m o then .cgs else .blank) ∧ (startJesd m o x).ahead = []) ∧
   (∀ (s : State) (o : Fin 4), isScan (s.rt o) o = true →
     exec (.jesdSyncError o) s = .next (s.modScan o fun x => { x with syncErrs := satAdd 0xFFFF x.syncErrs 1 }))) ∧
  ((∀ (s u : State) (o : Fin 4) (filled : Nat), (s.scanAt o).jesd = 2 → sampleRate (s.rt o) o ≠ 0 → u = fillAhead o filled s →
     (∀ w rest, (u.scanAt o).ahead = w :: rest → exec (.scanSample o filled) s =
       .next (sendSample (u.modScan o fun y => { y with ahead := rest }) o w)) ∧
     ((u.scanAt o).ahead = [] → exec (.scanSample o filled) s = .next (holdDark (raise (u.modScan o fun y => { sysrefStep (s.rt o) o y with
       samples := y.samples + 1, codes := blankCodes (s.rt o) o, underruns := satAdd 0xFFFF y.underruns 1 }) 0x0B14 o) o s.tb.tick s.tb.tick))) ∧
   (∀ (s : State) (o : Fin 4) (n : Nat), ((fillAhead o n s).scanAt o).ahead.length ≤ max (s.scanAt o).ahead.length (elasticSamples (s.rt o) o)) ∧
   (∀ (s : State) (o : Nat) (w : ScanWord), ∃ f : ScanState → ScanState, sendSample s o w = s.modScan o f ∧ ∀ y,
     (f y).samples = y.samples + 1 ∧ (f y).codes.length = 16 ∧ ∀ j < 16,
       (converters (scanMap s o w.t) o ≤ j → nth (f y).codes j 0 = 0) ∧
       (j < converters (scanMap s o w.t) o → convRole (scanMap s o w.t) o j = 1 → (s.outAt o).mode ≠ 5 →
         (∀ v, forceAt s o j w.t = some v → nth (f y).codes j 0 =
           wrapInt 16 (forcedCode (scanMap s o w.t) o (convChan (scanMap s o w.t) o j) v)) ∧
         (forceAt s o j w.t = none → nth (f y).codes j 0 = wrapInt 16 (nth w.codes j 0)))) ∧
   (∀ (s : State) (o : Fin 4) (filled : Nat), (s.scanAt o).jesd ≠ 2 → exec (.scanSample o filled) s = .next s)) ∧
  ((∀ (s : State) (o : Fin 4), exec (.scanLineEnd o) s = .next (((List.range 6).foldl (fun s c => lineLoop s o c) s).modScan o fun x => { x with
     linesNow := x.linesNow + 1, sumE := List.replicate 6 0, sumP := List.replicate 6 0, nSamp := List.replicate 6 0, probeSeen := false })) ∧
   (∀ (s : State) (o c : Nat), nth (s.scanAt o).nSamp c 0 = 0 ∨ nth (s.scanAt o).sumE c 0 < 256 * nth (s.scanAt o).nSamp c 0 ∨
     chanAmp s o c = 0 ∨ s.tb.tick < (chanOf s.drive o c).heldUntil ∨ annealTakes s o = true → lineLoop s o c = s))

/-- R158 to R160, R177: the drive follows the tracked period once the pickup is seen; each rising crossing updates the
tracker and the beam watches; 256 small errors in a row lock it; the fourth error in a row beyond 200 ticks, or a
period out of range, loses the lock; a tracker that does not lock stops the drive. R160, R177, R178, R406: a fast axis
without a crossing for 1.5 periods and a slow axis whose windows do not advance are watched: the second slow window,
and a missing crossing of a shown SCAN output, trip the Quench latch with source BEAM and BEAM_TRIP; the condition
trips once. -/
def Obligations.BeamMotion : Prop :=
  ((∀ (s : State) (o : Fin 4), (s.scanAt o).fast = 1 → exec (.fastAxisCapture o) s =
     .next (s.modScan o fun x => driveWave (s.rt o) o s.tb.tick { x with fast := 2 })) ∧
   (∀ (s : State) (o : Fin 4), (s.scanAt o).fast = 1 ∨ (s.scanAt o).fast = 2 → exec (.scanLockTimeout o) s =
     .next (raise (s.modScan o fun y => { y with fast := 0, driveOn := false, drvPeriod := 0 }) 0x0B11 (o + 1 * 2 ^ 8))) ∧
   (∀ (s : State) (o : Fin 4) (t peak : Nat), (s.scanAt o).driveOn = true → (s.scanAt o).first = true → exec (.fastAxisCrossing o t peak) s =
     .next (s.modScan o fun y => driveWave (s.rt o) o s.tb.tick { y with first := false, t0 := (t : Int) * 256 / 25, lastCross := t, peak := peak })) ∧
   (∀ (s : State) (o : Fin 4) (t peak : Nat) (e t0 p : Int) (low phase : Nat), (s.scanAt o).driveOn = true → (s.scanAt o).first = false →
     trackStep (s.scanAt o).t0 (s.scanAt o).pHat ((t : Int) * 256 / 25) = (e, t0, p) →
     low = (if peak * 256 < (s.rt o).fld (aScanBw o) 7 0 * faxAmp (s.rt o) o then (s.scanAt o).lowPeaks + 1 else 0) →
     phase = (if 4 * (s.rt o).fld (aScanBw o) 15 8 * 256 < e.natAbs then (s.scanAt o).phaseErrs + 1 else 0) →
     ∃ (f : ScanState → ScanState) (u : State), (∀ y, (f y).t0 = t0 ∧ (f y).pHat = p ∧ (f y).lastCross = t ∧ (f y).peak = peak ∧
         (f y).lowPeaks = low ∧ (f y).phaseErrs = phase) ∧
       exec (.fastAxisCrossing o t peak) s = .next (beamWatch (beamWatch (beamWatch (beamWatch u o 0 false) o 1 (decide (2 ≤ low)))
         o 2 (decide (4 ≤ phase))) o 3 (!periodInRange (s.rt o) o p)) ∧
       ((s.scanAt o).fast ≠ 3 → e.natAbs ≤ 20 * 256 → 255 ≤ (s.scanAt o).smallErr → u = raise (s.modScan o f) 0x0B10 o ∧ ∀ y, (f y).fast = 3) ∧
       ((s.scanAt o).fast ≠ 3 → 20 * 256 < e.natAbs → u = s.modScan o f ∧ ∀ y, (f y).fast = (s.scanAt o).fast ∧ (f y).smallErr = 0) ∧
       ((s.scanAt o).fast = 3 → e.natAbs ≤ 200 * 256 → periodInRange (s.rt o) o p = true →
         u = s.modScan o f ∧ ∀ y, (f y).fast = 3 ∧ (f y).bigErr = 0) ∧
       ((s.scanAt o).fast = 3 → (200 * 256 < e.natAbs ∧ 3 ≤ (s.scanAt o).bigErr) ∨ periodInRange (s.rt o) o p = false →
         u = raise (s.modScan o f) 0x0B11 (o + 2 * 2 ^ 8) ∧ ∀ y, (f y).fast = 4))) ∧
  ((∀ (s : State) (o : Fin 4), (crossingLost s o = false → exec (.fastStop o) s = .next s) ∧
     (crossingLost s o = true → (s.scanAt o).fast = 3 → exec (.fastStop o) s =
       .next (beamWatch (raise (s.modScan o fun y => { y with fast := 4, smallErr := 0 }) 0x0B11 (o + 2 * 2 ^ 8)) o 0 true)) ∧
     (crossingLost s o = true → (s.scanAt o).fast ≠ 3 → exec (.fastStop o) s = .next (beamWatch s o 0 true))) ∧
   (∀ (s : State) (o : Fin 4) (mean prev f : Nat), (s.scanAt o).slowFire = some f → f ≤ 25 * s.tb.tick → 25 * s.tb.tick < f + 25 * scanTact (s.rt o) o →
     (s.scanAt o).slowMean = some prev →
     (mean < prev + (s.rt o).fld (aScanBw o) 27 16 → exec (.slowStallWindow o mean) s = .next (beamWatch (s.modScan o fun y =>
       { y with slowMean := some mean, slowWindows := (s.scanAt o).slowWindows + 1 }) o 4 (decide (2 ≤ (s.scanAt o).slowWindows + 1)))) ∧
     (prev + (s.rt o).fld (aScanBw o) 27 16 ≤ mean → exec (.slowStallWindow o mean) s = .next (beamWatch (s.modScan o fun y =>
       { y with slowMean := some mean, slowWindows := 0 }) o 4 false))) ∧
   (∀ (s : State) (o : Fin 4) (mean : Nat), (∀ f, (s.scanAt o).slowFire = some f → 25 * s.tb.tick < f ∨ f + 25 * scanTact (s.rt o) o ≤ 25 * s.tb.tick) →
     exec (.slowStallWindow o mean) s = .next (s.modScan o fun y => { y with slowMean := none, slowWindows := 0 })) ∧
   (∀ (s : State) (o w : Nat), watched s o = false → ∀ b, beamWatch s o w b = s) ∧
   (∀ (s : State) (o w : Nat), watched s o = true → ∃ u : State, u = { s with guard := u.guard } ∧
     u.guard = { s.guard with beam := u.guard.beam } ∧
     (nbit (nth s.guard.beam o 0) w = false → beamWatch s o w true = tripEvent u 2 (o + w * 2 ^ 8) .internal) ∧
     (nbit (nth s.guard.beam o 0) w = true → beamWatch s o w true = u) ∧
     (o < s.guard.beam.length → nbit (nth u.guard.beam o 0) w = true)))

/-- R108, R109, R112, R113: a photodiode sample enters the mean of the last 10, and on a PLANE output steps the loops it
closes, on a SCAN output joins its line; a photodiode that has read for 10 µs as R113 names, and no other, is faulted,
and is out of the loop until 1 is written to its bit; a loop that a hold applies to takes no step. -/
def Obligations.PhotodiodesFeedTheLoop : Prop :=
  (∀ (s : State) (k : Fin 8) (code : Nat), ∃ f : PdState → PdState, pdTake s k code = s.modPd k f ∧
    (∀ x, (f x).recent = (code :: x.recent).take 10 ∧ (f x).last = ((code :: x.recent).take 10).sum / ((code :: x.recent).take 10).length ∧
      (f x).faulted = x.faulted) ∧
    (isScan (s.rt ((s.rt 4).fld (aPdMap k) 25 24)) ((s.rt 4).fld (aPdMap k) 25 24) = true →
      exec (.pdSample k code) s = .next (lineSample (s.modPd k f) ((s.rt 4).fld (aPdMap k) 25 24) k code)) ∧
    (isScan (s.rt ((s.rt 4).fld (aPdMap k) 25 24)) ((s.rt 4).fld (aPdMap k) 25 24) = false → exec (.pdSample k code) s =
      .next ((List.range 6).foldl (fun s c => if (chanPds (s.rt ((s.rt 4).fld (aPdMap k) 25 24)) s.drive ((s.rt 4).fld (aPdMap k) 25 24) c).getLast? =
        some (k : Nat) then loopSample s ((s.rt 4).fld (aPdMap k) 25 24) c else s) (s.modPd k f)))) ∧
  (∀ (s : State) (o c : Nat), loopHeld s o c = true → loopSample s o c = s) ∧
  (∀ (s : State) (k : Fin 8) (code : Nat) (senses : List Nat) (x : PdState), x = nth s.drive.pds k {} → x.faulted = false →
    (s.rt 4).bit (aPdMap k) 31 = true →
    ((∃ t, x.satSince = some t ∧ t + 4000 ≤ s.tb.tick) ∨ ((∃ t, x.dimSince = some t ∧ t + 4000 ≤ s.tb.tick) ∧
        currentsFlow s ((s.rt 4).fld (aPdMap k) 25 24) k senses = true) →
      exec (.pdFault k ⟨code, senses⟩) s = .next (raise (s.modPd k fun x => { x with faulted := true }) 0x0C0F (driveData k code))) ∧
    ((∀ t, x.satSince = some t → s.tb.tick < t + 4000) → (∀ t, x.dimSince = some t → s.tb.tick < t + 4000) →
      exec (.pdFault k ⟨code, senses⟩) s = .next s)) ∧
  (∀ (s : State) (path : PathId) (v : Word), serves s path = true → hasRole s path 1 = true → exec (.pdFaultClear path v) s =
    .next { s with drive := { s.drive with pds := (s.drive.pds.mapIdx fun k x =>
      if k < 8 ∧ nbit v.toNat k = true then { x with faulted := false } else x) } })

/-- R95: SW_A and SW_B of a string's stage are never high together, and within a period DEADTIME lies between a transition
of one and the opposite transition of the other. R97, R122, R123, R372: the lowest queued string is admitted when the
conditions hold, with its stage on at the set point it last had and command 0 (the first set point and the duty are
free values, assumption 118); a droop pauses admissions once; a ramping string within 5 % of its set point is READY;
one that is not in time fails with cause 7. R96, R114, R115, R121: a measurement window of a live, unclamped string
above DIAG_MIN whose command stood for 800 ticks is judged by the means of its last 680: open and short strings fail
with causes 1 and 2, a lamp short is counted, and a string that passes only keeps what was measured; a probe reports
its outcome. Headroom control follows where no generator runs. R96, R115, R116, R406, R413: a current beyond the
command by 10 % of full scale fails its string with cause 3, and one beyond 125 % trips first with source OVERLIMIT; a
written 1 clears causes 1, 2, 3 and 7 and no other; a failed string holds command 0 with its stage off; low headroom
raises the set point by 10 %. -/
def Obligations.StringsRunAndFail : Prop :=
  (∀ (m : WordMap) (nn : Nat) (x : StringState) (t u : Nat),
     (swA m nn x t && swB m nn x t) = false ∧
     (swA m nn x t = true → swB m nn x u = true →
       stagePhase m nn t + stageDead m nn < stagePhase m nn u ∧ stagePhase m nn u + stageDead m nn < stagePeriod m nn)) ∧
  ((∀ (s : State) (nn : Nat), ((List.range 24).find? fun nn => (s.strAt nn).st == 1) = some nn →
     (s.therm.droop = false → admitReady s nn = true → ∃ (u : State) (v w : Nat), ((v, u) = ((s.draw 8).1, ((s.draw 8).2.draw 9).2)) ∧
       exec .stringAdmit s = .next ((u.modStr nn fun x => { stringDark x with
         st := 2, stageOn := true, admitted := s.tb.tick, setPoint := if x.setPoint = 0 then v else x.setPoint, duty := w }).modDrive fun d =>
           { d with lastAdmit := some s.tb.tick, paused := false })) ∧
     (s.therm.droop = false → admitReady s nn = false → exec .stringAdmit s = .next (s.modDrive fun d => { d with paused := false })) ∧
     (s.therm.droop = true → s.drive.paused = false → exec .stringAdmit s =
       .next (raise (s.modDrive fun d => { d with paused := true }) 0x0C0E (driveData nn 0))) ∧
     (s.therm.droop = true → s.drive.paused = true → exec .stringAdmit s = .next s)) ∧
   (∀ x : StringState, (stringDark x).cmd = 0) ∧
   (∀ (s : State) (nn : Nat), admitReady s nn = true → s.therm.pend = 0 ∧
     ((∀ t < 24, (s.strAt t).st ≠ 2) ∨ rampingMa s + rampMa s nn ≤ 10 * (s.rt 4).fld 0xC0804 31 16) ∧
     ∀ t, s.drive.lastAdmit = some t → t + 400 * max ((s.rt 4).fld 0xC0804 7 0) (wakeGap (s.rt 4)) ≤ s.tb.tick) ∧
   (∀ (s : State) (nn : Fin 24),
     ((s.strAt nn).st = 2 → exec (.stringReady nn) s = .next (liveChange (s.modStr nn fun x => { x with st := 3 }) (strGroup (strCfg s nn) nn)) ∧
       exec (.stringRampTimeout nn) s = .next (failString s nn 7 0)) ∧
     ((s.strAt nn).st ≠ 2 → exec (.stringReady nn) s = .next s ∧ exec (.stringRampTimeout nn) s = .next s))) ∧
  (∀ (s : State) (nn : Fin 24) (isns vhr vk : List Nat) (m : WordMap) (x : StringState) (iAvg vkMean vStr r : Nat),
     m = strCfg s nn → x = s.strAt nn → liveString m s.drive nn = true → diagMin (s.rt 4) ≤ x.cmd → x.clamped = false → x.cmd ≠ 0 →
     x.cmdAt + 800 ≤ s.tb.tick → (x.holdCur = none ∨ x.probe.isSome) →
     iAvg = meanOf (lateSamples 5 isns) → vkMean = meanOf (lateSamples 80 vk) →
     vStr = (meanOf (lateSamples 80 vhr) * m.fld (aStrSw nn) 31 24 - vkMean) / 10 →
     r = windowOutcome x (m.fld (aStrSw nn) 23 16) iAvg vStr vkMean
       (nth x.learned (match x.probe with | some cur => ampBin cur | none => ampBin (chanAmp s (strOut m nn) (strChan m nn))) []) →
     ∃ (f : StringState → StringState) (s1 s2 s3 : State), (∀ y, (f y).iAvg = iAvg ∧ (f y).vStr = vStr ∧ (f y).windowDone = true ∧
         (f y).lowDuty = 0 ∧ (f y).cmd = y.cmd ∧ (f y).st = y.st ∧ (f y).failed = y.failed ∧
         (f y).lampShorts = (if r = 8 then satAdd 255 y.lampShorts 1 else y.lampShorts) ∧ (r ≠ 8 → (f y).flux = y.flux)) ∧
       s1 = (s.draw 10).2.modStr nn f ∧
       (r = 1 → s2 = failString (raise s1 0x0C01 (driveData nn iAvg)) nn 1 iAvg) ∧
       (r = 2 → s2 = failString (raise s1 0x0C02 (driveData nn vStr)) nn 2 vStr) ∧
       (r = 8 → s2 = raise (liveChange s1 (strGroup m nn)) 0x0C03 (driveData nn vStr)) ∧ (r = 0 → s2 = s1) ∧ r ∈ [0, 1, 2, 8] ∧
       s3 = (if (s.tgAt (strOut m nn)).running then s2 else adjustHeadroom s2 nn 4000000) ∧
       exec (.measurementWindowEnd nn isns vhr vk) s = .next (if x.probe.isSome then raise s3 0x0C0D (nn + r * 2 ^ 8) else s3)) ∧
  ((∀ (s : State) (nn : Fin 24) (x : Nat),
     (liveString (strCfg s nn) s.drive nn = true → senseOf (s.strAt nn).cmd + 3276 / 10 < x →
       exec (.stringOvercurrent nn x) s = .next (failString (raise s 0x0C04 (driveData nn x)) nn 3 x)) ∧
     (liveString (strCfg s nn) s.drive nn = false ∨ x ≤ senseOf (s.strAt nn).cmd + 3276 / 10 → exec (.stringOvercurrent nn x) s = .next s) ∧
     exec (.stringOverlimit nn x) s = .next (failString
       (tripEvent s 3 (guardData ((strHome s nn).getD 0) nn x) .internal) nn 3 x)) ∧
   (∀ (s : State) (path : PathId) (nn : Fin 24), serves s path = true → hasRole s path 1 = true → (s.strAt nn).failed = true →
     ((s.strAt nn).cause ∈ [1, 2, 3, 7] → exec (.stringFailClear path nn) s = .next (clearString s nn)) ∧
     ((s.strAt nn).cause ∉ [1, 2, 3, 7] → exec (.stringFailClear path nn) s = .next s)) ∧
   (∀ (s : State) (nn : Fin 24) (vk : Nat),
     ((s.strAt nn).cmd ≠ 0 → 2 * vk < headroomTarget (strCfg s nn) nn → exec (.headroomLow nn vk) s = .next (raiseLimited
       (s.modStr nn fun x => { x with setPoint := x.setPoint * 11 / 10 }) 0x0C06 nn (driveData nn vk) oneSecond .internal)) ∧
     ((s.strAt nn).cmd = 0 ∨ headroomTarget (strCfg s nn) nn ≤ 2 * vk → exec (.headroomLow nn vk) s = .next s)) ∧
   (∀ (s : State) (nn cause value : Nat), nn < s.drive.strings.length → (s.strAt nn).failed = false → ∃ x : StringState,
     (failString s nn cause value).strAt nn = x ∧ x.failed = true ∧ x.cause = cause ∧ x.cmd = 0 ∧ x.st = 0 ∧ x.stageOn = false ∧ x.probe = none))

/-- R352 to R354, R360, R369: an external input that is off reads 0; one that converts keeps the mean of its last 100 ms;
one that fails raises EXT_SENSOR_FAIL once and counts as at its WARN threshold; WARN and HALT dwell 8 ms, with 4 °C of
hysteresis, and the HALT writes its shutdown record. The input at the flash judges the flash window anew. R105, R107,
R354: a PRESENT board's temperature sets its cap: DERATE's, or DMIN while its input has failed; a cap that moves acts
at once, with LAMP_DERATE where it moves by more than 1 %; a trip of its threshold fails its strings with cause 4 and
LAMP_HOT, and its end lets them return. A board that is not PRESENT is not read. -/
def Obligations.ExternalTemperatures : Prop :=
  ((∀ (s : State) (x : Fin 12) (code : Nat) (bad : Fin 4), (s.rt 4).bit (aExtCfg x) 31 = false → exec (.extConversion x code bad) s =
     .next (continueBody (s.modTherm fun t => { t with exts := listSet t.exts x { nth s.therm.exts x {} with st := 0, mean := 0, samples := [] } }))) ∧
   (∀ (s : State) (x : Fin 12) (code st W H : Nat) (bad : Fin 4) (v : Rat) (e : ExtState), (s.rt 4).bit (aExtCfg x) 31 = true →
     extTemp (s.rt 4) x code bad = (st, v) → e = nth s.therm.exts x {} → W = extWarn (s.rt 4) x → H = extHalt (s.rt 4) x →
     ∃ (y : ExtState) (wc hc : Bool) (u1 u2 u3 u4 : State), y.st = st ∧
       y.samples = ((if st = 1 then (s.tb.tick, v) :: e.samples else e.samples).filter fun p => s.tb.tick < p.1 + 40000000).take 20 ∧
       (st = 1 → y.mean = roundRat (8 * sumRat (fun p => p.2) y.samples / y.samples.length)) ∧
       (st ≠ 1 → y.mean = if W = 255 then 0 else 8 * (W : Int)) ∧
       (W = 255 → y.warn = e.warn ∧ wc = false) ∧
       (W ≠ 255 → (y.warn, wc) = e.warn.judge s.tb.tick (decide (8 * (W : Int) ≤ y.mean)) (decide (y.mean < 8 * ((W : Int) - 4)))) ∧
       (H = 255 ∨ (st ≠ 1 ∧ W = 255) → y.halt = e.halt ∧ hc = false) ∧
       (H ≠ 255 → st = 1 ∨ W ≠ 255 → (y.halt, hc) = e.halt.judge s.tb.tick (decide (st = 1 ∧ 8 * (H : Int) ≤ y.mean)) (decide (y.mean < 8 * ((H : Int) - 4)))) ∧
       u1 = s.modTherm (fun t => { t with exts := listSet t.exts x y }) ∧
       u2 = (if st ≠ 1 ∧ e.st < 2 then raise u1 0x0D0A (thermData x y.mean 0) else u1) ∧
       u3 = (if wc = true ∧ y.warn.entered = true then raise u2 0x0D08 (thermData x y.mean 0) else u2) ∧
       u4 = (if hc = true ∧ y.halt.entered = true then shutdownRecord (raiseHalt u3 0x0D09 (thermData x y.mean 0)) 0x0D09 else u3) ∧
       exec (.extConversion x code bad) s = .next (continueBody (if (x : Nat) = flashInput (s.rt 4) ∧ s.therm.converted = true then judgeWindow u4 else u4)))) ∧
  ((∀ (s : State) (b : Fin 6), (s.rt 4).bit (aLbCfg b) 31 = false → exec (.lampBoardTempUpdate b) s = .next s) ∧
   (∀ (s : State) (b : Fin 6) (e : ExtState) (d : Nat) (t : Threshold) (change : Bool), (s.rt 4).bit (aLbCfg b) 31 = true →
     nth s.therm.exts (boardInput (s.rt 4) b) {} = e →
     d = (if e.st = 1 then derateOf (s.rt 4) b e.mean else (s.rt 4).fld (aLbDerate b) 15 8 * 128) →
     (nth s.drive.boards b {}).trip.judge s.tb.tick (decide (8 * ((s.rt 4).fld (aLbDerate b) 7 0 : Int) ≤ e.mean))
       (decide (e.mean < 8 * ((s.rt 4).fld (aLbDerate b) 7 0 : Int) - 32)) = (t, change) →
     ∃ u v w : State, u = noteTemp (s.modDrive fun x => { x with
         boards := listSet x.boards b { nth s.drive.boards b {} with temp := e.mean, d := d, trip := t } }) b e.mean ∧
       v = (if d = (nth s.drive.boards b {}).d then u else capChange u b) ∧
       w = (if 0x8000 < 100 * ((d : Int) - ((nth s.drive.boards b {}).d : Int)).natAbs then
         raiseLimited v 0x0C09 b (driveData b (wrapInt 32 e.mean)) oneSecond .internal else v) ∧
       (change = false → exec (.lampBoardTempUpdate b) s = .next w) ∧
       (change = true → t.entered = true → exec (.lampBoardTempUpdate b) s = .next (boardHot w b)) ∧
       (change = true → t.entered = false → exec (.lampBoardTempUpdate b) s = .next (boardCool w b))))

/-- R263, R265, R266, R287, R427: a frame of an enabled input in its size gets the oldest buffer that no fence holds, or
is discarded with CAP_NO_BUFFER; one too large, of a format its stream does not state, or sealed without metadata or a
key, is discarded, each with the event of its rule; a frame whose format the receiver does not accept starts nothing.
An SDI signal without a payload identifier counts as 4:2:2 at 10 bits, and the reference instant of a stream's frame
comes from its RTP timestamp (how, assumption 127). A complete frame is stored through its Runner at its buffer's
address, takes the next count, sets its fence and is the newest; one whose links are skewed is discarded with
CAP_LINK_SKEW. R235, R264, R265, R279, R286: a lost signal discards the frame in progress with CAP_LOST and takes the
reference of every generator that follows the input; a stream's is lost when each of its paths is quiet for two frame
periods; a signal that changes inside a frame, and a packet lost for MERGE_WIN (assumption 128), discard it with the
fault of the rule; with no frame in progress nothing is discarded. A discarded frame leaves no fence, count or record. -/
def Obligations.CapturedFrames : Prop :=
  ((∀ (s : State) (i : Fin 8) (fmt : CapFormat) (tRef fine rtp : Nat) (tc : Timecodes) (metas : Option (Nat × Nat)),
     captures s i = false ∨ formatAccepted s.act i (signalFormat i fmt) = false → exec (.captureFrameStart i fmt tRef fine tc rtp metas) s = .next s) ∧
   (∀ (s : State) (i : Fin 8) (fmt g f : CapFormat) (tRef fine rtp a : Nat) (tc : Timecodes) (metas : Option (Nat × Nat)), captures s i = true →
     g = signalFormat i fmt → formatAccepted s.act i g = true → a = refInstant s i tRef fine rtp →
     f = appliedFormat s.act i (if (i : Nat) < 6 then g else { streamFormat s.act i with transfer := g.transfer }) →
     ∃ u v w t : State, u = (recoveredAll (pruneOld (discardRun s i) i) [0x0306, 0x0308, 0x0303] i).modIn i (fun x => { x with
         packets := [], arrived := [], links := 2 ^ (groupOf s.act i).length - 1, rate := fmt.rate
         refTimes := if (i : Nat) < 6 ∨ s.ptp.valid then (a :: x.refTimes).take 17 else []
         lastRef := if (i : Nat) < 6 ∨ s.ptp.valid then some a else none }) ∧
       v = u.modIn i (fun x => { x with st := if x.up then 3 else 2, tooLarge := false }) ∧
       w = (u.modIn i fun x => { x with st := 4, tooLarge := true }).modIn i (fun x => { x with discarded := satAdd 0xFFFF x.discarded 1 }) ∧
       exec (.captureFrameStart i fmt tRef fine tc rtp metas) s = .next (if (t.inAt i).lastRef.isSome then regainRef t 4 i else t) ∧
       (inMaxW s.act i < f.w ∨ inMaxH s.act i < f.h → t = if (s.inAt i).tooLarge then w else raise w 0x0304 i) ∧
       (f.w ≤ inMaxW s.act i → f.h ≤ inMaxH s.act i →
         (6 ≤ (i : Nat) → streamAgrees (streamFormat s.act i) g = false → t = refuseFrame v i) ∧
         ((i : Nat) < 6 ∨ streamAgrees (streamFormat s.act i) g = true →
           (inSealed s.act i = false → t = takeBuffer v i f (a / 25) (a % 25) (timecode tc) (if 6 ≤ (i : Nat) then rtp else 0) none) ∧
           (inSealed s.act i = true → metas = none → t = raise (refuseFrame v i) 0x1002 i) ∧
           (inSealed s.act i = true → ∀ id fr, metas = some (id, fr) →
             (∀ k, streamKey v i id = some k →
               t = takeBuffer v i f (a / 25) (a % 25) (timecode tc) (if 6 ≤ (i : Nat) then rtp else 0) (some (k.key, k.nonce, if 6 ≤ (i : Nat) then rtp else fr))) ∧
             (streamKey v i id = none → t = raiseLimited (refuseFrame v i) 0x1001 i i oneSecond .internal))))) ∧
   (∀ (s : State) (i tRef fine rtp : Nat), (i < 6 → refInstant s i tRef fine rtp = 25 * tRef + fine) ∧ (6 ≤ i → refInstant s i tRef fine rtp = rtpInstant s rtp)) ∧
   (∀ (i : Nat) (f : CapFormat), f.pid = true ∨ 4 ≤ i → signalFormat i f = f) ∧
   (∀ (i : Nat) (f : CapFormat), i < 4 → f.pid = false → (signalFormat i f).sampling = 2 ∧ (signalFormat i f).depth = 10 ∧ (signalFormat i f).w = f.w ∧ (signalFormat i f).h = f.h) ∧
   (∀ (s : State) (i : Nat) (f : CapFormat) (tRef fine tc rtp : Nat) (key : Option (List Byte × Nat × Nat)),
     (freeBuffer (s.inAt i) = none → takeBuffer s i f tRef fine tc rtp key =
       raise (s.modIn i fun x => { x with discarded := satAdd 0xFFFF x.discarded 1 }) 0x0305 i) ∧
     (∀ b, freeBuffer (s.inAt i) = some b → takeBuffer s i f tRef fine tc rtp key = s.modIn i fun x => { x with
       run := some { buf := b, base := bufferBase s i b, fmt := f, tRef := tRef, fine := fine, tc := tc, rtp := rtp, key := key }
       bufs := upd x.bufs b fun y => { y with fence := false, age := x.counter + 1 } })) ∧
   (∀ (s : State) (i : Fin 8) (skew : Bool) (words : List Nat),
     ((s.inAt i).run = none → exec (.captureFrameComplete i skew words) s = .next s) ∧
     (∀ r, (s.inAt i).run = some r → skew = false ∨ (groupOf s.act i).length ≤ 1 →
       exec (.captureFrameComplete i skew words) s = .next (announceFrame (storeCapture s i r
         (if 6 ≤ (i : Nat) then (s.inAt i).packets.flatMap (·.2) else words)) i (s.inAt i).prev r.fmt)) ∧
     (∀ r, (s.inAt i).run = some r → skew = true → 1 < (groupOf s.act i).length →
       exec (.captureFrameComplete i skew words) s = .next (fault (discardRun s i) 0x0308 i i))) ∧
   (∀ (s : State) (i : Nat) (r : CapRun) (words : List Nat), i < s.input.length → r.buf < (s.inAt i).bufs.length → ∃ x : InputState,
     (storeCapture s i r words).inAt i = x ∧ x.counter = (s.inAt i).counter + 1 ∧ x.newest = some ((s.inAt i).counter + 1) ∧ x.run = none ∧
     (nth x.bufs r.buf {}).fence = true ∧ (nth x.bufs r.buf {}).refs = [] ∧ (nth x.bufs r.buf {}).frame.count = (s.inAt i).counter + 1 ∧
     (nth x.bufs r.buf {}).frame.base = r.base ∧ (∀ b, b ≠ r.buf → nth x.bufs b {} = nth (s.inAt i).bufs b {}) ∧
     (storeCapture s i r words).hbm.mem = Memory.store ramDefault s.hbm.mem r.base
       ((convertFrame r.fmt (storeFormat r.fmt) (rawPixels (groupOf s.act i).length r.fmt (openWords i (groupOf s.act i).length r.fmt r.key words))).flatMap
         fun p => leBytes (bitsPerPixel (storeFormat r.fmt) / 8) p.2))) ∧
  ((∀ (s : State) (i : Fin 8), captures s i = true → (s.inAt i).st ≠ 1 → signalGone s i = true →
     exec (.capSignalLost i) s = .next (outputs.foldl (fun t o => if genSrc (t.rt o) o = 4 ∧ srcIdx (t.rt o) o = i then loseGenRef t o else t)
       (raise ((discardRun s i).modIn i fun x => { x with
         st := 1, up := false, consistent := 0, links := 0, rate := 0, lastRef := none, refTimes := [], losses := satAdd 0xFFFF x.losses 1 }) 0x0302 i))) ∧
   (∀ (s : State) (i : Fin 8), captures s i = false ∨ (s.inAt i).st = 1 ∨ signalGone s i = false → exec (.capSignalLost i) s = .next s) ∧
   (∀ (s : State) (i : Nat), signalGone s i = true ↔ i < 6 ∨ ∀ p < 2, nbit (streamPaths s.act i) p = true → pathQuiet s i p = true) ∧
   (∀ (s : State) (i : Fin 8), (s.inAt i).run.isSome = true → exec (.signalChangeMidFrame i) s = .next (fault (discardRun s i) 0x0303 i i)) ∧
   (∀ (s : State) (i : Fin 8), 6 ≤ (i : Nat) → (s.inAt i).run.isSome = true → packetLost s i = true →
     exec (.capPktLoss i) s = .next (fault (discardRun s i) 0x0306 i i)) ∧
   (∀ (s : State) (i : Fin 8), packetLost s i = false → exec (.capPktLoss i) s = .next s) ∧
   (∀ (s : State) (i : Nat), (∀ e ∈ (s.inAt i).arrived, s.tb.tick < e.2 + s.act.half (aStream (i - 6) + 22) * 40000) → packetLost s i = false) ∧
   (∀ (s : State) (i : Fin 8), (s.inAt i).run = none → exec (.signalChangeMidFrame i) s = .next s ∧ exec (.capPktLoss i) s = .next s ∧ discardRun s i = s) ∧
   (∀ (s : State) (i : Nat), (s.inAt i).run.isSome = true → discardRun s i = s.modIn i fun x =>
     { x with run := none, packets := [], arrived := [], discarded := satAdd 0xFFFF x.discarded 1 }))

/-- R279: a packet that arrives on a port of its stream enters the frame in progress once, whichever path brought it; a
path without a packet for two frame periods is reported once. R280, R67, R235: the 16th Sync in a row within 40 ns
makes PTP time valid with PTP_LOCKED and gives the generators that follow it their reference back; 3 s without Sync
make it invalid with PTP_LOST and takes that reference. Messages of another domain do nothing. The servo's law is a
free value (assumption 7). R274 to R276, R281: a port that is on answers ARP and ICMP echo requests for its own
address and nothing else; an AUX read answers up to 16 bytes of the EDID or the DPCD; an AUX write changes only the
DPCD's link and power fields; HPD returns high after its pulse of 2 ms. -/
def Obligations.NetworkAndSinkPorts : Prop :=
  ((∀ (s : State) (i : Fin 8) (net : Fin 2) (seq : Nat) (words : List Nat), 6 ≤ (i : Nat) → captures s i = true →
     nbit (streamPaths s.act i) net = true → ∃ f : InputState → InputState, (∀ x, (f x).pathDown = listSet x.pathDown net false ∧ (f x).pathAt = listSet x.pathAt net s.tb.tick) ∧
       exec (.ethPacketReceive i net seq words) s = .next (s.modIn i f) ∧
       ((s.inAt i).run = none → ∀ x, (f x).packets = x.packets) ∧
       ((s.inAt i).run.isSome = true → ∀ x,
         ((∃ p ∈ x.packets, p.1 = packetPlace x (seq % 2 ^ 32)) → (f x).packets = x.packets) ∧
         ((∀ p ∈ x.packets, p.1 ≠ packetPlace x (seq % 2 ^ 32)) → (f x).packets = Sparse.put x.packets (packetPlace x (seq % 2 ^ 32)) words))) ∧
   (∀ (s : State) (i : Fin 8) (net : Fin 2), 6 ≤ (i : Nat) → captures s i = true → nbit (streamPaths s.act i) net = true →
     (nth (s.inAt i).pathDown net false = false → pathQuiet s i net = true → exec (.capPathLost i net) s =
       .next (raise (s.modIn i fun x => { x with pathDown := listSet x.pathDown net true }) 0x0307 i)) ∧
     (nth (s.inAt i).pathDown net false = true ∨ pathQuiet s i net = false → exec (.capPathLost i net) s = .next s)) ∧
   (∀ (s : State) (i net : Nat), pathQuiet s i net = true ↔
     800000000 * s.act.half (aStream (i - 6) + 36) ≤ (s.tb.tick - nth (s.inAt i).pathAt net 0) * s.act.nat (aStream (i - 6) + 32))) ∧
  ((∀ (s : State) (ofs : Int) (d : Nat), (s.rt 4).bit 0x30010 31 = false ∨ (s.rt 4).fld 0x30010 7 0 ≠ d → exec (.ptpMessage ofs d) s = .next s) ∧
   (∀ (s : State) (ofs : Int) (d : Nat), (s.rt 4).bit 0x30010 31 = true → (s.rt 4).fld 0x30010 7 0 = d → s.ptp.valid = false →
     (ofs - s.ptp.offset).natAbs ≤ 40 →
     (15 ≤ s.ptp.consistent → exec (.ptpMessage ofs d) s = .next (regainRef (raise { holdSecure s with
       ptp := { s.ptp with offset := Config.ptpServo s.ptp.offset ofs, lastSync := s.tb.tick, consistent := 16, st := 3, valid := true } } 0x0309 (ptpPort (s.rt 4))) 2 0)) ∧
     (s.ptp.consistent < 15 → exec (.ptpMessage ofs d) s = .next { holdSecure s with
       ptp := { s.ptp with offset := Config.ptpServo s.ptp.offset ofs, lastSync := s.tb.tick, consistent := s.ptp.consistent + 1, st := 2 } })) ∧
   (∀ (s : State) (ofs : Int) (d : Nat), (s.rt 4).bit 0x30010 31 = true → (s.rt 4).fld 0x30010 7 0 = d → s.ptp.valid = false →
     40 < (ofs - s.ptp.offset).natAbs → exec (.ptpMessage ofs d) s = .next { holdSecure s with
       ptp := { s.ptp with offset := Config.ptpServo s.ptp.offset ofs, lastSync := s.tb.tick, consistent := 0, st := 2 } }) ∧
   (∀ (s : State) (ofs : Int) (d : Nat), (s.rt 4).bit 0x30010 31 = true → (s.rt 4).fld 0x30010 7 0 = d → s.ptp.valid = true →
     exec (.ptpMessage ofs d) s = .next { holdSecure s with ptp := { s.ptp with
       offset := Config.ptpServo s.ptp.offset ofs, lastSync := s.tb.tick, st := 3
       consistent := if (ofs - s.ptp.offset).natAbs ≤ 40 then min 16 (s.ptp.consistent + 1) else 0 } }) ∧
   (∀ s : State, s.ptp.st ≤ 1 ∨ s.ptp.st = 4 ∨ s.tb.tick < s.ptp.lastSync + 1200000000 → exec .ptpLost s = .next s) ∧
   (∀ s : State, 1 < s.ptp.st → s.ptp.st ≠ 4 → s.ptp.lastSync + 1200000000 ≤ s.tb.tick → ∃ u : State,
     u = (if s.ptp.valid then raise { holdSecure s with ptp := { s.ptp with st := 1, valid := false, consistent := 0 } } 0x030A
       (ptpPort ((holdSecure s).rt 4)) else { holdSecure s with ptp := { s.ptp with st := 1, valid := false, consistent := 0 } }) ∧
     exec .ptpLost s = .next (outputs.foldl (fun t o => if genSrc (t.rt o) o = 2 then loseGenRef t o else t) u))) ∧
  ((∀ (s : State) (net : Fin 2) (l r : List Byte), phyRate s.act net ≠ 0 →
     (arpReply (portMac s.act net) (portIp s.act net) l).or (echoReply (portIp s.act net) l) = some r →
     exec (.ethArpIcmp net l) s = .next { s with net := { s.net with sent := (((net : Nat), r) :: s.net.sent).take 16 } }) ∧
   (∀ (s : State) (net : Fin 2) (l : List Byte), phyRate s.act net = 0 ∨
     (arpReply (portMac s.act net) (portIp s.act net) l = none ∧ echoReply (portIp s.act net) l = none) → exec (.ethArpIcmp net l) s = .next s) ∧
   (∀ (s : State) (i : Fin 2) (a n : Nat) (l : List Byte), captures s (4 + i) = true →
     exec (.dpAuxRequest i false true a l n) s = .next (answer s 0 [] ((List.range (min 16 n)).map fun k =>
       servedEdid s.act (4 + i) (s.inAt (4 + i)).edidDefault (a + k))) ∧
     exec (.dpAuxRequest i false false a l n) s = .next (answer s 0 [] ((List.range (min 16 n)).map fun k => dpcdByte s (4 + i) (a + k)))) ∧
   (∀ (s : State) (i : Fin 2) (a n : Nat) (l : List Byte), captures s (4 + i) = true → ∃ d : List (Nat × Byte),
     exec (.dpAuxRequest i true false a l n) s = .next { s with net := { s.net with dpcd := d } } ∧
     ∀ p : Nat × Byte, (∀ e < min 16 l.length, dpcdWritable (a + e) = true → p.1 ≠ 2 ^ 20 * (4 + i) + a + e) → (p ∈ d ↔ p ∈ s.net.dpcd)) ∧
   (∀ (s : State) (i : Fin 2), (s.inAt (4 + i)).hpdPulse = true → (s.inAt (4 + i)).hpdAt + 800000 ≤ s.tb.tick → exec (.hpdPulseEnd i) s = .next (s.modIn (4 + i) fun x =>
     { x with hpdPulse := false, hpd := inEnable s.act (4 + i) && x.st != 0 })) ∧
   (∀ (s : State) (i : Fin 2), (s.inAt (4 + i)).hpdPulse = false ∨ s.tb.tick < (s.inAt (4 + i)).hpdAt + 800000 → exec (.hpdPulseEnd i) s = .next s))

/-- R283, R311, R337, R344, R431: a BAR2 access whose every byte the host may reach reads or writes those bytes of HBM3, a
write to a PROT surface decrypted with its valid key or, without one, discarded with KEY_MISSING; one that faults is
discarded, or completes with Completer Abort for kind 2 and Unsupported Request otherwise, and raises HOST_XLATE_FAULT
at most once a second; no surface is reached at or above 2^BAR2_LOG (kind 1: assumption 129); an access ends an
automatic self-refresh; an atomic is unsupported. R283, R285: a BAR0 access of another size raises HOST_ACCESS_ERR, a
read completing with Unsupported Request; a PCIe reset clears the endpoint and its path's LADLE_VIEW, and nothing
else. -/
def Obligations.HostWindow : Prop :=
  ((∀ s : State, wakeHbm s = { s with hbm := { s.hbm with st := if s.hbm.st = 4 ∧ s.hbm.srDusk = false then 5 else s.hbm.st } }) ∧
   (∀ (s u : State) (addr n a b : Nat) (l : List (Nat × Nat)), hostPlaces false n addr (wakeHbm s) = (u, (0, a, b), l) →
     exec (.bar2Read addr n) s = .next (answer u 0 [] (l.map fun p => Sparse.get ramDefault u.hbm.mem p.2))) ∧
   (∀ (s u : State) (addr a b : Nat) (bytes : List Byte) (l : List (Nat × Nat)), hostPlaces true bytes.length addr (wakeHbm s) = (u, (0, a, b), l) →
     ((u.surfAt (l.headD (0, 0)).1).prot = false → exec (.bar2Write addr bytes) s = .next { u with hbm := { u.hbm with
       mem := (List.zip l bytes).foldl (fun m e => Sparse.set ramDefault m e.1.2 e.2) u.hbm.mem } }) ∧
     ((u.surfAt (l.headD (0, 0)).1).prot = true →
       (∀ k, surfaceKey u (l.headD (0, 0)).1 = some k → exec (.bar2Write addr bytes) s = .next { u with hbm := { u.hbm with
         mem := (List.zip l ((List.range bytes.length).map fun n =>
           bytes.getD n 0 ^^^ surfaceKeyByte k (addr - (u.surfAt (l.headD (0, 0)).1).lo + n))).foldl
             (fun m e => Sparse.set ramDefault m e.1.2 e.2) u.hbm.mem } }) ∧
       (surfaceKey u (l.headD (0, 0)).1 = none →
         exec (.bar2Write addr bytes) s = .next (raiseP u 0x1001 (0x8000 + (l.headD (0, 0)).1) .bar0)))) ∧
   (∀ (s u : State) (addr n k a b : Nat) (l : List (Nat × Nat)), hostPlaces false n addr (wakeHbm s) = (u, (k, a, b), l) → k ≠ 0 →
     exec (.bar2Read addr n) s = .next (answer (hostFault u (k, a, b) false) (if k = 2 then statusCA else statusUR) [] [])) ∧
   (∀ (s u : State) (addr k a b : Nat) (bytes : List Byte) (l : List (Nat × Nat)), hostPlaces true bytes.length addr (wakeHbm s) = (u, (k, a, b), l) → k ≠ 0 →
     exec (.bar2Write addr bytes) s = .next (hostFault u (k, a, b) true)) ∧
   (∀ (s : State) (addr : Nat), (addr < 2 ^ s.mgmt.bar2Log → hostSurface s addr = surfaceOf s addr) ∧ (2 ^ s.mgmt.bar2Log ≤ addr → hostSurface s addr = none)) ∧
   (∀ (s : State) (addr : Nat) (w : Bool), hostSurface s addr = none → hostAccess s addr w = (1, none, s)) ∧
   (∀ (s : State) (addr i : Nat) (w : Bool), hostSurface s addr = some i → ∃ u : State, hostAccess s addr w =
       (if 3 ≤ (s.surfAt i).st then 3 else 2, none, u) ∧ u = (s.modSurf fun m => { m with cache := (i :: m.cache.filter (· != i)).take 64 }) ∨
     ((s.surfAt i).st < 3 ∧ (if w then (s.surfAt i).hostW else (s.surfAt i).hostR) = true)) ∧
   (∀ (s : State) (f : Nat × Nat × Nat) (w : Bool), (hostFault s f w).hbm = s.hbm ∧ (hostFault s f w).fs = s.fs ∧
     (hostFault s f w).comp = s.comp ∧ (hostFault s f w).port = s.port ∧ (hostFault s f w).seq = s.seq) ∧
   (∀ (s : State) (addr : Nat), exec (.bar2Atomic addr) s = .next (answer s statusUR [] []))) ∧
  ((∀ (s : State) (addr size : Nat) (w : Bool), (size = 4 ∨ size = 8) ∧ addr % size = 0 → exec (.hostAccessErr addr size w) s = .next s) ∧
   (∀ (s : State) (addr size : Nat), ¬((size = 4 ∨ size = 8) ∧ addr % size = 0) →
     exec (.hostAccessErr addr size true) s = .next (raiseP s 0x030C 0 .bar0) ∧
     exec (.hostAccessErr addr size false) s = .next (answer (raiseP s 0x030C 0 .bar0) statusUR [] [])) ∧
   (∀ s : State, exec .pcieReset s = .next { s with
     pcie := {}, ladle := { s.ladle with views := s.ladle.views.filter fun e => e.1 != PathId.bar0 } }))

/-- R359: a threshold is entered once the rising condition has held at every conversion for 8 ms, 81 conversions 100 µs
apart, and not before; a conversion that breaks the condition starts the 8 ms afresh; while it is entered only the
falling condition counts. R351, R356 to R358, R362: every sensor converts; a live sensor contributes its own reading;
T_die is the greatest of the 64 values and, unless the stack is in self-refresh or untrained, the stack's reading. A
sensor that fails now raises SENSOR_FAIL and holds the level for 2 s; a die whose sensors no longer cover it raises
the HALT with its shutdown record; then the thresholds and the flash window are judged. R361, R362: a step of the
thermal level moves it by one: up while the Temper condition holds, RISE_STEP after the last change; down once T_die
has stood below 98 °C for the dwell, and FALL_STEP after the last change of the same stay, while no hold of 2 s runs.
The end of the hold lets a fall that waits take place. -/
def Obligations.ThermalLevel : Prop :=
  ((∀ t0 n : Nat, (List.range (n + 1)).foldl (fun (t : Threshold) k => (t.judge (t0 + 40000 * k) true false).1) {} =
     if n < 80 then { entered := false, since := some t0 } else { entered := true, since := none }) ∧
   (∀ t0 n : Nat, (List.range (n + 1)).foldl (fun (t : Threshold) k => (t.judge (t0 + 40000 * k) false true).1) { entered := true, since := none } =
     if n < 80 then { entered := true, since := some t0 } else { entered := false, since := none }) ∧
   (∀ (t : Threshold) (now : Nat) (up down : Bool), (t.entered = false → up = false → t.judge now up down = ({ t with since := none }, false)) ∧
     (t.entered = true → down = false → t.judge now up down = ({ t with since := none }, false)))) ∧
  ((∀ (s : State) (counts : List (Nat × Nat)) (v : Int), let r := convert s counts v
     r.1.length = 64 ∧ (∀ i < 64, (nth r.1 i {}).value ≤ r.2.1) ∧ (s.hbm.st ≠ 4 → s.hbm.st ≠ 0 → s.hbm.temp ≤ r.2.1) ∧
     (r.2.1 = s.hbm.temp ∨ ∃ i < 64, (nth r.1 i {}).value = r.2.1) ∧
     ∀ i < 64, (nth r.1 i {}).st = 0 → (nth r.1 i {}).value = (nth r.1 i {}).reading ∧ (nth r.1 i {}).subst = false) ∧
   (∀ (s u : State) (counts : List (Nat × Nat)) (l : List Sensor) (d : Int) (src : Nat) (sub : Bool) (failed : List Nat),
     convert { s with free := s.free + 1 } counts (Config.freeNat 2 s.free) = (l, d, src, sub) →
     failed = (List.range 64).filter (fun i => (nth l i {}).st == 2 && (nth s.therm.sensors i {}).st != 2) →
     u = failed.foldl (fun t i => raise t 0x0D06 (thermData i (nth l i {}).value 0)) { s with free := s.free + 1, therm := { s.therm with
       sensors := l, tdie := d, src := src, subst := sub, converted := true
       holdUntil := if failed = [] then s.therm.holdUntil else s.tb.tick + 800000000 } } →
     (uncoveredDie l = none ∨ (s.therm.converted = true ∧ (uncoveredDie s.therm.sensors).isSome = true) →
       exec (.sensorConversion counts) s = .next (continueBody (judgeWindow (judgeDie (noteTemp u 6 d))))) ∧
     (∀ k i, uncoveredDie l = some k → s.therm.converted = false ∨ uncoveredDie s.therm.sensors = none →
       (nth dieSensors k []).find? (fun j => (nth l j {}).st != 0) = some i →
       exec (.sensorConversion counts) s = .next (continueBody (judgeWindow (judgeDie (noteTemp
         (shutdownRecord (raiseHalt u 0x0D07 (thermData i (nth l i {}).value 0)) 0x0D07) 6 d))))))) ∧
  ((∀ s : State, riseHolds s.therm = true → s.therm.lastChange + (s.rt 4).fld 0xD0008 7 0 * 400000 ≤ s.tb.tick →
     exec .temperLevelStep s = .next (raise (s.modTherm fun t => { t with level := s.therm.level + 1, lastChange := s.tb.tick, fallen := false })
       0x0D02 (thermData s.therm.src s.therm.tdie (s.therm.level + 1)))) ∧
   (∀ s : State, riseHolds s.therm = false ∨ s.tb.tick < s.therm.lastChange + (s.rt 4).fld 0xD0008 7 0 * 400000 →
     (fallHolds (s.rt 4) s.therm s.tb.tick = true → s.therm.holdUntil = 0 →
       exec .temperLevelStep s = .next (raise (s.modTherm fun t => { t with level := s.therm.level - 1, lastChange := s.tb.tick, fallen := true })
         0x0D03 (thermData s.therm.src s.therm.tdie (s.therm.level - 1)))) ∧
     (fallHolds (s.rt 4) s.therm s.tb.tick = false ∨ s.therm.holdUntil ≠ 0 → exec .temperLevelStep s = .next s)) ∧
   (∀ s : State, s.therm.holdUntil ≠ 0 → s.therm.holdUntil ≤ s.tb.tick →
     (fallHolds (s.rt 4) s.therm s.tb.tick = true → exec .sensorFailHoldEnd s = .next (raise (s.modTherm fun t =>
       { t with holdUntil := 0, level := s.therm.level - 1, lastChange := s.tb.tick, fallen := true }) 0x0D03 (thermData s.therm.src s.therm.tdie (s.therm.level - 1)))) ∧
     (fallHolds (s.rt 4) s.therm s.tb.tick = false → exec .sensorFailHoldEnd s = .next (s.modTherm fun t => { t with holdUntil := 0 }))) ∧
   (∀ s : State, s.therm.holdUntil = 0 ∨ s.tb.tick < s.therm.holdUntil → exec .sensorFailHoldEnd s = .next s) ∧
   (∀ t : ThermState, riseHolds t = true ↔ t.temper.entered = true ∧ t.level < 7 ∧ 816 ≤ t.tdie) ∧
   (∀ (m : WordMap) (t : ThermState) (now : Nat), fallHolds m t now = true ↔ t.belowDone = true ∧ 0 < t.level ∧
     (t.fallen = false ∨ t.lastChange + m.fld 0xD0008 23 8 * 400000 ≤ now)))

/-- R367 to R369, R388, R437, R438: a record that is written joins the chain with its number and hash and a signature
record starts a new count; then the next record follows. A write of an ingot or of a calibration block that has waited
10 s for the flash window is refused. -/
def Obligations.JournalRecordsAreWritten : Prop :=
  (∀ (s : State) (r : JrnRec) (b : List Byte), s.jrn.writing = some (r, b) → ∃ u : State,
    exec .journalWriteDone s = .next (journalKick (journalAdvance u)) ∧
    u = { s with flash := Memory.store flashDefault s.flash ((journalArea s).1 + s.jrn.pos) b, jrn := u.jrn, aod := { s.aod with dirty := u.aod.dirty },
                 mode := { s.mode with duskStep := u.mode.duskStep } } ∧
    u.jrn.writing = none ∧ u.jrn.seq = s.jrn.seq + 1 ∧ u.jrn.prev = Config.sha384 b ∧ u.jrn.pos = s.jrn.pos ∧
    (r.kind = 1 → u.jrn.sinceSig = 0 ∧ u.jrn.sigDue = false) ∧ (r.kind ≠ 1 → u.jrn.sinceSig = s.jrn.sinceSig + 1 ∧
      (u.jrn.sigDue = true ↔ s.jrn.sigDue = true ∨ 2 ≤ r.sev ∨ (0 < signInterval s ∧ signInterval s ≤ s.jrn.sinceSig + 1))) ∧
    (r.kind = 6 ∨ r.kind = 8 → u.aod.dirty = false ∧ u.jrn.mirror = false) ∧ (r.kind = 7 → u.aod.dirty = true ∧ u.jrn.mirror = true) ∧
    (r.kind ≠ 6 → r.kind ≠ 7 → r.kind ≠ 8 → u.aod.dirty = s.aod.dirty ∧ u.jrn.mirror = s.jrn.mirror) ∧
    u.mode.duskStep = (if r.kind = 8 ∧ s.mode.dev = 7 ∧ s.mode.duskStep = 4 then 5 else s.mode.duskStep)) ∧
  (∀ s : State, s.jrn.writing = none → exec .journalWriteDone s = .next s) ∧
  (∀ s : State, s.therm.flashOpen = true → exec .flashWriteWaitTimeout s = .next (continueBody s)) ∧
  (∀ (s : State) (u : Update) (t : Nat), s.therm.flashOpen = false → s.mgmt.update = some u → s.ann.run = none → u.waitAt = some t →
    (s.tb.tick < t + 4000000000 → exec .flashWriteWaitTimeout s = .next (continueBody s)) ∧
    (t + 4000000000 ≤ s.tb.tick → u.waitData.isSome = true ∨ u.waitCommit = true → exec .flashWriteWaitTimeout s = .next (continueBody (answer (ingotFail (s.modMgmt fun m =>
      { m with update := some { u with waitData := none, waitCommit := false, waitAt := none } }) u.path) 6 [] []))) ∧
    (t + 4000000000 ≤ s.tb.tick → u.waitData = none → u.waitCommit = false → u.erased = false → exec .flashWriteWaitTimeout s =
      .next (continueBody (answer (ingotFail (s.modMgmt fun m => { m with update := none }) u.path) 6 [] [])))) ∧
  (∀ (s : State) (r : AnnRun), s.therm.flashOpen = false → s.mgmt.update = none → s.ann.run = some r →
    exec .flashWriteWaitTimeout s = .next (continueBody (if r.writeWait = true ∧ r.waitAt + 4000000000 ≤ s.tb.tick then refuseRun s else s)))

/-- R370 to R372: an estimate of DROOP_MV or more begins a droop, with VDD_DROOP at most once a second, which ends when
every estimate has stayed below half of it for CLEAR_US; domains wake one at a time, lowest first, never in a droop
nor within WAKE_GAP of another admission, and are usable 2 µs later; one that is used (by what: assumption 130) does
not sleep. -/
def Obligations.DroopAndDomains : Prop :=
  (∀ (s : State) (i : Fin 64) (count : Nat), senses i = false → exec (.droopSample i count) s = .next s) ∧
  (∀ (s : State) (i : Fin 64) (count : Nat) (d : Rat) (t : ThermState), senses i = true →
    d = dropOf (nth s.fuse.sensors i {}) (nth s.therm.rings i []) count →
    t = { s.therm with rings := listSet s.therm.rings i ((count :: nth s.therm.rings i []).take 10000), estimates := listSet s.therm.estimates i d } →
    (s.therm.droop = false → (droopMv (s.rt 4) : Rat) ≤ d → exec (.droopSample i count) s = .next (raiseLimited { s with therm := { t with
      droop := true, droopSensor := i, droopDepth := min 255 d.floor.toNat, droopCount := satAdd 0xFFFF s.therm.droopCount 1, calmSince := none } }
        0x0D0E 0 (i + min 0xFFFF d.floor.toNat * 2 ^ 16) oneSecond .internal)) ∧
    (s.therm.droop = false → d < (droopMv (s.rt 4) : Rat) → exec (.droopSample i count) s = .next { s with therm := { t with calmSince := none } }) ∧
    (s.therm.droop = true → exec (.droopSample i count) s = .next { s with therm := { t with
      calmSince := if (t.estimates.all fun e => decide (2 * e < (droopMv (s.rt 4) : Rat))) then some (s.therm.calmSince.getD s.tb.tick) else none
      droopDepth := max s.therm.droopDepth (min 255 d.floor.toNat) } })) ∧
  (∀ (s : State) (t : Nat), s.therm.droop = true → s.therm.calmSince = some t →
    (t + (s.rt 4).fld 0xD0020 15 8 * 400 ≤ s.tb.tick → exec .droopClear s = .next { s with
      therm := { s.therm with droop := false, calmSince := none }, drive := { s.drive with paused := false } }) ∧
    (s.tb.tick < t + (s.rt 4).fld 0xD0020 15 8 * 400 → exec .droopClear s = .next s)) ∧
  (∀ s : State, s.therm.droop = false ∨ s.therm.calmSince = none → exec .droopClear s = .next s) ∧
  (∀ (s : State) (d : Fin 26), exec (.domainWakeRequest d) s = .next (if nbit s.therm.awake d then s else
    s.modTherm fun t => { t with pend := withBit t.pend d true })) ∧
  (∀ (s : State) (d : Nat), (List.range 26).find? (nbit s.therm.pend) = some d →
    (admissible s = true → exec .domainWakeAdmit s = .next { s with
      therm := { s.therm with pend := withBit s.therm.pend d false, awake := withBit s.therm.awake d true, wokenAt := listSet s.therm.wokenAt d s.tb.tick }
      drive := { s.drive with lastAdmit := some s.tb.tick } }) ∧
    (admissible s = false → exec .domainWakeAdmit s = .next s)) ∧
  (∀ s : State, (List.range 26).find? (nbit s.therm.pend) = none → exec .domainWakeAdmit s = .next s) ∧
  (∀ s : State, admissible s = true ↔ s.therm.droop = false ∧ ∀ t, s.drive.lastAdmit = some t → t + 400 * wakeGap (s.rt 4) ≤ s.tb.tick) ∧
  (∀ (s : State) (d : Fin 26),
    (nbit s.therm.awake d = true → nth s.therm.wokenAt d 0 + 800 ≤ s.tb.tick →
      exec (.domainUsable d) s = .next (s.modTherm fun t => { t with usable := withBit t.usable d true })) ∧
    (nbit s.therm.awake d = false ∨ s.tb.tick < nth s.therm.wokenAt d 0 + 800 → exec (.domainUsable d) s = .next s)) ∧
  (∀ (s : State) (d : Fin 26), domainUsed s d = true → exec (.domainSleep d) s = .next s) ∧
  (∀ (s : State) (d : Fin 26), domainUsed s d = false → exec (.domainSleep d) s =
    .next (s.modTherm fun t => { t with awake := withBit t.awake d false, usable := withBit t.usable d false }))

/-- R377, R386, R391: a run starts only when its request meets every condition, with its steps in order, and is otherwise
ANNEAL_REJECT; an abort ends it with cause 7 and a moved dowser with cause 4, and neither changes the settings in
force, the flash or the block in force. R378, R380, R383, R386, R388: a run begins its first step with something to
measure once its outputs have been dark for 200 µs and their strings are ready; each point's readings join the run
once it has lasted its time, in a steal run only within a stolen frame; a check of 5 ms, or of 200 µs in a stolen
frame, that fails aborts with the first cause, one that passes goes on; a Pour that does not resolve within 10 s
refuses the run. A mode transition of a run's output, STILL included (assumption 131), aborts it with cause 7. -/
def Obligations.AnnealRuns : Prop :=
  ((∀ (s : State) (path : PathId) (v : Word) (kind outs steps : Nat), serves s path = true → hasRole s path 3 = true →
     kind = nbits v.toNat 29 28 → outs = (if kind = 2 then 0 else nbits v.toNat 27 24) → steps = nbits v.toNat 7 0 →
     (refusesRun s kind outs steps = true → exec (.annCtrlStart path v) s = .next (raiseP s 0x0E04 (annData 4 0 0) path)) ∧
     (refusesRun s kind outs steps = false → ∃ (r : AnnRun) (u : State), r.todo = runPairs s kind outs steps ∧ r.kind = kind ∧ r.outputs = outs ∧
       r.steps = steps ∧ r.begun = false ∧ r.readings = [] ∧ r.prevModes = s.mode.outs.map (·.mode) ∧
       u = raiseP (s.modAnn fun a => { a with run := some r }) 0x0E01 (annData 0 0 0) path ∧
       exec (.annCtrlStart path v) s = .next (if kind = 2 then setDevice u 5 else u))) ∧
   (∀ (s : State) (path : PathId), serves s path = true → hasRole s path 3 = true → exec (.annCtrlAbort path) s = .next (abortRun s 7)) ∧
   (∀ (s : State) (b : Bool), s.ann.dowser ≠ b → exec (.dowserChange b) s = .next (abortRun (s.modAnn fun a => { a with dowser := b }) 4)) ∧
   (∀ (s : State) (c : Nat), s.ann.run = none → abortRun s c = s) ∧
   (∀ (s : State) (c : Nat) (r : AnnRun), s.ann.run = some r → (abortRun s c).ann.run = none ∧ (abortRun s c).ann.outcome = 2 ∧
     (abortRun s c).ann.cause = c ∧ (abortRun s c).ann.block = s.ann.block ∧ (abortRun s c).ladle.act = s.ladle.act ∧
     (abortRun s c).flash = s.flash ∧ (abortRun s c).fs = s.fs) ∧
   (∀ (s : State) (o : Nat) (r : AnnRun), s.ann.run = some r →
     (r.kind ≠ 2 → nbit r.outputs o = true → r.ended = false → interruptRun s o = abortRun s 7) ∧
     (r.kind = 2 ∨ nbit r.outputs o = false ∨ r.ended = true → interruptRun s o = s)) ∧
   (∀ (s : State) (o auto : Nat) (r : AnnRun), s.ann.run = some r → r.kind ≠ 2 → nbit r.outputs o = true → r.ended = false →
     (s.outAt o).exit = .none_ → (s.outAt o).mode ≠ 1 → (s.tgAt o).running = true → (startExit s o auto).ann.run = none)) ∧
  ((∀ (s : State) (r : AnnRun), s.ann.run = some r →
     (r.begun = false → (r.kind = 0 → r.enteredAt + 80000 ≤ s.tb.tick ∧ ∀ o ∈ maskOutputs r.outputs, (s.outAt o).mode = 5 ∧ stringsReady s o = true) →
       exec .annealStepsBegin s = .next (enterStep s { r with begun := true } r.todo)) ∧
     (r.begun = true ∨ (r.kind = 0 ∧ (s.tb.tick < r.enteredAt + 80000 ∨ ∃ o ∈ maskOutputs r.outputs, (s.outAt o).mode ≠ 5 ∨ stringsReady s o = false)) →
       exec .annealStepsBegin s = .next s)) ∧
   (∀ (s : State) (r : AnnRun) (step o i : Nat) (rest : List (Nat × Nat)) (items : List Nat) (values : List Int), s.ann.run = some r →
     r.todo = (step, o) :: rest → r.items = i :: items → r.begun = true → r.st = 2 → r.post = false →
     (pointEnds s r step o = false → exec (.annealPointDone values) s = .next s) ∧
     (pointEnds s r step o = true → ∃ (u : State) (q : AnnRun), q = { afterPoint s r step o i values with since := s.tb.tick } ∧
       u = s.modAnn (fun a => { a with run := some q }) ∧
       (r.kind ≠ 0 → exec (.annealPointDone values) s = .next u) ∧
       (r.kind = 0 → exec (.annealPointDone values) s = .next (if q.post then annRelease u o else holdPoint u q)))) ∧
   (∀ (s : State) (r : AnnRun) (step o : Nat), pointEnds s r step o = true → r.since + pointTime s step o ≤ s.tb.tick ∧ (r.kind = 1 → r.frame = true)) ∧
   (∀ (s : State) (r : AnnRun) (step o : Nat), r.kind ≠ 1 → r.since + pointTime s step o ≤ s.tb.tick → pointEnds s r step o = true) ∧
   (∀ (s : State) (r : AnnRun) (step o i : Nat) (values : List Int), ∀ x ∈ pointReadings s r step o i values, x ∈ (afterPoint s r step o i values).readings) ∧
   (∀ (s : State) (r : AnnRun) (darks : List Nat) (again : Int), s.ann.run = some r → r.begun = true → r.ended = false →
     (r.kind = 1 → r.stolen = true ∧ r.st = 2) → (r.kind ≠ 1 → r.st = 1) → r.since + checkTime r ≤ s.tb.tick →
     (∀ c i, checkCause s r darks again (if r.kind = 1 then r.frame else r.post) = some (c, i) → exec (.annealCheckDone darks again) s = .next (abortAt s c i)) ∧
     (checkCause s r darks again (if r.kind = 1 then r.frame else r.post) = none → exec (.annealCheckDone darks again) s =
       .next (if (if r.kind = 1 then r.frame else r.post) then passPost s r else passPre s r darks))) ∧
   (∀ (s : State) (r : AnnRun) (darks : List Nat) (again : Int) (after : Bool) (k : Nat), k < 8 → (s.rt 4).bit (aPdMap k) 31 = true →
     r.kind = 2 ∨ nbit r.outputs ((s.rt 4).fld (aPdMap k) 25 24) = true → (s.rt 4).fld 0xE0004 15 0 < nth darks k 0 →
     ∃ i, checkCause s r darks again after = some (1, i)) ∧
   (∀ (s : State) (r : AnnRun) (darks : List Nat) (again : Int), s.ann.run = some r → s.tb.tick < r.since + checkTime r → exec (.annealCheckDone darks again) s = .next s) ∧
   (∀ (s : State) (r : AnnRun), s.ann.run = some r →
     (r.waitPour = true → r.waitAt + 4000000000 ≤ s.tb.tick → exec .annealPourWaitTimeout s = .next (refuseRun s)) ∧
     (r.waitPour = false ∨ s.tb.tick < r.waitAt + 4000000000 → exec .annealPourWaitTimeout s = .next s)) ∧
   (∀ (s : State) (r : AnnRun), s.ann.run = some r → r.checked = true → s.ladle.armed = false →
     (s.therm.flashOpen = false → exec .calBlockWriteDone s = .next s) ∧
     (s.therm.flashOpen = true → ∃ (b : List Byte) (u : State), b = sealBlock r.block (localNs s) ∧
       u = programFlash (eraseFlash s (nth s.mgmt.layout (2 * (1 - s.ann.slot)) 0) (nth s.mgmt.layout (2 * (1 - s.ann.slot) + 1) 0))
         (nth s.mgmt.layout (2 * (1 - s.ann.slot)) 0) b ∧
       exec .calBlockWriteDone s = .next (armPour (u.modAnn fun a => { a with run := some { r with block := b, writeWait := false } })))))

/-- R396, R402 to R404, R406, R413: what each source does. An overlimit trips and fails its string with cause 3; a command
lane that disagrees is counted with CLASS 0xF; a zone signature that fails is answered by a trip and a fresh copy; an
unsafe interlock reading trips with ILK, a discrepancy of 100 ms with ILK_DISC, QUENCH_N with EXT unless the device
drives it; GUARD_CMD trips with SW; a lost core with CORE_LOST. R33, R405 to R408: a trip sets the latch, adds its
source and keeps every other, records the first, and leaves every string at command 0 with its stage off; a source
that is among SOURCES already raises no second event. Frames, pixels and memories are untouched. R410, R411: a release
needs every condition of R410; the first that fails refuses it with QUENCH_RELEASE_REFUSED and a record; a release
clears the latch, SOURCES and HALT; the automatic release needs its source alone, safe for HOLD ms, and its enable. -/
def Obligations.QuenchLatch : Prop :=
  ((∀ (s : State) (src : Fin 12) (nn : Fin 24) (sense : Nat), (src : Nat) ≠ 3 → (src : Nat) ≠ 4 → (src : Nat) ≠ 10 →
     exec (.quenchTrip ⟨src, nn, sense⟩) s = .next (tripEvent s src (src * 2 ^ 8) .internal)) ∧
   (∀ (s : State) (nn : Fin 24) (sense : Nat), exec (.quenchTrip ⟨3, nn, sense⟩) s =
     .next (failString (tripEvent s 3 (guardData ((strHome s nn).getD 0) nn sense) .internal) nn 3 sense) ∧
     exec (.stringOverlimit nn sense) s = exec (.quenchTrip ⟨3, nn, sense⟩) s) ∧
   (∀ (s : State) (nn : Fin 24) (sense : Nat), exec (.quenchTrip ⟨4, nn, sense⟩) s = .next (tripEvent (s.modGuard fun g => { g with
     twinCount := satAdd 0xFFFF g.twinCount 1, twinCls := 15, twinOut := (strHome s nn).getD 0, twinIdx := nn }) 4
       (guardData ((strHome s nn).getD 0) nn 0) .internal)) ∧
   (∀ (s : State) (path : PathId), serves s path = true → hasRole s path 4 = true → exec (.guardCmdQuench path) s = .next (tripEvent s 8 0x800 path)) ∧
   (∀ (s : State) (a b : Bool), let r := ilkReads (s.rt 4) a b
     ∃ g : GuardState, g.ilkA = a ∧ g.ilkB = b ∧ (r.1 = false ∨ r.2 = false → g.safeSince = none) ∧
       ∃ m : ModeState, m = { s.mode with ilkSinceStep1 := m.ilkSinceStep1 } ∧ (m.ilkSinceStep1 = true → s.mode.ilkSinceStep1 = true) ∧
       (r.1 = true → r.2 = true → exec (.ilkInputChange a b) s = .next { s with guard := g, mode := m }) ∧
       (r.1 = false ∨ r.2 = false → exec (.ilkInputChange a b) s = .next (tripEvent { s with guard := g, mode := m } 0 0 .internal))) ∧
   (∀ (s : State) (t : Nat), (ilkReads (s.rt 4) s.guard.ilkA s.guard.ilkB).1 ≠ (ilkReads (s.rt 4) s.guard.ilkA s.guard.ilkB).2 → s.guard.diffSince = some t →
     (t + 40000000 ≤ s.tb.tick →
       exec .ilkDiscrepancy s = .next (tripEvent (s.modGuard fun g => { g with disc := true, discUnsafe := false }) 1 0x100 .internal)) ∧
     (s.tb.tick < t + 40000000 → exec .ilkDiscrepancy s = .next s)) ∧
   (∀ s : State, (s.rt 4).bit 0xF0008 28 = true → drivesQuenchN s = false → exec (.quenchNInput true) s =
     .next (tripEvent (s.modGuard fun g => { g with qnLow := true, qnHighSince := none }) 7 0x700 .internal)) ∧
   (∀ (s : State) (low : Bool), low = false ∨ (s.rt 4).bit 0xF0008 28 = false ∨ drivesQuenchN s = true → ∃ g : GuardState,
     exec (.quenchNInput low) s = .next { s with guard := g } ∧ g.qnLow = low) ∧
   (∀ (s : State) (v : Bool) (nn : Fin 24) (sense : Nat), exec (.quenchTrip ⟨10, nn, sense⟩) s = exec (.coreLost false) s ∧ ∃ u : State,
     u = { s with mode := { s.mode with core := false, rails := if v then listSet s.mode.rails 1 false else s.mode.rails }
                  guard := { s.guard with heartbeat := false } } ∧
     (s.mode.dev = 0 → exec (.coreLost v) s = .next u) ∧
     (s.mode.dev ≠ 0 → exec (.coreLost v) s = .next (haltResponse (trip u 10) 0x0F14))) ∧
   (∀ s : State, (∀ o ∈ outputs, (nth s.guard.zones o {}).resident = true →
       crc32 (zoneResident s o (nth s.guard.zones o {}).w (nth s.guard.zones o {}).h) = zoneExpect s.act o) → exec .zoneSigCheck s = .next s) ∧
   (∀ (s : State) (o sig : Nat), o ∈ outputs → (nth s.guard.zones o {}).resident = true → (∀ p ∈ outputs, p ≠ o → (nth s.guard.zones p {}).resident = false) →
     sig = crc32 (zoneResident s o (nth s.guard.zones o {}).w (nth s.guard.zones o {}).h) → sig ≠ zoneExpect s.act o →
     exec .zoneSigCheck s = .next (zoneFail s o sig))) ∧
  (∀ (s : State) (src : Nat), let t := trip s src
     t.aod.latch = true ∧ hasSource t src = true ∧ (∀ k, hasSource s k = true → hasSource t k = true) ∧
     (∀ k, k ≠ src → hasSource t k = true → hasSource s k = true) ∧ t.aod.first = (if s.aod.latch then s.aod.first else src) ∧
     (∀ nn < 24, (t.strAt nn).cmd = 0 ∧ (t.strAt nn).st = 0 ∧ (t.strAt nn).stageOn = false ∧ (t.strAt nn).probe = none) ∧
     (s.mode.dev = 1 ∨ s.mode.dev = 5 → t.mode.dev = 6) ∧
     t.hbm = s.hbm ∧ t.fs = s.fs ∧ t.flash = s.flash ∧ t.ladle.act = s.ladle.act ∧ t.comp = s.comp ∧ t.tg = s.tg ∧
     (∀ data path, hasSource s src = true → tripEvent s src data path = t) ∧
     ∀ data path e, hasSource s src = false → sourceEvent src = some e → e ≠ 0x0F01 → tripEvent s src data path = raiseP t e data path) ∧
  ((∀ (s : State) (path : PathId), serves s path = true → hasRole s path 5 = true →
     (s.aod.latch = false → exec (.guardCmdRelease path) s = .next s) ∧
     (s.aod.latch = true → blockingSource s = none → exec (.guardCmdRelease path) s = .next (releaseLatch s path)) ∧
     (∀ b, s.aod.latch = true → blockingSource s = some b → exec (.guardCmdRelease path) s = .next (journalKind (raiseP s 0x0F16 (b * 2 ^ 8) path) 5 path
       (releaseData s 1 b) 0))) ∧
   (∀ s : State, blockingSource s = none ↔ ilkHeld s = true ∧ s.guard.disc = false ∧ (∀ b ∈ s.guard.beam, b = 0) ∧ zonesMissing s = false ∧
     (hasSource s 7 = true → s.guard.qnLow = false) ∧ s.aod.cls ≠ 3 ∧ (s.aod.cls = 2 → classCStands s = false) ∧
     s.guard.heartbeat = true ∧ s.mode.core = true ∧ s.mode.dev ≠ 0) ∧
   (∀ (s : State) (path : PathId), (releaseLatch s path).aod.latch = false ∧ (releaseLatch s path).aod.sources = 0 ∧
     (releaseLatch s path).aod.halt = false ∧ (releaseLatch s path).aod.cls = 0) ∧
   (∀ s : State, s.aod.latch = true →
     ((s.rt 4).bit 0xF0008 30 = true → s.aod.sources = 1 → ilkHeld s = true → s.guard.disc = false → exec .quenchAutoRelease s = .next (releaseLatch s .internal)) ∧
     ((s.rt 4).bit 0xF0008 29 = true → s.aod.sources = 128 → qnHeld s = true → exec .quenchAutoRelease s = .next (releaseLatch s .internal)) ∧
     (s.aod.sources = 1 → ilkHeld s = false ∨ s.guard.disc = true ∨ (s.rt 4).bit 0xF0008 30 = false → exec .quenchAutoRelease s = .next s) ∧
     (s.aod.sources = 128 → qnHeld s = false ∨ (s.rt 4).bit 0xF0008 29 = false → exec .quenchAutoRelease s = .next s) ∧
     (s.aod.sources ≠ 1 → s.aod.sources ≠ 128 → exec .quenchAutoRelease s = .next s)) ∧
   (∀ s : State, s.aod.latch = false → exec .quenchAutoRelease s = .next s) ∧
   (∀ s : State, (ilkHeld s = true ↔ ilkSafe s = true ∧ ∃ t, s.guard.safeSince = some t ∧ t + holdMs (s.rt 4) * 400000 ≤ s.tb.tick) ∧
     (qnHeld s = true ↔ s.guard.qnLow = false ∧ ∃ t, s.guard.qnHighSince = some t ∧ t + holdMs (s.rt 4) * 400000 ≤ s.tb.tick)))

/-- R429 to R431, R443: a delivered message is judged in the order of the rule; one that passes puts its key into the
store and changes nothing else of the Crucible; DISCARD removes every key of a KEY_ID, PURGE every expired one; a
closed or suspended Crucible answers 7 and keeps its keys. R420, R441, R442: a healthy reseed gives a new seed; a
failed health test stops the generator with CRUC_RNG_FAIL until the next Dawn; a monitor is answered by its response
with CRUC_TAMPER and a record: 0 and 1 leave no key and no session, 1 and 2 close the Crucible, 3 and 4 suspend it
with its keys; a suspended one resumes once its range conditions have held for 1 ms. -/
def Obligations.KeysAndTheirProtection : Prop :=
  ((∀ (s t : State) (path : PathId) (k : Kdm) (r : Nat), serves s path = true → hasRole s path 8 = true → k = readKdm s.act → judgeKdm s k = (r, t) →
     ∃ u : State, u = raiseP (t.modCruc fun c => { c with kdmBusy := false, kdmResult := r, kdmKey := k.slot.keyId }) (if r = 0 then 0x1003 else 0x1004)
       (k.slot.keyId + r * 2 ^ 16) path ∧
     exec (.kdmSubmit path) s = .next (journalKind u 3 path (leBytes 2 k.slot.keyId ++ leBytes 2 k.slot.target ++ leBytes 1 k.slot.issuer ++
       leBytes 1 r ++ leBytes 2 0 ++ leBytes 8 k.slot.notBefore ++ leBytes 8 k.slot.notAfter) 0)) ∧
   (∀ (s t : State) (k : Kdm) (r : Nat), judgeKdm s k = (r, t) →
     t = { s with cruc := { s.cruc with keys := t.cruc.keys } } ∧ (r ≠ 0 → t = s) ∧ (s.cruc.st ≠ 0 → r = 7) ∧
     (s.cruc.st = 0 → k.formOk = false → r = 1) ∧ (s.cruc.st = 0 → k.formOk = true → (beAt k.bytes 4 16 ≠ s.fuse.devId → r = 2) ∧
       (beAt k.bytes 4 16 = s.fuse.devId → (nth s.mgmt.issuers k.slot.issuer none = none → r = 3) ∧
         ∀ pub, nth s.mgmt.issuers k.slot.issuer none = some pub →
           (Config.ecdsaVerify pub (k.bytes.drop 200) (k.bytes.take 200) = false → r = 4) ∧
           (Config.ecdsaVerify pub (k.bytes.drop 200) (k.bytes.take 200) = true →
             (Config.aesUnwrap (kdmKek s k) ((k.bytes.drop 160).take 40) = none → r = 5) ∧
             ∀ key, Config.aesUnwrap (kdmKek s k) ((k.bytes.drop 160).take 40) = some key →
               (storeKey s { k.slot with key := key } = none → r = 6) ∧
               ∀ v, storeKey s { k.slot with key := key } = some v → r = 0 ∧ t = v))) ∧
     (r = 0 → s.cruc.st = 0 ∧ k.formOk = true ∧ beAt k.bytes 4 16 = s.fuse.devId ∧ ∃ pub key, nth s.mgmt.issuers k.slot.issuer none = some pub ∧
       Config.ecdsaVerify pub (k.bytes.drop 200) (k.bytes.take 200) = true ∧
       Config.aesUnwrap (kdmKek s k) ((k.bytes.drop 160).take 40) = some key ∧ some { k.slot with key := key } ∈ t.cruc.keys)) ∧
   (∀ (s : State) (path : PathId) (id : Nat), serves s path = true → hasRole s path 8 = true → s.cruc.st = 0 → ∃ l : List (Option KeySlot),
     exec (.kdmDiscard path id) s = .next { s with cruc := { s.cruc with keys := l, kdmBusy := false, kdmResult := 0, kdmKey := id % 2 ^ 16 } } ∧
     l.length = s.cruc.keys.length ∧ ∀ (i : Nat) (x : KeySlot), l[i]? = some (some x) ↔ s.cruc.keys[i]? = some (some x) ∧ x.keyId ≠ id % 2 ^ 16) ∧
   (∀ (s : State) (path : PathId), serves s path = true → hasRole s path 8 = true → s.cruc.st = 0 → ∃ l : List (Option KeySlot),
     exec (.kdmPurge path) s = .next { s with cruc := { s.cruc with keys := l, kdmBusy := false, kdmResult := 0 } } ∧
     l.length = s.cruc.keys.length ∧ ∀ (i : Nat) (x : KeySlot), l[i]? = some (some x) ↔ s.cruc.keys[i]? = some (some x) ∧ expired s x = false) ∧
   (∀ (s : State) (path : PathId), serves s path = true → hasRole s path 8 = true → s.cruc.st ≠ 0 →
     exec (.kdmPurge path) s = .next (s.modCruc fun c => { c with kdmBusy := false, kdmResult := 7 }) ∧
     ∀ id, exec (.kdmDiscard path id) s = .next (s.modCruc fun c => { c with kdmBusy := false, kdmResult := 7, kdmKey := id % 2 ^ 16 })) ∧
   (∀ (s : State) (path : PathId) (v : Word), serves s path = true → hasRole s path 2 = true → ∃ u : State,
     u = { s with ladle := { s.ladle with act := s.ladle.act.set 0x100040 (cleared [] 0x100040 v), stg := s.ladle.stg.set 0x100040 (cleared [] 0x100040 v) } } ∧
     exec (.sealHostBind path v) s = .next (if (s.surfAt (nbits v.toNat 11 0)).prot then
       u.modSurfAt (nbits v.toNat 11 0) (fun x => { x with key := nbits v.toNat 31 16 }) else u))) ∧
  ((∀ s : State, s.cruc.rngFail = false →
     exec (.drbgReseed true) s = .next (if 2 ^ 20 ≤ s.cruc.drbgRequests then s.modCruc fun c => { c with drbgRequests := 0, drbgSeed := c.drbgSeed + 1 } else s) ∧
     exec (.drbgReseed false) s = .next (raise (s.modCruc fun c => { c with rngFail := true }) 0x1009 0)) ∧
   (∀ (s : State) (b : Bool), s.cruc.rngFail = true → exec (.drbgReseed b) s = .next s) ∧
   (∀ (s : State) (m : Fin 5), ∃ u : State, exec (.crucMonitorTrip m) s = .next (journalKind (raise u 0x1008 (m * 2 ^ 16)) 0x0B .internal
       (leBytes 1 m ++ leBytes 1 (monitorResponse m)) 1) ∧
     u.cruc.tamperCount = satAdd 0xFFFF s.cruc.tamperCount 1 ∧ u.cruc.tamperLast = 2 ^ (m : Nat) ∧
     ((m : Nat) ≤ 1 → (∀ k ∈ u.cruc.keys, k = none) ∧ u.cruc.shake = none ∧ (s.cruc.sessions.length = 4 → ∀ x ∈ u.cruc.sessions, x = none)) ∧
     ((m : Nat) = 1 ∨ (m : Nat) = 2 → u.cruc.closed = true ∧ u.cruc.st = 2) ∧
     (2 ≤ (m : Nat) → u.cruc.keys = s.cruc.keys ∧ u.cruc.sessions = s.cruc.sessions) ∧
     (3 ≤ (m : Nat) → u.cruc.st = (if s.cruc.st = 2 then 2 else 1) ∧ u.cruc.rangeSince = some s.tb.tick)) ∧
   (∀ (s : State) (t : Nat), s.cruc.st = 1 → s.cruc.rangeSince = some t →
     (t + 400000 ≤ s.tb.tick → exec .crucResume s = .next (s.modCruc fun c => { c with st := 0, rangeSince := none })) ∧
     (s.tb.tick < t + 400000 → exec .crucResume s = .next s)) ∧
   (∀ s : State, s.cruc.st ≠ 1 → exec .crucResume s = .next s))

/-- R439, R440: a HELLO of a known operator is answered by CHALLENGE and opens a handshake, never a session; FINISH with a
valid signature of the operator opens the first free session and raises SESSION_OPEN; a bad one, or none within 1 s,
is a failure. What the random bytes are is open (assumption 7). R440, R463, R464: a message is taken only under its
session's key and with a number above the last; its commands are then run; a repeated one is dropped; RESEND repeats
the stored response of the last request; CLOSE and the limits of time and number close the session, whose keys go. -/
def Obligations.Sessions : Prop :=
  ((∀ (s : State) (path : PathId) (peer port : Nat) (l : List Byte), carries s path = true → s.cruc.st = 0 → s.cruc.rngFail = false →
     s.cruc.helloFrom ≤ s.tb.tick → (∃ x ∈ s.cruc.sessions, x = none) →
     (l.length ≠ 130 ∨ l.getD 0 0 ≠ 4 ∨ operatorKey s (beAt l 129 1) = none →
       exec (.sessionHello path peer port l) s = .next (shakeFail s path (beAt l 129 1) peer port 2)) ∧
     (l.length = 130 → l.getD 0 0 = 4 → operatorKey s (beAt l 129 1) ≠ none → ∃ (v u : State) (c : List Byte) (h : Handshake),
       (s.cruc.shake = none → v = s) ∧ (∀ g, s.cruc.shake = some g → v = shakeFail s g.carrier g.op g.peer g.port 4) ∧
       exec (.sessionHello path peer port l) s = .next (sendMessage u path (sessionMessage 0x02 0xFF 0 c)) ∧
       u = { v with free := v.free + 2, cruc := { v.cruc with shake := some h, drbgRequests := v.cruc.drbgRequests + 2 } } ∧
       h.challenge = c ∧ h.op = beAt l 129 1 ∧ h.hello = l ∧ h.at_ = s.tb.tick ∧ h.carrier = path ∧ h.peer = peer ∧ h.port = port)) ∧
   (∀ (s : State) (path : PathId) (peer port : Nat) (l : List Byte), carries s path = true →
     s.cruc.st ≠ 0 ∨ s.cruc.rngFail = true ∨ s.tb.tick < s.cruc.helloFrom ∨ (∀ x ∈ s.cruc.sessions, x ≠ none) →
     exec (.sessionHello path peer port l) s = .next (sessionFail s path (beAt l 129 1) peer port 1)) ∧
   (∀ (s : State) (path : PathId) (l pub : List Byte) (h : Handshake) (k : Nat), carries s path = true → s.cruc.shake = some h → h.carrier = path →
     s.tb.tick ≤ h.at_ + 400000000 → s.cruc.sessions.findIdx? Option.isNone = some k → operatorKey s h.op = some pub →
     (s.cruc.st = 0 → l.length = 96 → Config.ecdsaVerify pub l (h.hello ++ h.challenge) = true → ∃ (x : Session) (u : State),
       exec (.sessionFinish path l) s = .next (journalKind (raiseP u 0x1006 k path) 4 path
         (leBytes 1 h.op ++ leBytes 3 0 ++ leBytes 4 h.peer ++ leBytes 2 h.port) 0) ∧
       nth u.cruc.sessions k none = some x ∧ u.cruc.shake = none ∧ x.op = h.op ∧ x.kHD = h.kHD ∧ x.kDH = h.kDH ∧ x.rx = 0 ∧ x.tx = 1 ∧ x.carrier = path) ∧
     (s.cruc.st ≠ 0 ∨ l.length ≠ 96 ∨ Config.ecdsaVerify pub l (h.hello ++ h.challenge) = false →
       exec (.sessionFinish path l) s = .next (shakeFail s path h.op h.peer h.port 3))) ∧
   (∀ (s : State) (path : PathId) (l : List Byte) (h : Handshake), carries s path = true → s.cruc.shake = some h →
     (h.carrier ≠ path → exec (.sessionFinish path l) s = .next s) ∧
     (h.carrier = path → h.at_ + 400000000 < s.tb.tick → exec (.sessionFinish path l) s = .next (shakeFail s path h.op h.peer h.port 4)) ∧
     (h.carrier = path → s.tb.tick ≤ h.at_ + 400000000 → s.cruc.sessions.findIdx? Option.isNone = none ∨ operatorKey s h.op = none →
       exec (.sessionFinish path l) s = .next (shakeFail s path h.op h.peer h.port 1))) ∧
   (∀ (s : State) (path : PathId) (peer port : Nat) (l : List Byte), carries s path = false →
     exec (.sessionHello path peer port l) s = .next s ∧ exec (.sessionFinish path l) s = .next s) ∧
   (∀ (s : State) (path : PathId) (l : List Byte), s.cruc.shake = none → exec (.sessionFinish path l) s = .next s ∧ exec .sessionStepTimeout s = .next s) ∧
   (∀ (s : State) (h : Handshake), s.cruc.shake = some h →
     (h.at_ + 400000000 ≤ s.tb.tick → exec .sessionStepTimeout s = .next (shakeFail s h.carrier h.op h.peer h.port 4)) ∧
     (s.tb.tick < h.at_ + 400000000 → exec .sessionStepTimeout s = .next s)) ∧
   (∀ (s : State) (path : PathId) (op peer port cause : Nat), ∃ u : State, shakeFail s path op peer port cause = sessionFail u path op peer port cause ∧
     u = { s with cruc := { s.cruc with shake := none, shakeFails := u.cruc.shakeFails, helloFrom := u.cruc.helloFrom } } ∧
     (7 ≤ (s.cruc.shakeFails.filter fun t => decide (s.tb.tick < t + minute)).length → u.cruc.helloFrom = s.tb.tick + minute) ∧
     ((s.cruc.shakeFails.filter fun t => decide (s.tb.tick < t + minute)).length < 7 → u.cruc.helloFrom = s.cruc.helloFrom))) ∧
  ((∀ (s : State) (k : Fin 4) (seq : Nat) (body mac : List Byte) (x : Session), nth s.cruc.sessions k none = some x → carries s x.carrier = true →
     s.cruc.st = 0 → mac = Config.hmac256 x.kHD (macInput k seq body) → x.rx < seq → seq < 2 ^ 64 → ∃ u : State,
       u = s.modCruc (fun c => { c with sessions := listSet c.sessions k (some { x with rx := seq, last := s.tb.tick }) }) ∧
       exec (.sessionRequest k seq body mac) s = .next (startBody u (.eth k) (some ((k : Nat), seq)) body) ∧
       (x.lastResp ≠ [] → beNat (body.take 8) = x.lastReq → exec (.sessionResend k seq body mac) s = .next (sendMessage u x.carrier x.lastResp)) ∧
       (x.lastResp = [] ∨ beNat (body.take 8) ≠ x.lastReq → ∃ (l : List Byte) (v : State), v = sendMessage s x.carrier l ∧
         l = sessionMessage 0x11 k (x.tx + 1) (beBytes 8 seq) ++ Config.hmac256 x.kDH (macInput k (x.tx + 1) (beBytes 8 seq)) ∧
         exec (.sessionResend k seq body mac) s = .next (v.modCruc fun c => { c with
           sessions := listSet c.sessions k (some { x with rx := seq, last := s.tb.tick, tx := x.tx + 1 }) })) ∧
       (body = [] → exec (.sessionClose k seq mac) s = .next (closeSession s k 0))) ∧
   (∀ (s : State) (k : Fin 4) (seq : Nat) (body mac : List Byte) (x : Session), nth s.cruc.sessions k none = some x → carries s x.carrier = true →
     s.cruc.st = 0 → seq ≤ x.rx ∨ 2 ^ 64 ≤ seq → mac = Config.hmac256 x.kHD (macInput k seq body) → exec (.sessionRequest k seq body mac) s = .next s ∧
     exec (.sessionResend k seq body mac) s = .next s ∧ (body = [] → exec (.sessionClose k seq mac) s = .next s)) ∧
   (∀ (s : State) (k : Fin 4) (seq : Nat) (body mac : List Byte) (x : Session), nth s.cruc.sessions k none = some x → carries s x.carrier = true →
     s.cruc.st = 0 → mac ≠ Config.hmac256 x.kHD (macInput k seq body) →
     exec (.sessionRequest k seq body mac) s = .next (sessionFail s x.carrier x.op x.peer x.port 5) ∧
     exec (.sessionResend k seq body mac) s = .next (sessionFail s x.carrier x.op x.peer x.port 5) ∧
     (body = [] → exec (.sessionClose k seq mac) s = .next (sessionFail s x.carrier x.op x.peer x.port 5))) ∧
   (∀ (s : State) (k : Fin 4) (x : Session), nth s.cruc.sessions k none = some x →
     (2 ^ 32 ≤ x.rx ∨ 2 ^ 32 ≤ x.tx → exec (.sessionTimeout k) s = .next (closeSession s k 3)) ∧
     (x.rx < 2 ^ 32 → x.tx < 2 ^ 32 → x.opened + 1440 * minute ≤ s.tb.tick → exec (.sessionTimeout k) s = .next (closeSession s k 2)) ∧
     (x.rx < 2 ^ 32 → x.tx < 2 ^ 32 → s.tb.tick < x.opened + 1440 * minute → x.last + minute ≤ s.tb.tick →
       exec (.sessionTimeout k) s = .next (closeSession s k 1)) ∧
     (x.rx < 2 ^ 32 → x.tx < 2 ^ 32 → s.tb.tick < x.opened + 1440 * minute → s.tb.tick < x.last + minute → exec (.sessionTimeout k) s = .next s)) ∧
   (∀ (s : State) (k : Fin 4) (seq : Nat) (body mac : List Byte), nth s.cruc.sessions k none = none → exec (.sessionTimeout k) s = .next s ∧
     exec (.sessionRequest k seq body mac) s = .next s ∧ exec (.sessionResend k seq body mac) s = .next s ∧ exec (.sessionClose k seq mac) s = .next s) ∧
   (∀ (s : State) (k cause : Nat) (x : Session), nth s.cruc.sessions k none = some x → ∃ u : State,
     u = s.modCruc (fun c => { c with sessions := listSet c.sessions k none }) ∧ closeSession s k cause = journalKind u 4 x.carrier
       (leBytes 1 x.op ++ leBytes 1 1 ++ leBytes 1 cause ++ leBytes 1 0 ++ leBytes 4 x.peer ++ leBytes 2 x.port) 0 ∧
     (k < s.cruc.sessions.length → nth u.cruc.sessions k none = none)))

/-- R65, R290, R420, R474, R477: valid supplies release the core, whose checks start TICK at 0 or fail the Dawn with
causes 1 and 2; no supplies within 1 s is cause 7; the lanes' end fails it with causes 3 to 6 or applies the selected
copy, the flash having started in the fastest mode and with the smallest erase type of 4 KB or more that it declares.
R474, R475: Dawn ends once its Pour has committed. The sources that remain are those among SOURCES whose condition
still stands; with none the latch is released and the device is in STANDBY, otherwise it enters QUENCH with them. -/
def Obligations.DawnRunsAndEnds : Prop :=
  ((∀ s : State, s.mode.dev = 0 → s.mode.dawnStep = 1 → s.mode.fail = 0 → s.mode.core = false → ∃ u : State,
     u = s.modMode (fun x => { x with rails := List.replicate 6 true, core := true, dawnStep := 2 }) ∧
     exec (.dawnSuppliesValid true true) s = .next { u with
       cruc := { s.cruc with drbgSeed := s.cruc.drbgSeed + 1, drbgRequests := 0 }, tb := { s.tb with running := true, tick := 0 }
       mode := { u.mode with dawnStep := 4 } } ∧
     (∀ b, exec (.dawnSuppliesValid false b) s = .next (dawnFail u 1)) ∧
     exec (.dawnSuppliesValid true false) s = .next (dawnFail (raise (u.modCruc fun c => { c with rngFail := true }) 0x1009 0) 2) ∧
     exec .dawnSupplyTimeout s = .next (supplyFail s)) ∧
   (∀ (s : State) (ok : Bool) (x : Sfdp) (p : Fin 16) (l : List (Option (List Byte))), s.mode.dev = 0 → s.mode.core = true → s.mode.dawnStep = 4 → s.mode.fail = 0 →
     (startFlash (flashRead ok x) = none → exec (.dawnLanesDone ok x p l) s = .next (dawnFail (trainAll (readBoards s l) p) 3)) ∧
     ∀ fm pg un, startFlash (flashRead ok x) = some (fm, pg, un) → ∃ u : State,
       u = trainAll (readBoards (s.modJrn fun j => { j with flashMode := fm, flashPage := pg, eraseUnit := un }) l) p ∧
       ((∀ a ∈ s.fuse.anchors, a = none) → exec (.dawnLanesDone ok x p l) s = .next (dawnFail u 4)) ∧
       ((∃ a ∈ s.fuse.anchors, a ≠ none) → ((selectCopy u).2 = none → exec (.dawnLanesDone ok x p l) s = .next (dawnFail (selectCopy u).1 5)) ∧
         (∀ c, (selectCopy u).2 = some c → (p : Nat) = 0 → exec (.dawnLanesDone ok x p l) s = .next (dawnFail (selectCopy u).1 6)) ∧
         (∀ c, (selectCopy u).2 = some c → (p : Nat) ≠ 0 → exec (.dawnLanesDone ok x p l) s = .next (dawnCopy (selectCopy u).1 c)))) ∧
   (∀ (s : State) (ok : Bool) (x : Sfdp) (p : Fin 16) (l : List (Option (List Byte))), s.mode.dev ≠ 0 ∨ s.mode.core = false ∨ s.mode.dawnStep ≠ 4 ∨ s.mode.fail ≠ 0 →
     exec (.dawnLanesDone ok x p l) s = .next s) ∧
   (startFlash none = none ∧ ∀ x : Sfdp, x.density < 2 ^ 26 ∨ 2 ^ 30 < x.density ∨ (∀ e ∈ x.erases, e < 4096) → startFlash (some x) = none) ∧
   (∀ (x : Sfdp) (fm pg un : Nat), startFlash (some x) = some (fm, pg, un) → fm = flashModeOf x.modes ∧ pg = x.page ∧
     un ∈ x.erases ∧ 4096 ≤ un ∧ ∀ e ∈ x.erases, 4096 ≤ e → un ≤ e) ∧
   (∀ s : State, s.mode.dev ≠ 0 ∨ s.mode.dawnStep ≠ 1 ∨ s.mode.fail ≠ 0 ∨ s.mode.core = true →
     exec .dawnSupplyTimeout s = .next s ∧ ∀ a b, exec (.dawnSuppliesValid a b) s = .next s) ∧
   (∀ (s : State) (c : Nat), (dawnFail s c).mode = { s.mode with fail := c } ∧ (dawnFail s c).aod.latch = s.aod.latch ∧
     (dawnFail s c).mgmt.spiRoles = 0x081 ∧ (dawnFail s c).mgmt.bar0Roles = 0x081)) ∧
  ((∀ s : State, s.mode.dev = 0 → s.mode.fail = 0 → s.mode.dawnStep = 10 → s.ladle.pending = none → exec .dawnDone s = .next (finishDawn s)) ∧
   (∀ s : State, s.mode.dev ≠ 0 ∨ s.mode.fail ≠ 0 ∨ s.mode.dawnStep ≠ 10 ∨ s.ladle.pending ≠ none → exec .dawnDone s = .next s) ∧
   (∀ (s : State) (k : Nat), k < 12 → (hasSource (dawnSources s) k = true ↔ hasSource s k = true ∧ sourceStands s k = true)) ∧
   (∀ s : State, hasSource (dawnSources s) 11 = false ∧ (dawnSources s).aod.latch = s.aod.latch) ∧
   (∀ s : State, s.mode.dev = 0 → s.aod.sources ≠ 0 → (dawnLatch s).mode.dev = 6 ∧ (dawnLatch s).aod.latch = s.aod.latch ∧
     (dawnLatch s).aod.sources = s.aod.sources) ∧
   (∀ s : State, s.mode.dev = 0 → s.aod.sources = 0 → (dawnLatch s).mode.dev = 1 ∧ (dawnLatch s).aod.latch = false))

/-- R478, R480, R482 to R484, R494: SHOW asks for each output named: it is accepted when no condition fails and refused
with the first that does, and held for 1 s when Dawn or a release asks and only the link fails; STANDBY abandons an
entry, is refused in DUSK, in another transition or in ANNEAL, and starts an exit otherwise; an entry that takes 2 s
is abandoned with ENTRY_TIMEOUT; a held request is given up after 1 s. R479, R488 to R490: DUSK starts a Dusk with
cause 0 and RESTART one with cause 1 that Dawn follows; PWRFAIL_N's fall starts the supply-failure Dusk with PWRFAIL,
which takes over another that runs; a Dusk starts once, and one whose window has not opened within 10 s goes on
without its records. -/
def Obligations.ModesAndDusk : Prop :=
  ((∀ (s : State) (path : PathId) (outs : Fin 16), serves s path = true →
     (hasRole s path 9 = true →
       exec (.modeCmdShow path outs) s = .next ((namedOutputs outs).foldl (fun t o => requestShow t o false path) s) ∧
       exec (.modeCmdStandby path outs) s = .next ((namedOutputs outs).foldl (fun t o => standbyOne t o path) s)) ∧
     (hasRole s path 9 = false →
       exec (.modeCmdShow path outs) s = .next (refuseRole s path 9 0x14) ∧ exec (.modeCmdStandby path outs) s = .next (refuseRole s path 9 0x14))) ∧
   (∀ (s : State) (o : Nat) (path : PathId),
     (showFails s o = [] → ∀ auto, requestShow s o auto path = acceptShow s o) ∧
     (showFails s o = [5] → requestShow s o false path = raiseP s 0x0004 (o + 5 * 2 ^ 8) path ∧
       requestShow s o true path = s.modOut o fun x => { x with held := some s.tb.tick, heldAuto := true }) ∧
     (∀ c l auto, showFails s o = c :: l → c :: l ≠ [5] →
       requestShow s o auto path = raiseP (s.modOut o fun x => { x with held := none }) 0x0004 (o + c * 2 ^ 8) path) ∧
     (s.mode.dev = 7 → standbyOne s o path = raiseP s 0x0004 (o + 1 * 2 ^ 8) path) ∧
     (s.mode.dev ≠ 7 →
       ((s.outAt o).entry.isSome = true ∨ ((s.outAt o).trans = false ∧ (s.outAt o).mode ≠ 5) → standbyOne s o path = startExit s o 0) ∧
       ((s.outAt o).entry = none → (s.outAt o).trans = true → standbyOne s o path = raiseP s 0x0004 (o + 2 * 2 ^ 8) path) ∧
       ((s.outAt o).entry = none → (s.outAt o).trans = false → (s.outAt o).mode = 5 → standbyOne s o path = raiseP s 0x0004 (o + 7 * 2 ^ 8) path))) ∧
   (∀ (s : State) (o : Nat), showFails s o = [] → s.mode.dev = 1 ∧ (s.outAt o).mode = 1 ∧ (s.outAt o).trans = false ∧
     (nth s.guard.zones o {}).resident = true ∧ seqResident s.act o (seqProg s.act o) = true ∧ fsSize s.act o ≠ 0 ∧
     (isScan s.act o = false → (s.portAt o).link = 5 ∧ (s.portAt o).accepted = true)) ∧
   (∀ (s : State) (o : Fin 4) (t : Nat), (s.outAt o).entry = some t →
     (t + 800000000 ≤ s.tb.tick → exec (.entryTimeout o) s = .next (startExit (raise s 0x0008 o) o 0)) ∧
     (s.tb.tick < t + 800000000 → exec (.entryTimeout o) s = .next s)) ∧
   (∀ (s : State) (o : Fin 4), (s.outAt o).entry = none → exec (.entryTimeout o) s = .next s) ∧
   (∀ (s : State) (o : Fin 4) (t : Nat), (s.outAt o).held = some t →
     (t + 400000000 ≤ s.tb.tick → exec (.heldRequestTimeout o) s =
       .next (raise (s.modOut o fun x => { x with held := none, heldAuto := false }) 0x0004 (o + 5 * 2 ^ 8))) ∧
     (s.tb.tick < t + 400000000 → exec (.heldRequestTimeout o) s = .next s)) ∧
   (∀ (s : State) (o : Fin 4), (s.outAt o).held = none → exec (.heldRequestTimeout o) s = .next s) ∧
   (∀ (s : State) (o auto : Nat), o < s.mode.outs.length → (s.outAt o).exit = .none_ → (s.outAt o).mode ≠ 1 → (s.tgAt o).running = true → o < s.tg.length →
     ((startExit s o auto).outAt o).trans = true ∧ ((startExit s o auto).outAt o).exit = .rampNext ∧ ((startExit s o auto).outAt o).entry = none ∧
     ((startExit s o auto).outAt o).mode = (s.outAt o).mode)) ∧
  ((∀ (s : State) (path : PathId), serves s path = true → hasRole s path 9 = true → exec (.modeCmdDusk path) s = .next (startDusk s 0 false) ∧
     (s.mode.dev ≠ 7 → s.mode.dev ≠ 0 → exec (.modeCmdRestart path) s = .next (startDusk s 1 true))) ∧
   (∀ (s : State) (path : PathId), serves s path = true → hasRole s path 9 = false → exec (.modeCmdDusk path) s = .next (refuseRole s path 9 0x14)) ∧
   (∀ (s : State) (c : Nat) (d : Bool), s.mode.dev = 7 → startDusk s c d = s) ∧
   (∀ (s : State) (c : Nat) (d : Bool), s.mode.dev ≠ 7 → ∃ u v : State, u = (setDevice (raise s 0x0005 (c * 2 ^ 8)) 7).modMode (fun x =>
       { x with duskStep := 1, duskCause := c, dawnFollows := d }) ∧
     v = outputs.foldl (fun s o => startExit (endPattern s o) o 0) ((duskStep1 u).modMode fun x => { x with duskStep := 2 }) ∧ startDusk s c d = duskAdvance v) ∧
   (∀ s : State, s.mode.dev ≠ 7 ∨ (s.mode.duskStep ≠ 6 ∧ s.mode.duskCause ≠ 2) →
     exec .pwrfailNFall s = .next (failDusk (raise (s.modMode fun x => { x with pwrfail := true }) 0x0007 0))) ∧
   (∀ s : State, s.mode.dev = 7 → s.mode.duskStep = 6 ∨ s.mode.duskCause = 2 →
     exec .pwrfailNFall s = .next (raise (s.modMode fun x => { x with pwrfail := true }) 0x0007 0)) ∧
   (∀ s : State, s.mode.dev = 7 → s.mode.duskStep = 4 → s.therm.flashOpen = false → s.mode.duskAt + 4000000000 ≤ s.tb.tick →
     exec .duskFlashTimeout s = .next (s.modMode fun x => { x with duskStep := 5 })) ∧
   (∀ s : State, s.mode.dev ≠ 7 ∨ s.mode.duskStep ≠ 4 ∨ s.therm.flashOpen = true ∨ s.tb.tick < s.mode.duskAt + 4000000000 →
     exec .duskFlashTimeout s = .next s) ∧
   (∀ s : State, s.mode.dev = 7 → s.mode.duskStep = 5 → s.hbm.training = false → ∃ u v : State,
     u = { s with hbm := u.hbm } ∧ u.hbm.st = 4 ∧ u.hbm.mem = s.hbm.mem ∧ u.hbm.srDusk = true ∧
     v = (raise u 0x0006 0).modMode (fun x => { x with duskStep := 6 }) ∧
     exec .duskDone s = .next (if s.mode.dawnFollows then warmReset v 3 else v)) ∧
   (∀ s : State, s.mode.dev ≠ 7 ∨ s.mode.duskStep ≠ 5 ∨ s.hbm.training = true → exec .duskDone s = .next s) ∧
   (∀ (s : State) (path : PathId), s.mode.core = true → s.mode.dev = 7 → path = .spi ∨ path = .bar0 → hasRole s path 9 = true →
     exec (.modeCmdRestart path) s = .next (if s.mode.duskStep = 6 then warmReset s 3 else s.modMode fun x => { x with dawnFollows := true })))
end

