-- ==== Sys2Proof/Laws/Sparse.lean ====
section
/-! SUPPORT. Sparse memories: reading after writing, and the canonical form that every operation keeps. -/
namespace Sys2Proof.Machine

variable {α : Type} [DecidableEq α] (d : Nat → α)

/-- The bound below which no address of a canonical tail lies may be lowered. -/
theorem Sparse.okAbove_mono (m : List (Nat × α)) (a b : Nat) (h : a ≤ b) (ok : Sparse.okAbove d (some b) m = true) :
    Sparse.okAbove d (some a) m = true := by
  cases m with
  | nil => rfl
  | cons e r =>
    simp only [Sparse.okAbove, Bool.and_eq_true, decide_eq_true_eq] at ok ⊢
    exact ⟨⟨by omega, ok.1.2⟩, ok.2⟩

theorem Sparse.okAbove_none (m : List (Nat × α)) (b : Option Nat) (ok : Sparse.okAbove d b m = true) :
    Sparse.okAbove d none m = true := by
  cases m with
  | nil => rfl
  | cons e r =>
    simp only [Sparse.okAbove, Bool.and_eq_true, Bool.true_and, decide_eq_true_eq] at ok ⊢
    exact ⟨ok.1.2, ok.2⟩

/-- Inserting a value that is not the default keeps the canonical form above a bound. -/
theorem Sparse.okAbove_put (m : List (Nat × α)) (k : Nat) (v : α) (b : Option Nat) (hb : ∀ l, b = some l → l < k) (hv : v ≠ d k)
    (ok : Sparse.okAbove d b m = true) : Sparse.okAbove d b (Sparse.put m k v) = true := by
  induction m generalizing b with
  | nil => cases b <;> simp_all [Sparse.put, Sparse.okAbove]
  | cons e r ih =>
    obtain ⟨a, w⟩ := e
    simp only [Sparse.okAbove, Bool.and_eq_true, decide_eq_true_eq] at ok
    simp only [Sparse.put]
    split
    · simp only [Sparse.okAbove, Bool.and_eq_true, decide_eq_true_eq]
      refine ⟨⟨?_, hv⟩, ⟨‹k < a›, ok.1.2⟩, ok.2⟩
      cases b <;> simp_all
    · split
      · subst k
        simp only [Sparse.okAbove, Bool.and_eq_true, decide_eq_true_eq]
        exact ⟨⟨ok.1.1, hv⟩, ok.2⟩
      · simp only [Sparse.okAbove, Bool.and_eq_true, decide_eq_true_eq]
        exact ⟨ok.1, ih _ (by intro l hl; injection hl with hl; omega) ok.2⟩

/-- Removing an entry keeps the canonical form above a bound. -/
theorem Sparse.okAbove_drop (m : List (Nat × α)) (k : Nat) (b : Option Nat) (ok : Sparse.okAbove d b m = true) :
    Sparse.okAbove d b (Sparse.drop m k) = true := by
  induction m generalizing b with
  | nil => exact ok
  | cons e r ih =>
    obtain ⟨a, w⟩ := e
    simp only [Sparse.okAbove, Bool.and_eq_true, decide_eq_true_eq] at ok
    simp only [Sparse.drop]
    split
    · cases b with
      | none => exact okAbove_none d r _ ok.2
      | some l =>
        have hl : l < a := by simpa using ok.1.1
        exact okAbove_mono d r l a (by omega) ok.2
    · simp only [Sparse.okAbove, Bool.and_eq_true, decide_eq_true_eq]
      exact ⟨ok.1, ih _ ok.2⟩

/-- Filtering a canonical memory leaves a canonical one. -/
theorem Sparse.okAbove_filter (p : Nat × α → Bool) (m : List (Nat × α)) (b : Option Nat) (ok : Sparse.okAbove d b m = true) :
    Sparse.okAbove d b (m.filter p) = true := by
  induction m generalizing b with
  | nil => exact ok
  | cons e r ih =>
    obtain ⟨a, w⟩ := e
    simp only [Sparse.okAbove, Bool.and_eq_true, decide_eq_true_eq] at ok
    rw [List.filter_cons]
    split
    · simp only [Sparse.okAbove, Bool.and_eq_true, decide_eq_true_eq]
      exact ⟨ok.1, ih _ ok.2⟩
    · cases b with
      | none => exact okAbove_none d _ _ (ih _ ok.2)
      | some l =>
        have hl : l < a := by simpa using ok.1.1
        exact okAbove_mono d _ l a (by omega) (ih _ ok.2)

/-- A write keeps the canonical form. -/
theorem Sparse.wf_set (m : List (Nat × α)) (k : Nat) (v : α) (ok : Sparse.wf d m = true) : Sparse.wf d (Sparse.set d m k v) = true := by
  unfold Sparse.set
  split
  · exact okAbove_drop d m k none ok
  · exact okAbove_put d m k v none (by intro l h; cases h) ‹_› ok

/-- A write of a list keeps the canonical form. -/
theorem Sparse.wf_setList (l : List α) (m : List (Nat × α)) (k stride : Nat) (ok : Sparse.wf d m = true) :
    Sparse.wf d (Sparse.setList d m k stride l) = true := by
  induction l generalizing m k with
  | nil => exact ok
  | cons v r ih => exact ih _ _ (wf_set d m k v ok)

/-- Clearing a range keeps the canonical form. -/
theorem Sparse.wf_clear (m : List (Nat × α)) (lo hi : Nat) (ok : Sparse.wf d m = true) : Sparse.wf d (Sparse.clear m lo hi) = true :=
  okAbove_filter d _ m none ok

theorem Memory.wf_store (d : Nat → Byte) (m : Memory) (a : Nat) (l : List Byte) (ok : Memory.wf d m = true) :
    Memory.wf d (Memory.store d m a l) = true := Sparse.wf_setList d l m a 1 ok

theorem Memory.wf_clear (d : Nat → Byte) (m : Memory) (lo hi : Nat) (ok : Memory.wf d m = true) :
    Memory.wf d (Sparse.clear m lo hi) = true := Sparse.wf_clear d m lo hi ok

/-- A fold of writes keeps the canonical form. -/
theorem Memory.wf_foldl {β : Type} (d : Nat → Byte) (g : Memory → β → Memory) (h : ∀ m b, Memory.wf d m = true → Memory.wf d (g m b) = true)
    (l : List β) (m : Memory) (ok : Memory.wf d m = true) : Memory.wf d (l.foldl g m) = true := by
  induction l generalizing m with
  | nil => exact ok
  | cons a r ih => exact ih _ (h _ _ ok)

/-! ### Reading -/

theorem Sparse.get_put (d : Nat → α) (m : List (Nat × α)) (k j : Nat) (v : α) (b : Option Nat) (ok : Sparse.okAbove d b m = true) :
    Sparse.get d (Sparse.put m k v) j = if j = k then v else Sparse.get d m j := by
  induction m generalizing b with
  | nil => simp only [Sparse.put, Sparse.get, eq_comm]
  | cons e r ih =>
    obtain ⟨a, w⟩ := e
    simp only [Sparse.okAbove, Bool.and_eq_true] at ok
    simp only [Sparse.put]
    split
    · simp only [Sparse.get]
      by_cases h : k = j
      · rw [if_pos h, if_pos h.symm]
      · rw [if_neg h, if_neg (Ne.symm h)]
    · split
      · subst k
        simp only [Sparse.get]
        by_cases h : a = j
        · rw [if_pos h, if_pos h.symm]
        · rw [if_neg h, if_neg (Ne.symm h), if_neg h]
      · simp only [Sparse.get, ih _ ok.2]
        split
        · rw [if_neg (by omega)]
        · rfl

/-- An address below every entry reads as the default. -/
theorem Sparse.get_below (d : Nat → α) (m : List (Nat × α)) (j l : Nat) (h : j ≤ l) (ok : Sparse.okAbove d (some l) m = true) :
    Sparse.get d m j = d j := by
  induction m generalizing l with
  | nil => rfl
  | cons e r ih =>
    obtain ⟨a, w⟩ := e
    simp only [Sparse.okAbove, Bool.and_eq_true, decide_eq_true_eq] at ok
    simp only [Sparse.get]
    rw [if_neg (by omega)]
    exact ih a (by omega) ok.2

theorem Sparse.get_drop (d : Nat → α) (m : List (Nat × α)) (k j : Nat) (b : Option Nat) (ok : Sparse.okAbove d b m = true) :
    Sparse.get d (Sparse.drop m k) j = if j = k then d k else Sparse.get d m j := by
  induction m generalizing b with
  | nil => simp only [Sparse.drop, Sparse.get]; split <;> simp_all
  | cons e r ih =>
    obtain ⟨a, w⟩ := e
    simp only [Sparse.okAbove, Bool.and_eq_true, decide_eq_true_eq] at ok
    simp only [Sparse.drop]
    split
    · subst k
      simp only [Sparse.get]
      split
      · subst j; exact get_below d r _ _ (le_refl _) ok.2
      · rw [if_neg (by omega)]
    · simp only [Sparse.get, ih _ ok.2]
      split
      · rw [if_neg (by omega)]
      · rfl

/-- Reading after a write: the value at the address written, what was there elsewhere. -/
theorem Sparse.get_set (d : Nat → α) (m : List (Nat × α)) (k j : Nat) (v : α) (ok : Sparse.wf d m = true) :
    Sparse.get d (Sparse.set d m k v) j = if j = k then v else Sparse.get d m j := by
  unfold Sparse.set
  split
  · rw [get_drop d m k j none ok]; split <;> simp_all
  · exact get_put d m k j v none ok

end Sys2Proof.Machine
end

