-- ==== Sys2Proof/Laws/Core.lean ====
section
/-! SUPPORT. The parts of the state that few operations touch: the fuses, the queue of commands, the memories, the number of
outputs, inputs and strings, and the frame counters. One lemma for each update of the state says that it keeps them. -/
namespace Sys2Proof.Machine

/-- What most operations leave as it was. -/
def State.core (s : State) : FuseState × List Instr × Memory × Memory × Memory × List Nat × List Nat :=
  (s.fuse, s.pending, s.flash, s.fs, s.hbm.mem, s.shape, s.tg.map fun t => t.counter)

/-- The canonical memories and the shape of a core. -/
def coreOk (c : FuseState × List Instr × Memory × Memory × Memory × List Nat × List Nat) : Prop :=
  Memory.wf flashDefault c.2.2.1 = true ∧ Memory.wf ramDefault c.2.2.2.1 = true ∧ Memory.wf ramDefault c.2.2.2.2.1 = true ∧
  c.2.2.2.2.2.1 = [4, 4, 4, 4, 4, 4, 8, 4, 24, 5]

/-- What every operation does to the core: fuses are only burnt, the queue stays, canonical memories and the shape stay so. -/
def Grows (c d : FuseState × List Instr × Memory × Memory × Memory × List Nat × List Nat) : Prop :=
  c.1.burntFrom d.1 ∧ d.2.1 = c.2.1 ∧ (coreOk c → coreOk d)

variable (s : State)

@[simp] theorem length_upd {α : Type} (l : List α) (i : Nat) (f : α → α) : (upd l i f).length = l.length := by simp [upd]
@[simp] theorem length_listSet {α : Type} (l : List α) (i : Nat) (v : α) : (listSet l i v).length = l.length := by simp [listSet]

theorem map_upd {α β : Type} (l : List α) (i : Nat) (f : α → α) (g : α → β) (h : ∀ x, g (f x) = g x) :
    (upd l i f).map g = l.map g := by
  simp only [upd]
  induction l generalizing i with
  | nil => simp
  | cons a r ih => cases i with
    | zero => simp [h]
    | succ n => simp [List.modify_succ_cons, ih]

@[simp] theorem core_seq (o : Nat) (f : SeqState → SeqState) : (s.modSeq o f).core = s.core := by
  simp [State.core, State.shape, State.modSeq]
@[simp] theorem core_enc (o : Nat) (f : EncState → EncState) : (s.modEnc o f).core = s.core := by
  simp [State.core, State.shape, State.modEnc]
@[simp] theorem core_tg (o : Nat) (f : TgState → TgState) (h : ∀ t, (f t).counter = t.counter) : (s.modTg o f).core = s.core := by
  simp [State.core, State.shape, State.modTg, map_upd _ _ _ _ h]
@[simp] theorem core_comp (o : Nat) (f : CompState → CompState) : (s.modComp o f).core = s.core := by
  simp [State.core, State.shape, State.modComp]
@[simp] theorem core_port (o : Nat) (f : PortState → PortState) : (s.modPort o f).core = s.core := by
  simp [State.core, State.shape, State.modPort]
@[simp] theorem core_scan (o : Nat) (f : ScanState → ScanState) : (s.modScan o f).core = s.core := by
  simp [State.core, State.shape, State.modScan]
@[simp] theorem core_in (i : Nat) (f : InputState → InputState) : (s.modIn i f).core = s.core := by
  simp [State.core, State.shape, State.modIn]
@[simp] theorem core_out (o : Nat) (f : OutMode → OutMode) : (s.modOut o f).core = s.core := by
  simp [State.core, State.shape, State.modOut]
@[simp] theorem core_str (nn : Nat) (f : StringState → StringState) : (s.modStr nn f).core = s.core := by
  simp [State.core, State.shape, State.modStr]
@[simp] theorem core_chan (o c : Nat) (f : ChanState → ChanState) : (s.modChan o c f).core = s.core := rfl
@[simp] theorem core_pd (k : Nat) (f : PdState → PdState) : (s.modPd k f).core = s.core := rfl
@[simp] theorem core_drive (f : DriveState → DriveState) (h : (f s.drive).strings.length = s.drive.strings.length) :
    (s.modDrive f).core = s.core := by
  simp [State.core, State.shape, State.modDrive, h]
@[simp] theorem core_composer (f : ComposerState → ComposerState) : (s.modComposer f).core = s.core := rfl
@[simp] theorem core_ladle (f : LadleState → LadleState) (h : (f s.ladle).rt.length = s.ladle.rt.length) : (s.modLadle f).core = s.core := by
  simp [State.core, State.shape, State.modLadle, h]
@[simp] theorem core_aod (f : AodState → AodState) : (s.modAod f).core = s.core := rfl
@[simp] theorem core_mgmt (f : MgmtState → MgmtState) : (s.modMgmt f).core = s.core := rfl
@[simp] theorem core_hbm (f : HbmState → HbmState) (h : (f s.hbm).mem = s.hbm.mem) : (s.modHbm f).core = s.core := by
  simp [State.core, State.modHbm, h, State.shape]
@[simp] theorem core_run (f : RunnerState → RunnerState) : (s.modRun f).core = s.core := rfl
@[simp] theorem core_surf (f : SurfState → SurfState) : (s.modSurf f).core = s.core := rfl
@[simp] theorem core_therm (f : ThermState → ThermState) : (s.modTherm f).core = s.core := rfl
@[simp] theorem core_ann (f : AnnealState → AnnealState) : (s.modAnn f).core = s.core := rfl
@[simp] theorem core_guard (f : GuardState → GuardState) : (s.modGuard f).core = s.core := rfl
@[simp] theorem core_cruc (f : CrucState → CrucState) : (s.modCruc f).core = s.core := rfl
@[simp] theorem core_jrn (f : JournalState → JournalState) : (s.modJrn f).core = s.core := rfl
@[simp] theorem core_mode (f : ModeState → ModeState) (h : (f s.mode).outs.length = s.mode.outs.length) : (s.modMode f).core = s.core := by
  simp [State.core, State.shape, State.modMode, h]

@[simp] theorem core_withTb (x : TbState) : { s with tb := x }.core = s.core := rfl
@[simp] theorem core_withRlv (x : RlvState) : { s with rlv := x }.core = s.core := rfl
@[simp] theorem core_withComposer (x : ComposerState) : { s with composer := x }.core = s.core := rfl
@[simp] theorem core_withPtp (x : PtpState) : { s with ptp := x }.core = s.core := rfl
@[simp] theorem core_withPcie (x : PcieState) : { s with pcie := x }.core = s.core := rfl
@[simp] theorem core_withNet (x : NetState) : { s with net := x }.core = s.core := rfl
@[simp] theorem core_withRun (x : RunnerState) : { s with run := x }.core = s.core := rfl
@[simp] theorem core_withSurf (x : SurfState) : { s with surf := x }.core = s.core := rfl
@[simp] theorem core_withLog (x : LogState) : { s with log := x }.core = s.core := rfl
@[simp] theorem core_withMgmt (x : MgmtState) : { s with mgmt := x }.core = s.core := rfl
@[simp] theorem core_withAod (x : AodState) : { s with aod := x }.core = s.core := rfl
@[simp] theorem core_withCruc (x : CrucState) : { s with cruc := x }.core = s.core := rfl
@[simp] theorem core_withGuard (x : GuardState) : { s with guard := x }.core = s.core := rfl
@[simp] theorem core_withTherm (x : ThermState) : { s with therm := x }.core = s.core := rfl
@[simp] theorem core_withFree (x : Nat) : { s with free := x }.core = s.core := rfl
@[simp] theorem core_withInput (x : List InputState) (h : x.length = s.input.length) : { s with input := x }.core = s.core := by
  simp [State.core, State.shape, h]
@[simp] theorem core_withInputTg (f : InputState → InputState) (g : TgState → TgState) (h : ∀ t, (g t).counter = t.counter) :
    { s with input := s.input.map f, tg := s.tg.map g }.core = s.core := by
  simp [State.core, State.shape, Function.comp_def, h]
@[simp] theorem core_draw (k : Nat) : (s.draw k).2.core = s.core := rfl

@[simp] theorem core_ite (c : Prop) [Decidable c] (a b : State) : (if c then a else b).core = if c then a.core else b.core := by
  split <;> rfl

/-- A fold whose every step keeps the core keeps it. -/
@[simp] theorem core_foldl {α : Type} (g : State → α → State) (h : ∀ t a, (g t a).core = t.core) (l : List α) :
    (l.foldl g s).core = s.core := by
  induction l generalizing s with
  | nil => rfl
  | cons a r ih => simp [List.foldl, ih, h]

/-- The same of a fold that carries a second value. -/
theorem core_foldl_fst {α β : Type} (g : State × β → α → State × β) (h : ∀ t x, (g t x).1.core = t.1.core) (l : List α) (a : State × β) :
    (l.foldl g a).1.core = a.1.core := by
  induction l generalizing a with
  | nil => rfl
  | cons x r ih => rw [List.foldl, ih, h]

/-! ### Operations that write the core -/

theorem FuseState.burntFrom_refl (a : FuseState) : a.burntFrom a :=
  ⟨rfl, rfl, rfl, rfl, rfl, rfl, rfl, rfl, le_refl _, fun _ _ h => h, fun _ h => h⟩

theorem FuseState.burntFrom_trans {a b c : FuseState} (h : a.burntFrom b) (k : b.burntFrom c) : a.burntFrom c := by
  obtain ⟨h1, h2, h3, h4, h5, h6, h7, h8, h9, h10, h11⟩ := h
  obtain ⟨k1, k2, k3, k4, k5, k6, k7, k8, k9, k10, k11⟩ := k
  exact ⟨k1.trans h1, k2.trans h2, k3.trans h3, k4.trans h4, k5.trans h5, k6.trans h6, k7.trans h7, k8.trans h8, h9.trans k9,
    fun i x h => k10 i x (h10 i x h), fun i h => k11 i (h11 i h)⟩

theorem Grows.refl (c) : Grows c c := ⟨c.1.burntFrom_refl, rfl, id⟩

theorem Grows.trans {a b c} (h : Grows a b) (k : Grows b c) : Grows a c :=
  ⟨FuseState.burntFrom_trans h.1 k.1, k.2.1.trans h.2.1, k.2.2 ∘ h.2.2⟩

@[simp] theorem grows_self (c) : Grows c c := Grows.refl c

@[simp] theorem grows_ite (a) (c : Prop) [Decidable c] (x y) : Grows a (if c then x else y) ↔ (c → Grows a x) ∧ (¬ c → Grows a y) := by
  split <;> simp [*]

/-- A fold whose every step only grows the core only grows it. -/
theorem grows_foldl {α : Type} {a} (g : State → α → State) (hg : ∀ t x, Grows a t.core → Grows a (g t x).core) (l : List α) {s : State}
    (h : Grows a s.core) : Grows a (l.foldl g s).core := by
  induction l generalizing s with
  | nil => exact h
  | cons x r ih => exact ih (hg _ _ h)

theorem grows_flash {a} {s : State} (m : Memory) (hm : Memory.wf flashDefault s.flash = true → Memory.wf flashDefault m = true)
    (h : Grows a s.core) : Grows a { s with flash := m }.core :=
  h.trans ⟨s.fuse.burntFrom_refl, rfl, fun ⟨x, y⟩ => ⟨hm x, y⟩⟩

theorem grows_fs {a} {s : State} (m : Memory) (hm : Memory.wf ramDefault s.fs = true → Memory.wf ramDefault m = true)
    (h : Grows a s.core) : Grows a { s with fs := m }.core :=
  h.trans ⟨s.fuse.burntFrom_refl, rfl, fun ⟨x, y, z⟩ => ⟨x, hm y, z⟩⟩

theorem grows_hbm {a} {s : State} (f : HbmState → HbmState) (hm : Memory.wf ramDefault s.hbm.mem = true → Memory.wf ramDefault (f s.hbm).mem = true)
    (h : Grows a s.core) : Grows a (s.modHbm f).core :=
  h.trans ⟨s.fuse.burntFrom_refl, rfl, fun ⟨x, y, z, w⟩ => ⟨x, y, hm z, w⟩⟩

theorem grows_tg {a} {s : State} (o : Nat) (f : TgState → TgState) (h : Grows a s.core) : Grows a (s.modTg o f).core :=
  h.trans ⟨s.fuse.burntFrom_refl, rfl, fun ⟨x, y, z, w⟩ => ⟨x, y, z, by
    have : (s.modTg o f).shape = s.shape := by simp [State.shape, State.modTg]
    exact this.trans w⟩⟩

theorem grows_fuse {a} {s : State} (f : FuseState) (hf : s.fuse.burntFrom f) (h : Grows a s.core) : Grows a { s with fuse := f }.core :=
  h.trans ⟨hf, rfl, id⟩

end Sys2Proof.Machine
end

