-- ==== Sys2Proof/Laws/CoreOps.lean ====
section
/-! SUPPORT. What the operations of Ops keep: the core of the state. -/
namespace Sys2Proof.Machine

@[simp] theorem core_holdSecure (s : State) : (holdSecure s).core = s.core := by
  rfl
@[simp] theorem core_startRecord (s : State) (r : JrnRec) : (startRecord s r).core = s.core := by
  rfl
@[simp] theorem core_journalPut (s : State) (r : JrnRec) (shutdown : Bool) : (journalPut s r shutdown).1.core = s.core := by
  unfold journalPut; split <;> simp
@[simp] theorem core_startSignature (s : State) : (startSignature s).core = s.core := by
  rfl
@[simp] theorem core_journalKick (s : State) : (journalKick s).core = s.core := by
  unfold journalKick; repeat' split
  all_goals simp
@[simp] theorem core_msix (s : State) (v : Nat) : (msix s v).core = s.core := by
  simp [msix]
@[simp] theorem core_logOne (s : State) (code sev data : Nat) (path : PathId) : (logOne s code sev data path).1.core = s.core := by
  unfold logOne; split <;> simp
@[simp] theorem core_journalCascade (s : State) (evs : List (Nat × Nat)) : (journalCascade s evs).core = s.core := by
  refine core_foldl _ _ (fun t e => ?_) _
  have h := core_logOne t e.1 (evtSev e.1) e.2 .internal
  split <;> rename_i eq <;> rw [eq] at h
  · exact h
  · split
    · exact h
    · simpa using h
@[simp] theorem core_journal (s : State) (r : JrnRec) : (journal s r).core = s.core := by
  simp [journal]
@[simp] theorem core_journalKind (s : State) (kind : Nat) (path : PathId) (data : List Byte) (sev : Nat) : (journalKind s kind path data sev).core = s.core := by
  simp [journalKind]
@[simp] theorem core_raiseSev (s : State) (code sev data : Nat) (path : PathId) : (raiseSev s code sev data path).core = s.core := by
  have h := core_logOne s code sev data path
  unfold raiseSev
  split <;> rename_i eq <;> rw [eq] at h
  · exact h
  · split
    · exact h
    · simpa using h
@[simp] theorem core_raiseP (s : State) (code data : Nat) (path : PathId) : (raiseP s code data path).core = s.core := by
  simp [raiseP]
@[simp] theorem core_raise (s : State) (code data : Nat) : (raise s code data).core = s.core := by
  simp [raise]
@[simp] theorem core_noteRaised (s : State) (code key : Nat) : (noteRaised s code key).core = s.core := by
  rfl
@[simp] theorem core_raiseLimited (s : State) (code key data interval : Nat) (path : PathId) : (raiseLimited s code key data interval path).core = s.core := by
  unfold raiseLimited; dsimp only; split <;> simp
@[simp] theorem core_journalRefusal (s : State) (result role addr : Nat) (path : PathId) : (journalRefusal s result role addr path).core = s.core := by
  simp [journalRefusal]
@[simp] theorem core_holdLoop (s : State) (o c : Nat) : (holdLoop s o c).core = s.core := by
  simp [holdLoop]
@[simp] theorem core_closeGroup (s : State) (o c : Nat) : (closeGroup s o c).core = s.core := by
  unfold closeGroup; split <;> simp
@[simp] theorem core_offString (s : State) (nn : Nat) : (offString s nn).core = s.core := by
  unfold offString; dsimp only; split <;> simp
@[simp] theorem core_enqueue (m : WordMap) (s : State) (nn : Nat) : (enqueue m s nn).core = s.core := by
  simp [enqueue]
@[simp] theorem core_commandString (s : State) (nn cmd : Nat) (clamped : Bool) : (commandString s nn cmd clamped).core = s.core := by
  simp [commandString]
@[simp] theorem core_queueStrings (s : State) (o : Nat) : (queueStrings s o).core = s.core := by
  simp [queueStrings]
@[simp] theorem core_stopStrings (s : State) (o : Nat) : (stopStrings s o).core = s.core := by
  simp [stopStrings]
@[simp] theorem core_noteDark (s : State) (o : Nat) : (noteDark s o).core = s.core := by
  unfold noteDark; dsimp only; split <;> simp
@[simp] theorem core_darken (s : State) (o : Nat) : (darken s o).core = s.core := by
  simp [darken]
@[simp] theorem core_modeChange (s : State) (who old new_ : Nat) : (modeChange s who old new_).core = s.core := by
  simp [modeChange]
@[simp] theorem core_setDevice (s : State) (m : Nat) : (setDevice s m).core = s.core := by
  simp [setDevice]
@[simp] theorem core_releaseFrame (s : State) (o : Nat) (phase : FramePhase) : (releaseFrame s o phase).core = s.core := by
  simp [releaseFrame]
@[simp] theorem core_dropRefs (s : State) (o : Nat) : (dropRefs s o).core = s.core := by
  simp [dropRefs]
@[simp] theorem core_stopComposition (s : State) (o cause : Nat) : (stopComposition s o cause).core = s.core := by
  unfold stopComposition; split <;> simp
@[simp] theorem core_postSeq (s : State) (o : Nat) (p : Post) : (postSeq s o p).core = s.core := by
  simp [postSeq]
@[simp] theorem core_portSend (s : State) (o op arg : Nat) : (portSend s o op arg).core = s.core := by
  simp [portSend]
@[simp] theorem core_endPattern (s : State) (o : Nat) : (endPattern s o).core = s.core := by
  unfold endPattern; dsimp only; repeat' split
  all_goals simp
@[simp] theorem core_recovered (s : State) (code key : Nat) : (recovered s code key).core = s.core := by
  simp [recovered]
@[simp] theorem core_recoveredAll (s : State) (codes : List Nat) (key : Nat) : (recoveredAll s codes key).core = s.core := by
  simp [recoveredAll]
@[simp] theorem core_recoveryAlso (s : State) (code key : Nat) : (recoveryAlso s code key).core = s.core := by
  rfl
@[simp] theorem core_restoreStaged (s : State) (saved : List (Nat × Option Word)) : (restoreStaged s saved).core = s.core := by
  rfl
@[simp] theorem core_noteTemp (s : State) (k : Nat) (v : Int) : (noteTemp s k v).core = s.core := by
  rfl
@[simp] theorem core_annReturn (s : State) (r : AnnRun) (o : Nat) : (annReturn s r o).core = s.core := by
  simp [annReturn]
@[simp] theorem core_annRelease (s : State) (o : Nat) : (annRelease s o).core = s.core := by
  simp [annRelease]
@[simp] theorem core_endMeasure (s : State) (r : AnnRun) : (endMeasure s r).core = s.core := by
  simp [endMeasure]
@[simp] theorem core_endRun (s : State) (r : AnnRun) (outcome cause : Nat) : (endRun s r outcome cause).core = s.core := by
  simp [endRun]
@[simp] theorem core_withdrawPour (s : State) (st : Nat) : (withdrawPour s st).core = s.core := by
  unfold withdrawPour; dsimp only; repeat' split
  all_goals simp
@[simp] theorem core_cancelPour (s : State) (path : PathId) : (cancelPour s path).core = s.core := by
  unfold cancelPour; dsimp only; repeat' split
  all_goals simp
@[simp] theorem core_abortRun (s : State) (cause : Nat) : (abortRun s cause).core = s.core := by
  unfold abortRun; split <;> simp
@[simp] theorem core_interruptRun (s : State) (o : Nat) : (interruptRun s o).core = s.core := by
  unfold interruptRun; repeat' split
  all_goals simp
@[simp] theorem core_trip (s : State) (src : Nat) : (trip s src).core = s.core := by
  simp [trip]
@[simp] theorem core_tripEvent (s : State) (src data : Nat) (path : PathId) : (tripEvent s src data path).core = s.core := by
  unfold tripEvent; split <;> simp
@[simp] theorem core_haltComposition (s : State) : (haltComposition s).core = s.core := by
  simp [haltComposition]
@[simp] theorem core_abortTraining (s : State) : (abortTraining s).core = s.core := by
  simp [abortTraining]
@[simp] theorem core_closeSession (s : State) (k cause : Nat) : (closeSession s k cause).core = s.core := by
  unfold closeSession; split <;> simp
@[simp] theorem core_stopUpdate (s : State) : (stopUpdate s).core = s.core := by
  rfl
@[simp] theorem core_duskStep1 (s : State) : (duskStep1 s).core = s.core := by
  simp [duskStep1]
@[simp] theorem core_duskStep4 (s : State) : (duskStep4 s).core = s.core := by
  simp [duskStep4]
@[simp] theorem core_duskStep3 (s : State) : (duskStep3 s).core = s.core := by
  unfold duskStep3
  simp
@[simp] theorem core_duskAdvance (s : State) : (duskAdvance s).core = s.core := by
  simp [duskAdvance]
@[simp] theorem core_reachStandby (s : State) (o : Nat) : (reachStandby s o).core = s.core := by
  simp [reachStandby]
@[simp] theorem core_stopOutput (s : State) (o : Nat) : (stopOutput s o).core = s.core := by
  simp [stopOutput]
@[simp] theorem core_startExit (s : State) (o auto : Nat) : (startExit s o auto).core = s.core := by
  simp [startExit]
@[simp] theorem core_startDusk (s : State) (cause : Nat) (dawn : Bool) : (startDusk s cause dawn).core = s.core := by
  simp [startDusk]
@[simp] theorem core_haltResponse (s : State) (code : Nat) : (haltResponse s code).core = s.core := by
  simp [haltResponse]
@[simp] theorem core_raiseHalt (s : State) (code data : Nat) : (raiseHalt s code data).core = s.core := by
  simp [raiseHalt]
@[simp] theorem core_fault (s : State) (code data key : Nat) : (fault s code data key).core = s.core := by
  unfold fault; split <;> simp
@[simp] theorem core_discardStolen (s : State) (o frame : Nat) : (discardStolen s o frame).core = s.core := by
  unfold discardStolen; split <;> simp
@[simp] theorem core_countLate (s : State) (o : Nat) (slack : Int) : (countLate s o slack).core = s.core := by
  simp [countLate]
@[simp] theorem core_holdCore (s : State) (o frame fire detected : Nat) : (holdCore s o frame fire detected).core = s.core := by
  unfold holdCore; dsimp only; repeat' split
  all_goals simp
@[simp] theorem core_holdFaultCore (s : State) (o frame fire detected : Nat) : (holdFaultCore s o frame fire detected).core = s.core := by
  unfold holdFaultCore; dsimp only; repeat' split
  all_goals simp
@[simp] theorem core_ackWaiting (s : State) (o : Nat) : (ackWaiting s o).core = s.core := by
  unfold ackWaiting; dsimp only; repeat' split
  all_goals simp
@[simp] theorem core_holdFrame (s : State) (o frame fire detected : Nat) : (holdFrame s o frame fire detected).core = s.core := by
  simp [holdFrame]
@[simp] theorem core_holdDark (s : State) (o fire detected : Nat) : (holdDark s o fire detected).core = s.core := by
  simp [holdDark]
@[simp] theorem core_holdFault (s : State) (o frame fire detected : Nat) : (holdFault s o frame fire detected).core = s.core := by
  simp [holdFault]
@[simp] theorem core_handOver (s : State) (o : Nat) : (handOver s o).core = s.core := by
  unfold handOver; dsimp only; split <;> simp
@[simp] theorem core_secondFault (s : State) : (secondFault s).core = s.core := by
  unfold secondFault; split
  · rfl
  · simp only [core_raiseHalt, core_withLog]
@[simp] theorem core_tickPass (s : State) : (tickPass s).core = s.core := by
  simp [tickPass]
@[simp] theorem core_refuseRole (s : State) (path : PathId) (role addr : Nat) : (refuseRole s path role addr).core = s.core := by
  simp [refuseRole]
@[simp] theorem core_withRole (s : State) (path : PathId) (role addr : Nat) (f : State → State) (hf : ∀ t, (f t).core = t.core) : (withRole s path role addr f).core = s.core := by
  unfold withRole; repeat' split
  all_goals simp [*]

end Sys2Proof.Machine
end

