-- ==== Sys2Proof/Laws/CoreIngot.lean ====
section
/-! SUPPORT. What the operations of Ingot keep: the core of the state. -/
namespace Sys2Proof.Machine

@[simp] theorem core_rejectEvent (s : State) (cause : Nat) : (rejectEvent s cause).core = s.core := by
  simp [rejectEvent]
@[simp] theorem core_applyDawnSections (s : State) (c : Nat) : (applyDawnSections s c).core = s.core := by
  rfl
@[simp] theorem core_answer (s : State) (status : Nat) (words : List Word) (bytes : List Byte) : (answer s status words bytes).core = s.core := by
  rfl
@[simp] theorem core_journalIngot (s : State) (result c : Nat) (path : PathId) : (journalIngot s result c path).core = s.core := by
  simp [journalIngot]
@[simp] theorem core_ingotFail (s : State) (path : PathId) : (ingotFail s path).core = s.core := by
  simp [ingotFail]
@[simp] theorem core_refuseIngotWait (s : State) : (refuseIngotWait s).core = s.core := by
  unfold refuseIngotWait; split <;> simp

end Sys2Proof.Machine
end

