-- ==== Sys2Proof/Laws/CoreThermal.lean ====
section
/-! SUPPORT. What the operations of Thermal keep: the core of the state. -/
namespace Sys2Proof.Machine

@[simp] theorem core_shutdownRecord (s : State) (code : Nat) : (shutdownRecord s code).core = s.core := by
  simp [shutdownRecord]
@[simp] theorem core_setLevel (s : State) (up : Bool) : (setLevel s up).core = s.core := by
  simp [setLevel]
@[simp] theorem core_judgeDie (s : State) : (judgeDie s).core = s.core := by
  simp [judgeDie]

end Sys2Proof.Machine
end

