-- ==== Sys2Proof/Laws/CoreModes.lean ====
section
/-! SUPPORT. What the operations of Modes keep: the core of the state. -/
namespace Sys2Proof.Machine

@[simp] theorem core_refuseMode (s : State) (o cause : Nat) (path : PathId) : (refuseMode s o cause path).core = s.core := by
  simp [refuseMode]
@[simp] theorem core_acceptShow (s : State) (o : Nat) : (acceptShow s o).core = s.core := by
  simp [acceptShow]
@[simp] theorem core_requestShow (s : State) (o : Nat) (auto : Bool) (path : PathId) : (requestShow s o auto path).core = s.core := by
  unfold requestShow; split <;> simp
@[simp] theorem core_linkReturned (s : State) (o : Nat) : (linkReturned s o).core = s.core := by
  simp [linkReturned]
@[simp] theorem core_modeShow (s : State) (outs : Nat) (path : PathId) : (modeShow s outs path).core = s.core := by
  simp [modeShow]
@[simp] theorem core_standbyOne (s : State) (o : Nat) (path : PathId) : (standbyOne s o path).core = s.core := by
  simp [standbyOne]
@[simp] theorem core_modeStandby (s : State) (outs : Nat) (path : PathId) : (modeStandby s outs path).core = s.core := by
  simp [modeStandby]

end Sys2Proof.Machine
end

