-- ==== Sys2Proof/Laws/CoreGuard.lean ====
section
/-! SUPPORT. What the operations of Guard keep: the core of the state. -/
namespace Sys2Proof.Machine

@[simp] theorem core_modZone (s : State) (o : Nat) (f : ZoneState → ZoneState) : (State.modZone s o f).core = s.core := by
  rfl
@[simp] theorem core_modSig (s : State) (o : Nat) (f : SigState → SigState) : (State.modSig s o f).core = s.core := by
  rfl
@[simp] theorem core_judgeRect (s : State) (m : WordMap) (o r sig : Nat) (still : Bool) : (judgeRect s m o r sig still).1.core = s.core := by
  simp [judgeRect, apply_ite Prod.fst]
@[simp] theorem core_judgeRects (s : State) (m : WordMap) (o : Nat) (out canvas : Nat → Nat → Nat → Nat) (still : Bool) : (judgeRects s m o out canvas still).1.core = s.core := by
  unfold judgeRects
  refine (core_foldl_fst _ (fun t r => ?_) _ _).trans (by simp)
  split
  · rfl
  · exact core_judgeRect _ _ _ _ _ _
@[simp] theorem core_judgeIlk (s : State) : (judgeIlk s).core = s.core := by
  simp [judgeIlk]
@[simp] theorem core_loseCore (s : State) : (loseCore s).core = s.core := by
  simp [loseCore]
@[simp] theorem core_refuseRelease (s : State) (blocking : Nat) (path : PathId) : (refuseRelease s blocking path).core = s.core := by
  simp [refuseRelease]

end Sys2Proof.Machine
end

