-- ==== Sys2Proof/Laws/CoreDrive.lean ====
section
/-! SUPPORT. What the operations of Drive keep: the core of the state. -/
namespace Sys2Proof.Machine

@[simp] theorem core_recommand (s : State) (o c nn : Nat) : (recommand s o c nn).core = s.core := by
  simp [recommand]
@[simp] theorem core_recommandChan (s : State) (o c : Nat) : (recommandChan s o c).core = s.core := by
  simp [recommandChan]
@[simp] theorem core_recomputeDom (s : State) : (recomputeDom s).core = s.core := by
  rfl
@[simp] theorem core_liveChange (s : State) (g : Nat) : (liveChange s g).core = s.core := by
  unfold liveChange
  simp only [core_recomputeDom]
  exact core_foldl _ _ (fun t nn => by split <;> simp) _
@[simp] theorem core_loopSample (s : State) (o c : Nat) : (loopSample s o c).core = s.core := by
  unfold loopSample; split <;> simp
@[simp] theorem core_pdTake (s : State) (k code : Nat) : (pdTake s k code).core = s.core := by
  rfl
@[simp] theorem core_openGroup (s : State) (o c A : Nat) : (openGroup s o c A).core = s.core := by
  simp [openGroup]
@[simp] theorem core_applyAmplitude (s : State) (o c A : Nat) : (applyAmplitude s o c A).core = s.core := by
  simp [applyAmplitude]
@[simp] theorem core_applySingle (s : State) (o nn payload : Nat) : (applySingle s o nn payload).core = s.core := by
  simp [applySingle]
@[simp] theorem core_reenter (s : State) (nn : Nat) : (reenter s nn).core = s.core := by
  unfold reenter; split <;> simp
@[simp] theorem core_groupReturn (s : State) (g : Nat) : (groupReturn s g).core = s.core := by
  simp [groupReturn]
@[simp] theorem core_failAmong (pol g : Nat) (ms : List Nat) (s : State) (nn cause value : Nat) : (failAmong pol g ms s nn cause value).core = s.core := by
  unfold failAmong; dsimp only; repeat' split
  all_goals simp
@[simp] theorem core_failString (s : State) (nn cause value : Nat) : (failString s nn cause value).core = s.core := by
  simp [failString]
@[simp] theorem core_clearString (s : State) (nn : Nat) : (clearString s nn).core = s.core := by
  simp [clearString]
@[simp] theorem core_vesper (s : State) (nn outcome : Nat) : (vesper s nn outcome).core = s.core := by
  simp [vesper]
@[simp] theorem core_adjustHeadroom (s : State) (nn span : Nat) : (adjustHeadroom s nn span).core = s.core := by
  unfold adjustHeadroom; dsimp only; repeat' split
  all_goals simp
@[simp] theorem core_overlimit (s : State) (nn sense : Nat) : (overlimit s nn sense).core = s.core := by
  simp [overlimit]
@[simp] theorem core_laneTrip (s : State) (nn : Nat) : (laneTrip s nn).core = s.core := by
  simp [laneTrip]
@[simp] theorem core_boardHot (s : State) (b : Nat) : (boardHot s b).core = s.core := by
  simp [boardHot]
@[simp] theorem core_boardCool (s : State) (b : Nat) : (boardCool s b).core = s.core := by
  simp [boardCool]
@[simp] theorem core_capChange (s : State) (b : Nat) : (capChange s b).core = s.core := by
  unfold capChange
  simp only [core_recomputeDom]
  exact core_foldl _ _ (fun t nn => by split <;> simp) _
@[simp] theorem core_deriveSlot (m : WordMap) (s : State) (nn : Nat) : (deriveSlot m s nn).core = s.core := by
  unfold deriveSlot; dsimp only; repeat' split
  all_goals simp
@[simp] theorem core_deriveChanged (s : State) (o : Nat) (old m : WordMap) : (deriveChanged s o old m).core = s.core := by
  unfold deriveChanged; dsimp only; repeat' split
  all_goals simp
@[simp] theorem core_boardEvents (s : State) (b : Nat) : (boardEvents s b).core = s.core := by
  simp [boardEvents]
@[simp] theorem core_presentBoards (s : State) : (presentBoards s).core = s.core := by
  rfl
@[simp] theorem core_deriveBoards (s : State) : (deriveBoards s).core = s.core := by
  simp [deriveBoards]
@[simp] theorem core_countDuty (s : State) (nn : Nat) : (countDuty s nn).core = s.core := by
  simp [countDuty]
@[simp] theorem core_boundaryDrive (s : State) (o : Nat) : (boundaryDrive s o).core = s.core := by
  simp [boundaryDrive]

@[simp] theorem core_countFrame (s : State) (o : Nat) : (countFrame s o).core = s.core := by
  unfold countFrame; repeat' split
  all_goals simp
end Sys2Proof.Machine
end

