-- ==== Sys2Proof/Laws/CoreScan.lean ====
section
/-! SUPPORT. What the operations of Scan keep: the core of the state. -/
namespace Sys2Proof.Machine

@[simp] theorem core_applyForce (s : State) (o idx payload : Nat) : (applyForce s o idx payload).core = s.core := by
  simp [applyForce]
@[simp] theorem core_applyRun (s : State) (o run : Nat) : (applyRun s o run).core = s.core := by
  simp [applyRun]
@[simp] theorem core_applyScanner (s : State) (o idx fire payload : Nat) : (applyScanner s o idx fire payload).core = s.core := by
  simp [applyScanner]
@[simp] theorem core_scanLost (s : State) (o why : Nat) : (scanLost s o why).core = s.core := by
  simp [scanLost]
@[simp] theorem core_beamWatch (s : State) (o : Nat) (watch : Nat) (bad : Bool) : (beamWatch s o watch bad).core = s.core := by
  simp [beamWatch]
@[simp] theorem core_fetchRows (s : State) (m : WordMap) (o y : Nat) : (fetchRows s m o y).core = s.core := by
  simp [fetchRows]
@[simp] theorem core_computeSample (s : State) (o : Nat) : (computeSample s o).core = s.core := by
  unfold computeSample; dsimp only; repeat' split
  all_goals simp
@[simp] theorem core_fillAhead (o n : Nat) (s : State) : (fillAhead o n s).core = s.core := by
  induction n generalizing s with
  | zero => rfl
  | succ n ih => simp [fillAhead, ih]
@[simp] theorem core_sendSample (s : State) (o : Nat) (w : ScanWord) : (sendSample s o w).core = s.core := by
  simp [sendSample]
@[simp] theorem core_lineSample (s : State) (o k code : Nat) : (lineSample s o k code).core = s.core := by
  unfold lineSample; split <;> simp
@[simp] theorem core_lineLoop (s : State) (o c : Nat) : (lineLoop s o c).core = s.core := by
  simp [lineLoop]

end Sys2Proof.Machine
end

