-- ==== Sys2Proof/Laws/CorePort.lean ====
section
/-! SUPPORT. What the operations of Port keep: the core of the state. -/
namespace Sys2Proof.Machine

@[simp] theorem core_loseLink (s : State) (o : Nat) : (loseLink s o).core = s.core := by
  simp [loseLink]
@[simp] theorem core_startLink (s : State) (o : Nat) : (startLink s o).core = s.core := by
  simp [startLink]
@[simp] theorem core_relink (s : State) (o : Nat) (old : WordMap) : (relink s o old).core = s.core := by
  simp [relink]
@[simp] theorem core_takePort (s : State) (o since : Nat) : (takePort s o since).core = s.core := by
  unfold takePort; dsimp only; repeat' split
  all_goals simp
@[simp] theorem core_parkDone (s : State) (o : Nat) : (parkDone s o).core = s.core := by
  unfold parkDone; repeat' split
  all_goals simp
@[simp] theorem core_takeDown (s : State) (o : Nat) : (takeDown s o).core = s.core := by
  simp [takeDown]
@[simp] theorem core_strobeFire (s : State) (o : Nat) (p : Post) : (strobeFire s o p).core = s.core := by
  simp [strobeFire]
@[simp] theorem core_rejectPortCmd (s : State) (o arg : Nat) (path : PathId) : (rejectPortCmd s o arg path).core = s.core := by
  simp [rejectPortCmd]
@[simp] theorem core_portStatusReq (s : State) (o kind : Nat) : (portStatusReq s o kind).core = s.core := by
  simp [portStatusReq]
@[simp] theorem core_portTestPattern (s : State) (o arg : Nat) (path : PathId) : (portTestPattern s o arg path).core = s.core := by
  simp [portTestPattern]
@[simp] theorem core_portCmd (s : State) (o v : Nat) (path : PathId) : (portCmd s o v path).core = s.core := by
  unfold portCmd; split <;> simp
@[simp] theorem core_linkUp (s : State) (o : Nat) : (linkUp s o).core = s.core := by
  simp [linkUp]
@[simp] theorem core_takeIdent (s : State) (o : Nat) (i : Ident) : (takeIdent s o i).core = s.core := by
  simp [takeIdent]
@[simp] theorem core_bringUp (s : State) (o : Nat) (event : Bool) (t : ArrayStatus) : (bringUp s o event t).core = s.core := by
  unfold bringUp; dsimp only; repeat' split
  all_goals simp
@[simp] theorem core_takeFlags (s : State) (o : Nat) (old new : ArrayStatus) : (takeFlags s o old new).core = s.core := by
  simp [takeFlags]
@[simp] theorem core_takeState (s : State) (o : Nat) : (takeState s o).core = s.core := by
  simp [takeState]
@[simp] theorem core_takeStatus (s : State) (o : Nat) (event : Bool) (t : ArrayStatus) : (takeStatus s o event t).core = s.core := by
  simp [takeStatus]

end Sys2Proof.Machine
end

