-- ==== Sys2Proof/Laws/CoreSequencer.lean ====
section
/-! SUPPORT. What the operations of Sequencer keep: the core of the state. -/
namespace Sys2Proof.Machine

@[simp] theorem core_post (s : State) (o : Nat) (p : Post) : (post s o p).core = s.core := by
  simp [post]
@[simp] theorem core_postAll (s : State) (o : Nat) (x0 : List Post) : (postAll s o x0).core = s.core := by
  induction x0 generalizing s with
  | nil => rfl
  | cons p r ih => unfold postAll; split <;> simp [ih]
@[simp] theorem core_fireAt (s : State) (o : Nat) (p : Post) : (fireAt s o p).core = s.core := by
  unfold fireAt; split <;> simp
@[simp] theorem core_twinTrip (s : State) (o : Nat) (p : Post) : (twinTrip s o p).core = s.core := by
  simp [twinTrip]
@[simp] theorem core_reply (s : State) (w : Word) : (reply s w).core = s.core := by
  rfl
@[simp] theorem core_slackClear (s : State) (v : Nat) : (slackClear s v).core = s.core := by
  simp [slackClear]
@[simp] theorem core_readTick (s : State) : (readTick s).1.core = s.core := by
  rfl
@[simp] theorem core_readFrameCnt (s : State) (o : Nat) : (readFrameCnt s o).1.core = s.core := by
  simp [readFrameCnt]
@[simp] theorem core_readPtpOfs (s : State) : (readPtpOfs s).1.core = s.core := by
  rfl
@[simp] theorem core_loseReference (s : State) : (loseReference s).core = s.core := by
  simp [loseReference]
@[simp] theorem core_changeReference (s : State) (old : WordMap) : (changeReference s old).core = s.core := by
  simp [changeReference]
@[simp] theorem core_boundaryUnposted (s : State) (o : Nat) : (boundaryUnposted s o).core = s.core := by
  unfold boundaryUnposted; dsimp only; split <;> simp
@[simp] theorem core_boundarySlack (s : State) (o : Nat) : (boundarySlack s o).core = s.core := by
  simp [boundarySlack]

end Sys2Proof.Machine
end

