-- ==== Sys2Proof/Laws/CoreFrame.lean ====
section
/-! SUPPORT. What the operations of Frame keep: the core of the state. -/
namespace Sys2Proof.Machine

@[simp] theorem core_startGenerator (s : State) (o : Nat) : (startGenerator s o).core = s.core := by
  simp [startGenerator]
@[simp] theorem core_stopGenerator (s : State) (o : Nat) : (stopGenerator s o).core = s.core := by
  simp [stopGenerator]
@[simp] theorem core_stopDisabled (s : State) (o : Nat) (old : WordMap) : (stopDisabled s o old).core = s.core := by
  simp [stopDisabled]
@[simp] theorem core_startEnabled (s : State) (o : Nat) (old : WordMap) : (startEnabled s o old).core = s.core := by
  simp [startEnabled]
@[simp] theorem core_sourceChange (s : State) (o : Nat) (old : WordMap) : (sourceChange s o old).core = s.core := by
  simp [sourceChange]
@[simp] theorem core_takeDevice (s : State) (new : WordMap) : (takeDevice s new).core = s.core := by
  simp [takeDevice]
@[simp] theorem core_takeSettings (s : State) (o : Nat) (new : WordMap) : (takeSettings s o new).core = s.core := by
  simp [takeSettings]
@[simp] theorem core_boundarySettings (s : State) (o : Nat) : (boundarySettings s o).core = s.core := by
  simp [boundarySettings]
@[simp] theorem core_endFrame (s : State) (o : Nat) : (endFrame s o).core = s.core := by
  simp [endFrame]
@[simp] theorem core_resumeLink (s : State) (o : Nat) : (resumeLink s o).core = s.core := by
  simp [resumeLink]
@[simp] theorem core_boundaryScan (s : State) (o : Nat) : (boundaryScan s o).core = s.core := by
  simp [boundaryScan]
@[simp] theorem core_logFlip (s : State) (o kind cause : Nat) (dark : Bool) : (logFlip s o kind cause dark).core = s.core := by
  simp [logFlip]
@[simp] theorem core_swapBuffers (s : State) (o : Nat) : (swapBuffers s o).core = s.core := by
  simp [swapBuffers]
@[simp] theorem core_clearFrame (s : State) (o : Nat) : (clearFrame s o).core = s.core := by
  unfold clearFrame; split <;> simp
@[simp] theorem core_flipOrRepeat (s : State) (o : Nat) : (flipOrRepeat s o).core = s.core := by
  simp [flipOrRepeat]
@[simp] theorem core_finishEntry (s : State) (o : Nat) (flipped : Bool) : (finishEntry s o flipped).core = s.core := by
  simp [finishEntry]
@[simp] theorem core_enterStill (s : State) (o : Nat) (flipped : Bool) : (enterStill s o flipped).core = s.core := by
  simp [enterStill]
@[simp] theorem core_stopTiming (s : State) (o : Nat) : (stopTiming s o).core = s.core := by
  simp [stopTiming]
@[simp] theorem core_boundarySteps (s : State) (o : Nat) : (boundarySteps s o).core = s.core := by
  unfold boundarySteps; repeat' split
  all_goals simp
@[simp] theorem core_finishTiming (s : State) (o : Nat) (flipped : Bool) : (finishTiming s o flipped).core = s.core := by
  unfold finishTiming; split <;> simp
@[simp] theorem core_boundaryAnneal (s : State) (o : Nat) : (boundaryAnneal s o).core = s.core := by
  unfold boundaryAnneal; repeat' split
  all_goals simp
@[simp] theorem core_regainRef (s : State) (src k : Nat) : (regainRef s src k).core = s.core := by
  simp [regainRef]
@[simp] theorem core_boundaryPosts (s : State) (o : Nat) : (boundaryPosts s o).core = s.core := by
  simp [boundaryPosts]
@[simp] theorem core_nextStart (s : State) (o : Nat) : (nextStart s o).core = s.core := by
  unfold nextStart; dsimp only; split <;> simp
@[simp] theorem core_loseGenRef (s : State) (o : Nat) : (loseGenRef s o).core = s.core := by
  simp [loseGenRef]
@[simp] theorem core_rlvSend (s : State) (l : List Byte) : (rlvSend s l).core = s.core := by
  simp [rlvSend]
@[simp] theorem core_rlvFrame (s : State) (o : Nat) : (rlvFrame s o).core = s.core := by
  simp [rlvFrame]
@[simp] theorem core_pourApplied (s : State) (o : Nat) : (pourApplied s o).core = s.core := by
  simp [pourApplied]
@[simp] theorem core_markApplied (s : State) (o : Nat) : (markApplied s o).core = s.core := by
  rfl
@[simp] theorem core_boundaryBody (s : State) (o : Nat) (first : Bool) : (boundaryBody s o first).core = s.core := by
  simp [boundaryBody]
@[simp] theorem core_postHeads (s : State) (m : WordMap) (o k : Nat) (steal : Bool) : (postHeads s m o k steal).core = s.core := by
  simp [postHeads]
@[simp] theorem core_markStolen (s : State) (o k : Nat) : (markStolen s o k).core = s.core := by
  simp [markStolen]
end Sys2Proof.Machine
end

