-- ==== Sys2Proof/Laws/CoreRelvor.lean ====
section
/-! SUPPORT. What the operations of Relvor keep: the core of the state. -/
namespace Sys2Proof.Machine

@[simp] theorem core_rlvTime (s : State) (l : List Byte) (arrival : Nat) : (rlvTime s l arrival).core = s.core := by
  simp [rlvTime]
@[simp] theorem core_rlvAnnounce (s : State) (l : List Byte) (arrival : Nat) : (rlvAnnounce s l arrival).core = s.core := by
  simp [rlvAnnounce]

end Sys2Proof.Machine
end

