-- ==== Sys2Proof/Laws/CoreArbiter.lean ====
section
/-! SUPPORT. What the operations of Arbiter keep: the core of the state. -/
namespace Sys2Proof.Machine

@[simp] theorem core_modArb (s : State) (h : Nat) (f : ChanArb → ChanArb) : (State.modArb s h f).core = s.core := by
  rfl
@[simp] theorem core_drawOwner (s : State) (h : Nat) : (drawOwner s h).core = s.core := by
  simp [drawOwner]
@[simp] theorem core_grantTo (s : State) (h r : Nat) : (grantTo s h r).core = s.core := by
  rfl
@[simp] theorem core_drawNext (s : State) (h : Nat) : (drawNext s h).core = s.core := by
  simp [drawNext]
@[simp] theorem core_grantAnew (s : State) (h : Nat) : (grantAnew s h).core = s.core := by
  unfold grantAnew; dsimp only; repeat' split
  all_goals simp
@[simp] theorem core_grantFree (s : State) (h : Nat) : (grantFree s h).core = s.core := by
  unfold grantFree; dsimp only; repeat' split
  all_goals simp
@[simp] theorem core_grantAll (s : State) : (grantAll s).core = s.core := by
  simp [grantAll]
@[simp] theorem core_releaseOwner (s : State) (h : Nat) : (releaseOwner s h).core = s.core := by
  simp [releaseOwner]
@[simp] theorem core_dropRequest (s : State) (h r : Nat) : (dropRequest s h r).core = s.core := by
  simp [dropRequest]
@[simp] theorem core_addRequest (s : State) (h r : Nat) (lock : Bool) : (addRequest s h r lock).core = s.core := by
  simp [addRequest]
theorem core_takeTokens (s : State) (r n : Nat) (t : State) (h : takeTokens s r n = some t) : t.core = s.core := by
  unfold takeTokens at h
  split at h
  · cases h; rfl
  · split at h
    · cases h; rfl
    · cases h
@[simp] theorem core_serveTokens  (x0 : State) (x1 : List (Nat × Nat × Nat × Bool)) : (serveTokens x0 x1).core = x0.core := by
  induction x1 generalizing x0 with
  | nil => simp [serveTokens]
  | cons w r ih =>
    obtain ⟨a, h, n, l⟩ := w
    unfold serveTokens
    split
    · simp [ih, core_takeTokens _ _ _ _ ‹_›]
    · rfl
@[simp] theorem core_askChannel (s : State) (h r n : Nat) (lock : Bool) : (askChannel s h r n lock).core = s.core := by
  unfold askChannel; dsimp only
  split
  · rfl
  · split
    · simp
    · split
      · simp [core_takeTokens _ _ _ _ ‹_›]
      · rfl
@[simp] theorem core_resetChannels (s : State) (r : Nat) : (resetChannels s r).1.core = s.core := by
  refine core_foldl_fst _ (fun t h => ?_) _ _
  dsimp only
  split <;> simp

@[simp] theorem core_abandonSequence (s : State) (r h : Nat) : (abandonSequence s r h).core = s.core := by
  simp [abandonSequence]
end Sys2Proof.Machine
end

