-- ==== Sys2Proof/Laws/CoreHbm.lean ====
section
/-! SUPPORT. What the operations of Hbm keep: the core of the state. -/
namespace Sys2Proof.Machine

@[simp] theorem core_flushCheck (s : State) (ch : Nat) : (flushCheck s ch).core = s.core := by
  simp [flushCheck]
@[simp] theorem core_beginChange (s : State) : (beginChange s).core = s.core := by
  rfl
@[simp] theorem core_requestFsp (s : State) (f : Nat) : (requestFsp s f).core = s.core := by
  simp [requestFsp]
@[simp] theorem core_resumeChange (s : State) : (resumeChange s).core = s.core := by
  simp [resumeChange]
@[simp] theorem core_loseFsp (s : State) (f : Nat) : (loseFsp s f).core = s.core := by
  unfold loseFsp; dsimp only; repeat' split
  all_goals simp
@[simp] theorem core_startPass (s : State) : (startPass s).core = s.core := by
  rfl
@[simp] theorem core_poisonFrame (s : State) (o cause : Nat) : (poisonFrame s o cause).core = s.core := by
  simp [poisonFrame]
@[simp] theorem core_fetchPoison (s : State) (engine : Nat) : (fetchPoison s engine).core = s.core := by
  unfold fetchPoison; split <;> simp
@[simp] theorem core_countParity (s : State) (ch n : Nat) : (countParity s ch n).core = s.core := by
  simp [countParity]
@[simp] theorem core_countCorrected (s : State) (ch n : Nat) : (countCorrected s ch n).core = s.core := by
  rfl
@[simp] theorem core_countUncorrected (s : State) (ch : Nat) : (countUncorrected s ch).core = s.core := by
  rfl
@[simp] theorem core_answerRunner (s : State) (runner kind : Nat) (d : List Byte) : (answerRunner s runner kind d).core = s.core := by
  rfl
@[simp] theorem recordErr_mem (h : HbmState) (p : HbmPlace) (kind runner : Nat) : (recordErr h p kind runner).mem = h.mem := by
  unfold recordErr
  split <;> rfl
@[simp] theorem core_finishRead (s : State) (p : HbmPlace) (runner engine addr ecc parity : Nat) : (finishRead s p runner engine addr ecc parity).core = s.core := by
  unfold finishRead
  dsimp only
  split
  · split <;> simp
  · simp
@[simp] theorem core_carryOne (s : State) (ch runner : Nat) (write : Bool) : (carryOne s ch runner write).core = s.core := by
  simp [carryOne]
@[simp] theorem enterSelfRefresh_mem (h : HbmState) (now : Nat) : (enterSelfRefresh h now).mem = h.mem := by
  rfl
@[simp] theorem activate_mem (m : WordMap) (h : HbmState) (p : HbmPlace) : (activate m h p).mem = h.mem := by
  unfold activate
  dsimp only
  split <;> rfl
@[simp] theorem core_openRow (s : State) (p : HbmPlace) : (openRow s p).core = s.core := by
  refine core_hbm _ _ ?_
  dsimp only
  split <;> simp

end Sys2Proof.Machine
end

