-- ==== Sys2Proof/Laws/CoreSurface.lean ====
section
/-! SUPPORT. What the operations of Surface keep: the core of the state. -/
namespace Sys2Proof.Machine

@[simp] theorem core_setSurf (s : State) (i : Nat) (x : Surface) : (State.setSurf s i x).core = s.core := by
  rfl
@[simp] theorem core_modSurfAt (s : State) (i : Nat) (f : Surface → Surface) : (State.modSurfAt s i f).core = s.core := by
  rfl
@[simp] theorem core_tlbEnter (s : State) (i page phys : Nat) : (tlbEnter s i page phys).core = s.core := by
  simp [tlbEnter]
@[simp] theorem core_recordXlate (s : State) (w : Walk) (kind : Nat) : (recordXlate s w kind).core = s.core := by
  rfl
@[simp] theorem core_translate (s : State) (i offset : Nat) (host : Bool) : (translate s i offset host).2.2.core = s.core := by
  unfold translate; dsimp only; repeat' split
  all_goals simp
@[simp] theorem core_hostAccess (s : State) (addr : Nat) (write : Bool) : (hostAccess s addr write).2.2.core = s.core := by
  unfold hostAccess
  split
  · rfl
  · rename_i i _
    have h := core_translate (s.modSurf fun m => { m with cache := (i :: m.cache.filter (· != i)).take 64 }) i (addr - (s.surfAt i).lo) true
    dsimp only
    repeat' split
    all_goals first | rfl | (rename_i eq; rw [eq] at h; exact h.trans (by simp))
@[simp] theorem core_surfResult (s : State) (i result : Nat) (path : PathId) : (surfResult s i result path).core = s.core := by
  simp [surfResult]
@[simp] theorem core_surfMap (s : State) (i : Nat) (path : PathId) : (surfMap s i path).core = s.core := by
  unfold surfMap; dsimp only; repeat' split
  all_goals simp
@[simp] theorem core_surfFree (s : State) (i : Nat) (path : PathId) : (surfFree s i path).core = s.core := by
  unfold surfFree
  dsimp only
  split
  · simp
  · split
    · simp
    · simp [apply_ite]
@[simp] theorem core_surfCmd (s : State) (v : Nat) (path : PathId) : (surfCmd s v path).core = s.core := by
  unfold surfCmd; split <;> simp

end Sys2Proof.Machine
end

