-- ==== Sys2Proof/Laws/CoreCompose.lean ====
section
/-! SUPPORT. What the operations of Compose keep: the core of the state. -/
namespace Sys2Proof.Machine

@[simp] theorem core_disableLayer (s : State) (l : Nat) : (disableLayer s l).core = s.core := by
  rfl
@[simp] theorem core_setStatus (s : State) (o l st : Nat) (src : Option Nat) : (setStatus s o l st src).core = s.core := by
  unfold setStatus; dsimp only; repeat' split
  all_goals simp
@[simp] theorem core_scaleLimit (s : State) (o l : Nat) : (scaleLimit s o l).core = s.core := by
  simp [scaleLimit]
@[simp] theorem core_noteStripes (s : State) (m : WordMap) (o l : Nat) (src : Source) : (noteStripes s m o l src).core = s.core := by
  unfold noteStripes; dsimp only; repeat' split
  all_goals simp
@[simp] theorem core_abandonFrame (s : State) (o cause : Nat) : (abandonFrame s o cause).core = s.core := by
  simp [abandonFrame]
theorem core_judgeLayer (m : WordMap) (o : Nat) (a : State × List (Nat × Source)) (l : Nat) : (judgeLayer m o a l).1.core = a.1.core := by
  unfold judgeLayer
  dsimp only
  repeat' split
  all_goals simp
@[simp] theorem core_judgeWaiting (s : State) (m : WordMap) (o : Nat) : (judgeWaiting s m o).core = s.core := by
  exact core_foldl _ _ (fun t l => by split <;> simp) _
@[simp] theorem core_announceDisabled (s : State) (o : Nat) : (announceDisabled s o).core = s.core := by
  simp [announceDisabled]
@[simp] theorem core_statusDisabled (s : State) : (statusDisabled s).core = s.core := by
  rfl
@[simp] theorem core_startRanges (s : State) (o : Nat) : (startRanges s o).core = s.core := by
  simp [startRanges]
@[simp] theorem core_stillStep (s : State) (o : Nat) : (stillStep s o).core = s.core := by
  simp [stillStep]
@[simp] theorem core_watchStill (s : State) (o : Nat) : (watchStill s o).core = s.core := by
  simp [watchStill]
@[simp] theorem core_startTiming (s : State) (o : Nat) : (startTiming s o).core = s.core := by
  simp [startTiming]
@[simp] theorem core_recoverFrame (s : State) (o : Nat) : (recoverFrame s o).core = s.core := by
  unfold recoverFrame; dsimp only; repeat' split
  all_goals simp
@[simp] theorem core_sprueFail (s : State) (o q : Nat) : (sprueFail s o q).core = s.core := by
  simp [sprueFail]
@[simp] theorem core_setTile (s : State) (o t : Nat) (x : TileState) : (setTile s o t x).core = s.core := by
  simp [setTile]
@[simp] theorem core_dispatch (s : State) (e : Nat) : (dispatch s e).core = s.core := by
  unfold dispatch; split <;> simp
@[simp] theorem core_stopTile (s : State) (e o t : Nat) : (stopTile s e o t).2.core = s.core := by
  unfold stopTile; split <;> simp
@[simp] theorem core_preempt  (x0 : Nat) (x1 : State) : (preempt x0 x1).core = x1.core := by
  induction x0 generalizing x1 with
  | zero => rfl
  | succ n ih =>
    unfold preempt
    split
    · rfl
    · split
      · dsimp only
        split
        · split <;> simp [ih]
        · rfl
      · rfl
@[simp] theorem core_beginEncoding (s : State) (o : Nat) (f : FrameUC) : (beginEncoding s o f).core = s.core := by
  simp [beginEncoding]
@[simp] theorem core_dropFaults (s : State) (q : Nat) : (dropFaults s q).core = s.core := by
  rfl
@[simp] theorem core_finishFrame (s : State) (o : Nat) : (finishFrame s o).core = s.core := by
  simp [finishFrame]
@[simp] theorem core_refillFailed (s : State) (o q : Nat) : (refillFailed s o q).core = s.core := by
  unfold refillFailed; dsimp only; repeat' split
  all_goals simp
@[simp] theorem core_recordFault (s : State) (o : Nat) (w : Walk) (q : Nat) : (recordFault s o w q).core = s.core := by
  rfl
@[simp] theorem core_layerPresent (s : State) (v : Nat) (path : PathId) : (layerPresent s v path).core = s.core := by
  simp [layerPresent]

end Sys2Proof.Machine
end

