-- ==== Sys2Proof/Laws/CoreCapture.lean ====
section
/-! SUPPORT. What the operations of Capture keep: the core of the state. -/
namespace Sys2Proof.Machine

@[simp] theorem core_discardRun (s : State) (i : Nat) : (discardRun s i).core = s.core := by
  simp [discardRun]
@[simp] theorem core_refuseFrame (s : State) (i : Nat) : (refuseFrame s i).core = s.core := by
  simp [refuseFrame]
@[simp] theorem core_takeBuffer (s : State) (i : Nat) (f : CapFormat) (tRef fine tc rtp : Nat) (key : Option (List Byte × Nat × Nat)) : (takeBuffer s i f tRef fine tc rtp key).core = s.core := by
  unfold takeBuffer; split <;> simp
@[simp] theorem core_sealedFrame (s : State) (i : Nat) (f : CapFormat) (tRef fine tc rtp : Nat) (metas : Option (Nat × Nat)) : (sealedFrame s i f tRef fine tc rtp metas).core = s.core := by
  unfold sealedFrame; repeat' split
  all_goals simp
@[simp] theorem core_netSend (s : State) (p : Nat) (l : List Byte) : (netSend s p l).core = s.core := by
  rfl
@[simp] theorem core_hostPlaces (write : Bool) (x0 : Nat) (x1 : Nat) (x2 : State) : (hostPlaces write x0 x1 x2).1.core = x2.core := by
  induction x0 generalizing x1 x2 with
  | zero => rfl
  | succ n ih =>
    unfold hostPlaces
    have h := core_hostAccess x2 x1 write
    split <;> rename_i eq <;> rw [eq] at h
    · exact (ih _ _).trans h
    · exact h
@[simp] theorem core_reportGroups (s : State) (old : WordMap) (p : Nat) : (reportGroups s old p).core = s.core := by
  simp [reportGroups]
@[simp] theorem core_hostFault (s : State) (f : Nat × Nat × Nat) (write : Bool) : (hostFault s f write).core = s.core := by
  simp [hostFault]
@[simp] theorem core_wakeHbm (s : State) : (wakeHbm s).core = s.core := by
  simp [wakeHbm]

end Sys2Proof.Machine
end

