-- ==== Sys2Proof/Laws/CoreLadle.lean ====
section
/-! SUPPORT. What the operations of Ladle keep: the core of the state. -/
namespace Sys2Proof.Machine

@[simp] theorem core_stageWord (s : State) (path : PathId) (a : Nat) (v : Word) : (stageWord s path a v).core = s.core := by
  rfl
@[simp] theorem core_refuseStage (s : State) (p : Pour) (path : PathId) : (refuseStage s p path).core = s.core := by
  simp [refuseStage]
@[simp] theorem core_stageNow (s : State) (path : PathId) (a : Nat) (v : Word) : (stageNow s path a v).1.core = s.core := by
  unfold stageNow; repeat' split
  all_goals simp
@[simp] theorem core_flushHeld (s : State) : (flushHeld s).core = s.core := by
  simp [flushHeld]
@[simp] theorem core_lsWrite (s : State) (path : PathId) (a : Nat) (v : Word) : (lsWrite s path a v).1.core = s.core := by
  unfold lsWrite; repeat' split
  all_goals simp
@[simp] theorem core_reportCheck (s : State) (f : PourFail) : (reportCheck s f).core = s.core := by
  rfl
@[simp] theorem core_beginPour (s : State) (mask : Nat) (targeted : Bool) (target : Nat) (kind : PourKind) (path : PathId) : (beginPour s mask targeted target kind path).core = s.core := by
  rfl
@[simp] theorem core_rejectRequest (s : State) (mask check : Nat) (path : PathId) : (rejectRequest s mask check path).core = s.core := by
  simp [rejectRequest]
@[simp] theorem core_stageWords (s : State) (path : PathId) (ws : List (Nat × Word)) : (stageWords s path ws).core = s.core := by
  simp [stageWords]
@[simp] theorem core_saveTouched (s : State) (saved : List (Nat × Option Word)) : (saveTouched s saved).core = s.core := by
  rfl
@[simp] theorem core_stageResults (s : State) (r : AnnRun) : (stageResults s r).core = s.core := by
  simp [stageResults]
@[simp] theorem core_annealKick (s : State) : (annealKick s).core = s.core := by
  unfold annealKick; split <;> simp
@[simp] theorem core_pourWrite (s : State) (path : PathId) (v target : Nat) : (pourWrite s path v target).1.core = s.core := by
  unfold pourWrite; dsimp only; repeat' split
  all_goals simp
@[simp] theorem core_findJournal (s : State) (base size : Nat) : (findJournal s base size).core = s.core := by
  unfold findJournal; dsimp only; split <;> simp
@[simp] theorem core_takeOffsets (s : State) : (takeOffsets s).core = s.core := by
  simp [takeOffsets]
@[simp] theorem core_takeDarks (s : State) : (takeDarks s).core = s.core := by
  simp [takeDarks]
@[simp] theorem core_selectFsp (s : State) : (selectFsp s).core = s.core := by
  simp [selectFsp, zeroDebts]
@[simp] theorem core_buildPools (s : State) : (buildPools s).core = s.core := by
  rfl
@[simp] theorem core_dawnFail (s : State) (cause : Nat) : (dawnFail s cause).core = s.core := by
  simp [dawnFail]
@[simp] theorem core_armPour (s : State) : (armPour s).core = s.core := by
  rfl
@[simp] theorem core_takeWords (s : State) (p : Pour) : (takeWords s p).core = s.core := by
  rfl
@[simp] theorem core_freshBins (s : State) (v : PourView) : (freshBins s v).core = s.core := by
  simp [freshBins]
@[simp] theorem core_commitStrings (s : State) (v : PourView) (dawn : Bool) : (commitStrings s v dawn).core = s.core := by
  simp [commitStrings]
@[simp] theorem core_advanceVersions (s : State) (v : PourView) (before : List Rat) : (advanceVersions s v before).core = s.core := by
  simp [advanceVersions]
@[simp] theorem core_commitEdid (s : State) (v : PourView) (i : Nat) : (commitEdid s v i).core = s.core := by
  simp [commitEdid]
@[simp] theorem core_commitPtp (s : State) (v : PourView) : (commitPtp s v).core = s.core := by
  simp [commitPtp]
@[simp] theorem core_commitStill (s : State) (v : PourView) : (commitStill s v).core = s.core := by
  simp [commitStill]
@[simp] theorem core_commitDisables (s : State) (p : Pour) (v : PourView) : (commitDisables s p v).core = s.core := by
  simp [commitDisables]
@[simp] theorem core_commitGenerators (s : State) : (commitGenerators s).core = s.core := by
  simp [commitGenerators]
@[simp] theorem core_foldl_chan (p q : State → Nat → Nat) (f : ChanState → ChanState) (l : List Nat) (s : State) :
    (l.foldl (fun s nn => s.modChan (p s nn) (q s nn) f) s).core = s.core := core_foldl _ _ (fun _ _ => core_chan _ _ _ _) _
@[simp] theorem core_annealApplied (s : State) : (annealApplied s).core = s.core := by
  unfold annealApplied
  split
  · rfl
  · dsimp only
    simp
@[simp] theorem core_announcePour (s : State) (p : Pour) (counter : Nat) : (announcePour s p counter).core = s.core := by
  unfold announcePour; split <;> simp

end Sys2Proof.Machine
end

