-- ==== Sys2Proof/Laws/CoreAnneal.lean ====
section
/-! SUPPORT. What the operations of Anneal keep: the core of the state. -/
namespace Sys2Proof.Machine

@[simp] theorem core_annStart (s : State) (path : PathId) (v : Nat) : (annStart s path v).core = s.core := by
  simp [annStart]
@[simp] theorem core_annAbort (s : State) : (annAbort s).core = s.core := by
  simp [annAbort]
@[simp] theorem core_holdPoint (s : State) (r : AnnRun) : (holdPoint s r).core = s.core := by
  unfold holdPoint; split <;> simp
@[simp] theorem core_startAxis (s : State) (r : AnnRun) (step o : Nat) : (startAxis s r step o).core = s.core := by
  simp [startAxis]
@[simp] theorem core_finishRun (s : State) (r : AnnRun) : (finishRun s r).core = s.core := by
  unfold finishRun; dsimp only; split <;> simp
@[simp] theorem core_enterStep (s : State) (r : AnnRun) (x0 : List (Nat × Nat)) : (enterStep s r x0).core = s.core := by
  induction x0 with
  | nil => simp [enterStep]
  | cons a l ih =>
    obtain ⟨step, o⟩ := a
    unfold enterStep
    split <;> simp [ih]
@[simp] theorem core_abortAt (s : State) (cause item : Nat) : (abortAt s cause item).core = s.core := by
  simp [abortAt]
@[simp] theorem core_passPre (s : State) (r : AnnRun) (darks : List Nat) : (passPre s r darks).core = s.core := by
  simp [passPre]
@[simp] theorem core_passPost (s : State) (r : AnnRun) : (passPost s r).core = s.core := by
  simp [passPost]
@[simp] theorem core_refuseRun (s : State) : (refuseRun s).core = s.core := by
  unfold refuseRun; split <;> simp
@[simp] theorem core_flashWaitOver (s : State) : (flashWaitOver s).core = s.core := by
  unfold flashWaitOver; dsimp only; split <;> simp

end Sys2Proof.Machine
end

