-- ==== Sys2Proof/Laws/CoreCrucible.lean ====
section
/-! SUPPORT. What the operations of Crucible keep: the core of the state. -/
namespace Sys2Proof.Machine

@[simp] theorem core_purgeKeys (s : State) : (purgeKeys s).core = s.core := by
  rfl
theorem core_storeKey (s : State) (k : KeySlot) (t : State) (h : storeKey s k = some t) : t.core = s.core := by
  unfold storeKey at h
  simp only [Option.map_eq_some_iff] at h
  obtain ⟨i, -, rfl⟩ := h
  simp only [core_cruc]
  split <;> simp
@[simp] theorem core_judgeKdm (s : State) (k : Kdm) : (judgeKdm s k).2.core = s.core := by
  unfold judgeKdm
  repeat' split
  all_goals first | rfl | exact core_storeKey _ _ _ ‹_›
@[simp] theorem core_kdmDone (s : State) (result keyId : Nat) : (kdmDone s result keyId).core = s.core := by
  rfl
@[simp] theorem core_kdmSubmit (s : State) (path : PathId) : (kdmSubmit s path).core = s.core := by
  have h := core_judgeKdm s (readKdm s.act)
  unfold kdmSubmit
  simp [h]
@[simp] theorem core_kdmDiscard (s : State) (keyId : Nat) : (kdmDiscard s keyId).core = s.core := by
  simp [kdmDiscard]
@[simp] theorem core_kdmPurge (s : State) : (kdmPurge s).core = s.core := by
  simp [kdmPurge]
@[simp] theorem core_sealHost (s : State) (v : Word) : (sealHost s v).core = s.core := by
  simp [sealHost]
@[simp] theorem core_reseed (s : State) : (reseed s).core = s.core := by
  rfl
@[simp] theorem core_randomBytes (s : State) (n : Nat) : (randomBytes s n).2.core = s.core := by
  rfl
@[simp] theorem core_zeroise (s : State) : (zeroise s).core = s.core := by
  unfold zeroise
  dsimp only
  simp only [core_reseed, core_cruc]
  refine (core_foldl _ _ (fun t k => core_closeSession t k 4) _).trans (core_foldl _ _ (fun t i => ?_) _)
  split
  · split <;> simp
  · rfl
@[simp] theorem core_closeCrucible (s : State) : (closeCrucible s).core = s.core := by
  rfl
@[simp] theorem core_mailboxDone (s : State) (path : PathId) (l : List Byte) : (mailboxDone s path l).core = s.core := by
  unfold mailboxDone; split <;> simp
@[simp] theorem core_sendMessage (s : State) (carrier : PathId) (l : List Byte) : (sendMessage s carrier l).core = s.core := by
  simp [sendMessage]
@[simp] theorem core_sessionFail (s : State) (path : PathId) (op peer port cause : Nat) : (sessionFail s path op peer port cause).core = s.core := by
  simp [sessionFail]
@[simp] theorem core_shakeFail (s : State) (path : PathId) (op peer port cause : Nat) : (shakeFail s path op peer port cause).core = s.core := by
  simp [shakeFail]
@[simp] theorem core_hello (s : State) (path : PathId) (peer port : Nat) (l : List Byte) : (hello s path peer port l).core = s.core := by
  unfold hello; repeat' split
  all_goals simp
@[simp] theorem core_openSession (s : State) (h : Handshake) (k : Nat) : (openSession s h k).core = s.core := by
  simp [openSession]
@[simp] theorem core_finish (s : State) (path : PathId) (l : List Byte) : (finish s path l).core = s.core := by
  unfold finish; repeat' split
  all_goals simp
@[simp] theorem core_dropMessage (s : State) (k seq : Nat) (body mac : List Byte) : (dropMessage s k seq body mac).core = s.core := by
  unfold dropMessage; split <;> simp
@[simp] theorem core_sessionSend (s : State) (k : Nat) (x : Session) (type : Nat) (body : List Byte) : (sessionSend s k x type body).2.2.core = s.core := by
  simp [sessionSend]
@[simp] theorem core_putSession (s : State) (k : Nat) (x : Session) : (putSession s k x).core = s.core := by
  rfl
@[simp] theorem core_resend (s : State) (k seq : Nat) (body mac : List Byte) : (resend s k seq body mac).core = s.core := by
  unfold resend; split <;> simp
@[simp] theorem core_closeMessage (s : State) (k seq : Nat) (body mac : List Byte) : (closeMessage s k seq body mac).core = s.core := by
  unfold closeMessage; split <;> simp

end Sys2Proof.Machine
end

