-- ==== Sys2Proof/Laws/CoreRegisters.lean ====
section
/-! SUPPORT. What the operations of Registers keep: the core of the state. -/
namespace Sys2Proof.Machine

@[simp] theorem core_undefinedAddr (s : State) (path : PathId) (a : Nat) : (undefinedAddr s path a).core = s.core := by
  simp [undefinedAddr]
@[simp] theorem core_readWord (s : State) (path : PathId) (a : Nat) : (readWord s path a).1.core = s.core := by
  unfold readWord; repeat' split
  all_goals simp

end Sys2Proof.Machine
end

