-- ==== Sys2Proof/Laws/CoreReset.lean ====
section
/-! SUPPORT. What the operations of Reset keep: the core of the state. -/
namespace Sys2Proof.Machine


end Sys2Proof.Machine
end

