-- ==== Sys2Proof/Laws/CoreBus.lean ====
section
/-! SUPPORT. What the operations of Bus keep: the core of the state. -/
namespace Sys2Proof.Machine

@[simp] theorem core_annCtrl (s : State) (v : Nat) (path : PathId) : (annCtrl s v path).core = s.core := by
  simp [annCtrl]
@[simp] theorem core_kdmCmd (s : State) (v : Nat) (path : PathId) : (kdmCmd s v path).core = s.core := by
  unfold kdmCmd; split <;> simp
@[simp] theorem core_putWord (s : State) (a : Nat) (v : Word) : (putWord s a v).core = s.core := by
  rfl
@[simp] theorem core_writeEvtRead (s : State) (path : PathId) (v : Word) : (writeEvtRead s path v).core = s.core := by
  rfl
@[simp] theorem core_writeRw (s : State) (path : PathId) (a : Nat) (v : Word) : (writeRw s path a v).core = s.core := by
  simp [writeRw]
@[simp] theorem core_clearPds (s : State) (v : Nat) : (clearPds s v).core = s.core := by
  simp [clearPds]
@[simp] theorem core_clearFailed (s : State) (nn : Nat) : (clearFailed s nn).core = s.core := by
  simp [clearFailed]
@[simp] theorem core_clearDone (s : State) (x0 : PathId) : (clearDone s x0).core = s.core := by
  unfold clearDone; split <;> simp
@[simp] theorem core_writeW1c (s : State) (path : PathId) (a : Nat) (v : Word) : (writeW1c s path a v).core = s.core := by
  simp [writeW1c]
@[simp] theorem core_refuseSe (s : State) (path : PathId) (a : Nat) : (refuseSe s path a).core = s.core := by
  simp [refuseSe]
@[simp] theorem core_writeMailbox (s : State) (path : PathId) (a : Nat) (v : Word) : (writeMailbox s path a v).core = s.core := by
  unfold writeMailbox; split <;> simp
@[simp] theorem core_misaligned (s : State) (path : PathId) : (misaligned s path).core = s.core := by
  simp [misaligned]
@[simp] theorem core_gatedRead (s : State) (path : PathId) (a : Nat) : (gatedRead s path a).1.core = s.core := by
  unfold gatedRead; repeat' split
  all_goals simp
@[simp] theorem core_gatedReads (path : PathId) (x0 : Nat) (x1 : Nat) (x2 : State) : (gatedReads path x0 x1 x2).1.core = x2.core := by
  induction x0 generalizing x1 x2 with
  | zero => rfl
  | succ n ih =>
    unfold gatedReads
    have h := core_gatedRead x2 path x1
    split <;> rename_i eq <;> rw [eq] at h
    · exact (ih _ _).trans h
    · exact h

end Sys2Proof.Machine
end

