-- ==== Sys2Proof/Laws/CoreChecks.lean ====
section
/-! SUPPORT. The check lists of a Pour only report: they keep the core of the state. -/
namespace Sys2Proof.Machine

variable (s : State) (v : PourView)

theorem core_andThen (a : Checked) (f : State → Checked) (c) (ha : a.1.core = c) (hf : ∀ t : State, t.core = c → (f t).1.core = c) :
    (a.andThen f).1.core = c := by
  unfold Checked.andThen
  split
  · exact ha
  · exact hf _ ha

theorem core_eachOutput (affected : Nat → Bool) (f : State → Nat → Checked) (hf : ∀ t o, (f t o).1.core = t.core) :
    (eachOutput s affected f).1.core = s.core := by
  unfold eachOutput
  refine core_foldl_fst _ (fun t x => ?_) outputs (s, none)
  split
  · rfl
  · split
    · exact hf _ _
    · rfl

@[simp] theorem core_compReport (f : CompFail) : (compReport s f).1.core = s.core := by
  simp [compReport]

theorem core_inputList : (inputList s v).1.core = s.core := by
  unfold inputList
  dsimp only
  split
  · split <;> simp
  · rfl

theorem core_runnerList : (runnerList s v).1.core = s.core := by
  unfold runnerList
  dsimp only
  split
  · split <;> simp
  · rfl

theorem core_hbmList : (hbmList s v).1.core = s.core := by
  unfold hbmList
  split
  · split <;> simp
  · rfl

theorem core_composerList : (composerList s v).1.core = s.core := by
  unfold composerList
  dsimp only
  split
  · split <;> simp
  · rfl

theorem core_pixelList : (pixelList s v).1.core = s.core := by
  unfold pixelList
  refine core_eachOutput _ _ _ fun t o => ?_
  dsimp only
  repeat' split
  all_goals simp

theorem core_planeList (z : Snapshot) : (planeList s v z).1.core = s.core := by
  unfold planeList
  refine core_eachOutput _ _ _ fun t o => ?_
  repeat' split
  all_goals simp

theorem core_seqList : (seqList s v).1.core = s.core := by
  unfold seqList
  refine core_eachOutput _ _ _ fun t o => ?_
  repeat' split
  all_goals simp

theorem core_portList : (portList s v).1.core = s.core := by
  unfold portList
  refine core_eachOutput _ _ _ fun t o => ?_
  repeat' split
  all_goals simp

theorem core_driveList : (driveList s v).1.core = s.core := by
  unfold driveList
  repeat' split
  all_goals simp

theorem core_thermalList : (thermalList s v).1.core = s.core := by
  unfold thermalList
  repeat' split
  all_goals simp

theorem core_guardList (b : Bool) : (guardList s v b).1.core = s.core := by
  unfold guardList
  refine core_eachOutput _ _ _ fun t o => ?_
  dsimp only
  repeat' split
  all_goals simp

theorem core_runLists (flux : List Rat) (b : Bool) : (runLists s v flux b).1.core = s.core := by
  unfold runLists
  dsimp only
  refine core_andThen _ _ _ ?_ fun t h => (core_guardList t v b).trans h
  refine core_andThen _ _ _ ?_ fun t h => (core_thermalList t v).trans h
  refine core_andThen _ _ _ ?_ fun t h => (core_driveList t v).trans h
  refine core_andThen _ _ _ ?_ fun t h => (core_portList t v).trans h
  refine core_andThen _ _ _ ?_ fun t h => (core_seqList t v).trans h
  refine core_andThen _ _ _ ?_ fun t h => (core_planeList t v _).trans h
  refine core_andThen _ _ _ ?_ fun t h => (core_pixelList t v).trans h
  refine core_andThen _ _ _ ?_ fun t h => (core_composerList t v).trans h
  refine core_andThen _ _ _ ?_ fun t h => (core_hbmList t v).trans h
  refine core_andThen _ _ _ ?_ fun t h => (core_runnerList t v).trans h
  refine core_andThen _ _ _ ?_ fun t h => (core_inputList t v).trans h
  rfl

end Sys2Proof.Machine
end

