-- ==== Sys2Proof/Laws/CoreManage.lean ====
section
/-! SUPPORT. What the operations of Manage keep: the core of the state. -/
namespace Sys2Proof.Machine

@[simp] theorem core_pourCommand (s : State) (path : PathId) (v : Word) (target : Nat) : (pourCommand s path v target).core = s.core := by
  unfold pourCommand; split <;> simp
@[simp] theorem core_withCommandRole (s : State) (path : PathId) (role : Nat) (f : State → State) (hf : ∀ t, (f t).core = t.core) : (withCommandRole s path role f).core = s.core := by
  unfold withCommandRole; repeat' split
  all_goals simp [*]
@[simp] theorem core_applyIngot (s : State) (path : PathId) : (applyIngot s path).core = s.core := by
  unfold applyIngot; split <;> simp
@[simp] theorem core_withSession (s : State) (path : PathId) (role : Nat) (f : State → State) (hf : ∀ t, (f t).core = t.core) : (withSession s path role f).core = s.core := by
  unfold withSession; repeat' split
  all_goals simp [*]
@[simp] theorem core_setTime (s : State) (path : PathId) (ns : Nat) : (setTime s path ns).core = s.core := by
  simp [setTime]
@[simp] theorem core_readCommand (s : State) (path : PathId) (addr count room : Nat) : (readCommand s path addr count room).core = s.core := by
  unfold readCommand
  have h := core_gatedReads path count addr s
  split
  · simp
  · split <;> rename_i eq <;> rw [eq] at h <;> simp [h]
@[simp] theorem core_mailboxBegin (s : State) (path : PathId) : (mailboxBegin s path).core = s.core := by
  unfold mailboxBegin; split <;> simp
@[simp] theorem core_spiEnd (s : State) (op result : Nat) (out : List Byte) : (spiEnd s op result out).core = s.core := by
  simp [spiEnd]
@[simp] theorem core_spiRead (s : State) (l : List Byte) (ready : Bool) : (spiRead s l ready).core = s.core := by
  unfold spiRead
  dsimp only
  split
  · split
    · simp
    · have h := core_gatedReads .spi (beAt l 1 1) (beAt l 2 4) s
      split <;> rename_i eq <;> rw [eq] at h <;> simp [h]
  · simp

end Sys2Proof.Machine
end

