-- ==== Sys2Proof/Laws/CoreDawn.lean ====
section
/-! SUPPORT. What the operations of Dawn keep: the core of the state. -/
namespace Sys2Proof.Machine

@[simp] theorem core_supplyFail (s : State) : (supplyFail s).core = s.core := by
  simp [supplyFail]
@[simp] theorem core_drawSeeds  (x0 : Nat) (x1 : List Nat) (x2 : State) : (drawSeeds x0 x1 x2).2.core = x2.core := by
  induction x0 generalizing x1 x2 with
  | zero => rfl
  | succ n ih => unfold drawSeeds; simp [ih]
@[simp] theorem core_seedDraws (s : State) : (seedDraws s).core = s.core := by
  have h := core_drawSeeds 48 [] s
  unfold seedDraws
  simp [h]
@[simp] theorem core_noteCause (s : State) (c cause : Nat) : (noteCause s c cause).core = s.core := by
  simp [noteCause]
@[simp] theorem core_selectCopy (s : State) : (selectCopy s).1.core = s.core := by
  unfold selectCopy; dsimp only; repeat' split
  all_goals simp
@[simp] theorem core_trainAll (s : State) (pass : Nat) : (trainAll s pass).core = s.core := by
  simp [trainAll]
@[simp] theorem core_readBoards (s : State) (eeproms : List (Option (List Byte))) : (readBoards s eeproms).core = s.core := by
  rfl
@[simp] theorem core_markShutdown (s : State) : (markShutdown s).core = s.core := by
  simp [markShutdown]
@[simp] theorem core_dawnSources (s : State) : (dawnSources s).core = s.core := by
  rfl
@[simp] theorem core_recordSession (s : State) : (recordSession s).core = s.core := by
  simp [recordSession]
@[simp] theorem core_dropOutput (s : State) (o : Nat) : (dropOutput s o).core = s.core := by
  simp [dropOutput]
@[simp] theorem core_duskRefresh (s : State) : (duskRefresh s).core = s.core := by
  unfold duskRefresh
  split <;> simp
@[simp] theorem core_failDusk (s : State) : (failDusk s).core = s.core := by
  simp [failDusk]

end Sys2Proof.Machine
end

