-- ==== Sys2Proof/Laws/Grows.lean ====
section
/-! SUPPORT. The operations that write fuses or memories: each only burns fuses, and keeps the memories canonical and the shape. -/
namespace Sys2Proof.Machine

variable {a : FuseState × List Instr × Memory × Memory × Memory × List Nat × List Nat} {s : State}

theorem wf_zeroExtents (m : Memory) (l : List (Nat × Nat)) (h : Memory.wf ramDefault m = true) : Memory.wf ramDefault (zeroExtents m l) = true :=
  Memory.wf_foldl _ _ (fun _ _ w => Memory.wf_clear _ _ _ _ w) _ _ h

/-! ### Capture buffers -/

@[simp] theorem grows_pruneOld (i : Nat) (h : Grows a s.core) : Grows a (pruneOld s i).core := by
  unfold pruneOld
  dsimp only
  repeat' split
  all_goals first
    | exact h
    | (simp only [core_surf]; exact grows_hbm _ (wf_zeroExtents _ _) (by simpa using h))
    | simpa using h

@[simp] theorem grows_pruneAll (h : Grows a s.core) : Grows a (pruneAll s).core :=
  grows_foldl _ (fun _ _ ht => grows_pruneOld _ ht) _ h

@[simp] theorem grows_startCapture (i : Nat) (fmt : CapFormat) (tRef fine tc rtp : Nat) (metas : Option (Nat × Nat)) (h : Grows a s.core) :
    Grows a (startCapture s i fmt tRef fine tc rtp metas).core := by
  have k : Grows a (pruneOld (discardRun s i) i).core := grows_pruneOld _ (by simpa using h)
  unfold startCapture
  dsimp only
  repeat' split
  all_goals simpa using k

@[simp] theorem grows_storeCapture (i : Nat) (r : CapRun) (words : List Nat) (h : Grows a s.core) :
    Grows a (storeCapture s i r words).core := by
  unfold storeCapture
  simp only [core_in]
  exact grows_hbm _ (Memory.wf_store _ _ _ _) h

@[simp] theorem grows_announceFrame (i : Nat) (prev : Option CapFormat) (fmt : CapFormat) (h : Grows a s.core) :
    Grows a (announceFrame s i prev fmt).core := by
  unfold announceFrame
  dsimp only
  refine grows_foldl _ (fun t o ht => ?_) _ (grows_pruneOld _ ?_)
  · split <;> simpa using ht
  · repeat' split
    all_goals simpa using h

/-! ### Flash and fuses -/

@[simp] theorem grows_eraseFlash (x n : Nat) (h : Grows a s.core) : Grows a (eraseFlash s x n).core :=
  grows_flash _ (Memory.wf_clear _ _ _ _) h

@[simp] theorem grows_programFlash (x : Nat) (l : List Byte) (h : Grows a s.core) : Grows a (programFlash s x l).core :=
  grows_flash _ (Memory.wf_store _ _ _ _) h

@[simp] theorem grows_raiseFloor (c : Nat) (h : Grows a s.core) : Grows a (raiseFloor s c).core := by
  unfold raiseFloor
  dsimp only
  split
  · exact grows_fuse _ ⟨rfl, rfl, rfl, rfl, rfl, rfl, rfl, rfl, Nat.le_max_left _ _, fun _ _ h => h, fun _ h => h⟩ h
  · exact h

@[simp] theorem grows_journalAdvance (h : Grows a s.core) : Grows a (journalAdvance s).core := by
  unfold journalAdvance
  dsimp only
  split
  · exact grows_flash _ (Memory.wf_clear _ _ _ _) (by simpa using h)
  · simpa using h

@[simp] theorem grows_closeWindow (h : Grows a s.core) : Grows a (closeWindow s).core := by
  unfold closeWindow
  dsimp only
  split
  · simpa using h
  · have k := fun t : State => @grows_journalAdvance a t
    split
    · exact (core_jrn _ _).symm ▸ k _ (by simpa using h)
    · exact (core_aod _ _).symm ▸ k _ (by simpa using h)

@[simp] theorem grows_commitIngot (u : Update) (h : Grows a s.core) : Grows a (commitIngot s u).core := by
  unfold commitIngot
  dsimp only
  split
  · split <;> simp [h]
  · split <;> simp [h]

@[simp] theorem grows_resumeIngot (h : Grows a s.core) : Grows a (resumeIngot s).core := by
  unfold resumeIngot
  split
  · exact h
  · split
    · simp [h]
    · split <;> simp [h]

@[simp] theorem grows_beginIngot (path : PathId) (n : Nat) (h : Grows a s.core) : Grows a (beginIngot s path n).core := by
  unfold beginIngot
  dsimp only
  split
  · simpa using h
  · split
    · simpa using h
    · simp only [core_answer, core_journalIngot]
      split
      · exact grows_eraseFlash _ _ (by simpa using h)
      · simpa using h

@[simp] theorem grows_dataIngot (n : Nat) (l : List Byte) (h : Grows a s.core) : Grows a (dataIngot s n l).core := by
  unfold dataIngot
  repeat' split
  all_goals simp only [core_answer, core_mgmt]
  all_goals first | exact h | exact grows_programFlash _ _ h

@[simp] theorem grows_commitRequest (h : Grows a s.core) : Grows a (commitRequest s).core := by
  unfold commitRequest
  repeat' split
  all_goals first | (simp only [core_answer, core_mgmt]; exact h) | with_reducible exact grows_commitIngot _ h

@[simp] theorem grows_openWindow (h : Grows a s.core) : Grows a (openWindow s).core := by
  simp [openWindow, h]

@[simp] theorem grows_judgeWindow (h : Grows a s.core) : Grows a (judgeWindow s).core := by
  unfold judgeWindow
  dsimp only
  repeat' split
  all_goals first
    | (simp only [core_therm]; exact h)
    | exact grows_closeWindow (by simpa using h)
    | exact grows_openWindow (by simpa using h)

@[simp] theorem grows_sensorConversion (counts : List (Nat × Nat)) (h : Grows a s.core) : Grows a (sensorConversion counts s).core := by
  unfold sensorConversion
  dsimp only
  split <;> simp [h]

/-! ### The Quench latch, zone masks and frames -/

@[simp] theorem grows_afterRelease (h : Grows a s.core) : Grows a (afterRelease s).core := by
  unfold afterRelease
  dsimp only
  refine grows_foldl _ (fun t o ht => ?_) _ (grows_foldl _ (fun t o ht => ?_) _ ?_)
  · split <;> simp [ht]
  · split <;> simp [ht]
  · repeat' split
    all_goals simp [h]

@[simp] theorem grows_releaseLatch (path : PathId) (h : Grows a s.core) : Grows a (releaseLatch s path).core := by
  simp [releaseLatch, h]

@[simp] theorem grows_requestRelease (path : PathId) (h : Grows a s.core) : Grows a (requestRelease s path).core := by
  unfold requestRelease
  repeat' split
  all_goals simp [h]

@[simp] theorem grows_makeResident (o : Nat) (h : Grows a s.core) : Grows a (makeResident s o).core := by
  unfold makeResident
  dsimp only
  split
  · exact grows_fs _ (fun w => Memory.wf_store _ _ _ _ (Memory.wf_store _ _ _ _ w)) (by simpa using h)
  · simpa using h

@[simp] theorem grows_makeTile (h : Grows a s.core) : Grows a (makeTile s).core :=
  grows_fs _ (Memory.wf_store _ _ _ _) h

@[simp] theorem grows_zoneFail (o sig : Nat) (h : Grows a s.core) : Grows a (zoneFail s o sig).core := by
  simp [zoneFail, h]

@[simp] theorem grows_adoptCounter (o : Nat) (h : Grows a s.core) : Grows a (adoptCounter s o).core := by
  unfold adoptCounter
  dsimp only
  split
  · split
    · simp [grows_tg, h]
    · exact h
  · exact h

@[simp] theorem grows_frameBoundary (o : Nat) (h : Grows a s.core) : Grows a (frameBoundary s o).core := by
  simp [frameBoundary, grows_tg, h]

theorem grows_restartTiming (o since : Nat) (h : Grows a s.core) : Grows a (restartTiming s o since).core := by
  simp [restartTiming, grows_tg, h]

/-! ### Composition -/

theorem grows_markRefs (o frame : Nat) (sources : List (Nat × Source)) (h : Grows a s.core) : Grows a (markRefs s o frame sources).core := by
  unfold markRefs
  refine grows_pruneAll (grows_foldl _ (fun t e ht => ?_) _ (by simpa using h))
  split <;> simpa using ht

theorem grows_bin (o : Nat) (f : FrameUC) (h : Grows a s.core) : Grows a (bin s o f).core := by
  have k := core_foldl_fst (judgeLayer f.snap.cfg o) (fun t l => core_judgeLayer _ _ t l) (layersOf f.snap.cfg o) (s, [])
  unfold bin
  dsimp only
  split
  · simp only [core_recovered, core_abandonFrame, core_fault]
    exact grows_markRefs _ _ _ (by simpa [k] using h)
  · simp only [core_composer]
    exact grows_markRefs _ _ _ (by simpa [k] using h)

theorem grows_startBinning (o : Nat) (h : Grows a s.core) : Grows a (startBinning s o).core := by
  unfold startBinning
  split
  · exact h
  · split
    · exact grows_bin _ _ h
    · simpa using h

theorem grows_compositionStart (o : Nat) (h : Grows a s.core) : Grows a (compositionStart s o).core := by
  unfold compositionStart
  dsimp only
  split
  · simpa using h
  · split
    · simpa using h
    · exact grows_startBinning _ (by simpa using h)

theorem grows_writeWarp (o : Nat) (f : FrameUC) (px : List (Nat × Nat)) (h : Grows a s.core) : Grows a (writeWarp s o f px).core := by
  unfold writeWarp
  dsimp only
  split
  · exact h
  · refine grows_hbm _ (fun w => Memory.wf_foldl _ _ (fun m x hm => ?_) _ _ w) h
    split
    · exact Memory.wf_store _ _ _ _ hm
    · exact hm

/-! ### HBM3 -/

@[simp] theorem grows_finishWrite (p : HbmPlace) (runner addr : Nat) (data : List Byte) (parity : Nat) (h : Grows a s.core) :
    Grows a (finishWrite s p runner addr data parity).core := by
  unfold finishWrite
  dsimp only
  split
  · simp [h]
  · simp only [core_answerRunner]
    exact grows_hbm _ (Memory.wf_store _ _ _ _) (by simpa using h)

/-! ### Pours -/

@[simp] theorem grows_freshArea (h : Grows a s.core) : Grows a (freshArea s).core :=
  grows_flash _ (Memory.wf_clear _ _ _ _) (by simpa using h)

@[simp] theorem grows_readStores (old : List Nat) (h : Grows a s.core) : Grows a (readStores s old).core := by
  have key : ∀ t : State, Grows a t.core →
      Grows a (if (old != s.mgmt.layout && old.any (· != 0)) = true ∨ (lastRecord (journalRecords s.flash
        (nth (if (old != s.mgmt.layout && old.any (· != 0)) = true then old else s.mgmt.layout) 4 0)
        (nth (if (old != s.mgmt.layout && old.any (· != 0)) = true then old else s.mgmt.layout) 5 0))).isNone then freshArea t
        else journalAdvance t).core := by
    intro t ht
    split <;> simp [ht]
  unfold readStores
  refine key _ ?_
  split
  · simp only [core_takeOffsets]
    split
    · exact grows_flash _ (fun w => Memory.wf_store _ _ _ _ (Memory.wf_clear _ _ _ _ w)) (by simpa using h)
    · simpa using h
  · simpa using h

@[simp] theorem grows_dawnApply (c : Nat) (h : Grows a s.core) : Grows a (dawnApply s c).core := by
  simp [dawnApply, h]

@[simp] theorem grows_dawnReject (h : Grows a s.core) : Grows a (dawnReject s).core := by
  unfold dawnReject
  dsimp only
  repeat' split
  all_goals simp [h]

@[simp] theorem grows_rejectPour (p : Pour) (f : PourFail) (h : Grows a s.core) : Grows a (rejectPour s p f).core := by
  unfold rejectPour
  dsimp only
  repeat' split
  all_goals simp [h]

@[simp] theorem grows_ingotApplied (path : PathId) (h : Grows a s.core) : Grows a (ingotApplied s path).core := by
  unfold ingotApplied
  split
  · exact h
  · simp only [core_journalIngot, core_raiseP]
    exact grows_raiseFloor _ (by simpa using h)

theorem grows_takeAreas (m : WordMap) (x : SurfState) (h : Grows a s.core) : Grows a (takeAreas s m x).core :=
  h.trans ⟨s.fuse.burntFrom_refl, rfl, fun ⟨x, y, z, w⟩ => ⟨x, y, wf_zeroExtents _ _ z, w⟩⟩

theorem grows_commitComposer (v : PourView) (h : Grows a s.core) : Grows a (commitComposer s v).core := by
  unfold commitComposer
  dsimp only
  refine grows_foldl _ (fun t o ht => by simpa using ht) _ ?_
  split
  · exact grows_takeAreas _ _ (by simpa using h)
  · simpa using h

theorem grows_commitInput (v : PourView) (i : Nat) (h : Grows a s.core) : Grows a (commitInput s v i).core := by
  unfold commitInput
  dsimp only
  repeat' split
  all_goals first | exact grows_pruneOld _ (by simpa using h) | simpa using h

theorem grows_commitInputs (v : PourView) (h : Grows a s.core) : Grows a (commitInputs s v).core := by
  have k : Grows a ((List.range 8).foldl (fun s i => commitInput s v i) s).core :=
    grows_foldl _ (fun _ _ ht => grows_commitInput _ _ ht) _ h
  unfold commitInputs
  dsimp only
  split
  all_goals simpa [apply_ite State.core] using k

@[simp] theorem grows_commitBlocks (p : Pour) (v : PourView) (h : Grows a s.core) : Grows a (commitBlocks s p v).core := by
  have k : Grows a (commitDisables (commitStill (commitInputs (commitComposer (commitStrings s v (p.kind == .dawn)) v) v) v) p v).core := by
    simp only [core_commitDisables, core_commitStill]
    exact grows_commitInputs _ (grows_commitComposer _ (by simpa using h))
  have zones : ∀ t : State, Grows a t.core → Grows a (if p.kind = .dawn ∨ p.kind = .ingotApply then outputs.foldl makeResident t else t).core := by
    intro t ht
    split
    · exact grows_foldl _ (fun _ _ hu => grows_makeResident _ hu) _ ht
    · exact ht
  have tile : ∀ t : State, Grows a t.core → Grows a (if p.kind = .dawn ∨ v.touches 0x0A700000 0x0A708000 then makeTile t else t).core := by
    intro t ht
    split
    · exact grows_makeTile ht
    · exact ht
  have k3 := tile _ (zones _ k)
  unfold commitBlocks
  simp only [core_commitGenerators, core_advanceVersions]
  revert k3
  generalize (if p.kind = .dawn ∨ v.touches 0x0A700000 0x0A708000 then makeTile _ else _) = t
  intro ht
  repeat' split
  all_goals simpa using ht

/-! ### Resets -/

theorem grows_reset {t : State} (h : Grows a s.core) (hf : t.fuse = s.fuse) (hp : t.pending = s.pending) (hl : t.flash = s.flash)
    (hs : t.fs = []) (hm : t.hbm.mem = []) (hn : t.shape = [4, 4, 4, 4, 4, 4, 8, 4, 24, 5]) : Grows a t.core := by
  refine h.trans ⟨?_, hp, fun ⟨w, _⟩ => ?_⟩
  · show s.fuse.burntFrom t.fuse
    rw [hf]
    exact s.fuse.burntFrom_refl
  · refine ⟨?_, ?_, ?_, hn⟩
    · show Memory.wf flashDefault t.flash = true
      rw [hl]
      exact w
    · show Memory.wf ramDefault t.fs = true
      rw [hs]
      rfl
    · show Memory.wf ramDefault t.hbm.mem = true
      rw [hm]
      rfl

@[simp] theorem grows_warmReset (cause : Nat) (h : Grows a s.core) : Grows a (warmReset s cause).core :=
  grows_reset h rfl rfl rfl rfl rfl rfl

@[simp] theorem grows_coldReset (h : Grows a s.core) : Grows a (coldReset s).core :=
  grows_reset h rfl rfl rfl rfl rfl rfl

/-! ### The checks and the commit of a Pour -/

theorem grows_checkPour (p : Pour) (h : Grows a s.core) : Grows a (checkPour s p).core := by
  unfold checkPour
  dsimp only
  split
  · exact h
  · have k := core_runLists s (pourView s p) (candidateFlux s (pourView s p) (pourBlock s p)) (p.kind == .dawn || p.kind == .ingotApply)
    split
    · next heq =>
      rw [heq] at k
      exact grows_rejectPour _ _ (k ▸ h)
    · next heq =>
      rw [heq] at k
      split
      · simpa [k] using h
      · simpa [k] using h

theorem grows_commitPour (p : Pour) (h : Grows a s.core) : Grows a (commitPour s p).core := by
  unfold commitPour
  dsimp only
  split
  · next l _ =>
    exact grows_rejectPour _ _ (by simpa using h)
  · split
    · exact grows_ingotApplied _ (grows_commitBlocks _ _ (by simpa using h))
    · simp only [core_mgmt]
      rw [core_mode _ _ (by rfl)]
      exact grows_commitBlocks _ _ (by simpa using h)
    · exact grows_commitBlocks _ _ (by simpa using h)

/-! ### Accesses by the management paths -/

theorem grows_restart (h : Grows a s.core) : Grows a (restart s).core := by
  unfold restart
  split
  · simpa using h
  · split
    · exact grows_warmReset _ h
    · simpa using h

theorem grows_modeCmd (v : Nat) (path : PathId) (h : Grows a s.core) : Grows a (modeCmd s v path).core := by
  unfold modeCmd
  split
  · simpa using h
  · simpa using h
  · simpa using h
  · exact grows_restart h
  · exact h

theorem grows_guardCmd (v : Nat) (path : PathId) (h : Grows a s.core) : Grows a (guardCmd s v path).core := by
  unfold guardCmd
  split
  · simpa using h
  · split
    · exact grows_requestRelease _ h
    · exact h

theorem grows_writeWo (path : PathId) (ad : Nat) (v : Word) (h : Grows a s.core) : Grows a (writeWo s path ad v).1.core := by
  unfold writeWo
  dsimp only
  split
  · exact grows_modeCmd _ _ h
  · simpa using h
  · simpa using h
  · simpa using h
  · simpa using h
  · simpa using h
  · exact grows_guardCmd _ _ h
  · simpa using h
  · split
    · simpa using h
    · split
      · simpa using h
      · exact h

theorem grows_busWrite (path : PathId) (ad : Nat) (v : Word) (h : Grows a s.core) : Grows a (busWrite s path ad v).1.core := by
  unfold busWrite
  split
  · simpa using h
  · split
    · simpa using h
    · split <;> simpa using h
    · simpa using h
    · simpa using h
    · simpa using h
    · simpa using h
    · exact grows_writeWo _ _ _ h

theorem grows_writeWords (bell : State → PathId → Word → State) (hb : ∀ t p v, Grows a t.core → Grows a (bell t p v).core)
    (path : PathId) (ws : List Word) (ad : Nat) (h : Grows a s.core) : Grows a (writeWords bell path ad ws s).1.core := by
  induction ws generalizing ad s with
  | nil => exact h
  | cons w r ih =>
    unfold writeWords
    have k : Grows a (if ad = 0x800 then (bell s path w, 0) else busWrite s path ad w).1.core := by
      split
      · exact hb _ _ _ h
      · exact grows_busWrite _ _ _ h
    split
    · next heq => exact ih _ (by rw [heq] at k; exact k)
    · next heq => rw [heq] at k; exact k

theorem grows_gatedWrite (bell : State → PathId → Word → State) (hb : ∀ t p v, Grows a t.core → Grows a (bell t p v).core)
    (path : PathId) (ws : List Word) (ad : Nat) (h : Grows a s.core) : Grows a (gatedWrite bell s path ad ws).1.core := by
  unfold gatedWrite
  split
  · simpa using h
  · split
    · simpa using h
    · exact grows_writeWords bell hb _ _ _ h

/-! ### Commands -/

theorem grows_withCommandRole (path : PathId) (role : Nat) (f : State → State) (hf : ∀ t, Grows a t.core → Grows a (f t).core)
    (h : Grows a s.core) : Grows a (withCommandRole s path role f).core := by
  unfold withCommandRole
  split
  · exact hf _ h
  · simpa using h

theorem burntFrom_revoke (f : FuseState) (i : Nat) : f.burntFrom { f with revoked := listSet f.revoked i true } := by
  refine ⟨rfl, rfl, rfl, rfl, rfl, rfl, rfl, rfl, le_refl _, fun _ _ h => h, fun j hj => ?_⟩
  simp only [listSet, List.getElem?_set]
  split
  · next e =>
    have := (List.getElem?_eq_some_iff.1 hj).1
    simp [e, this]
  · exact hj

theorem burntFrom_anchor (f : FuseState) (i : Nat) (k : List Byte) (hb : nth f.anchors i none = none) :
    f.burntFrom { f with anchors := listSet f.anchors i (some k) } := by
  refine ⟨rfl, rfl, rfl, rfl, rfl, rfl, rfl, rfl, le_refl _, fun j x hj => ?_, fun _ h => h⟩
  simp only [listSet, List.getElem?_set]
  split
  · next e =>
    subst e
    simp [nth, List.getD, hj] at hb
  · exact hj

theorem grows_revokeSlot (path : PathId) (i : Nat) (h : Grows a s.core) : Grows a (revokeSlot s path i).core := by
  unfold revokeSlot withSession
  split
  · refine grows_withCommandRole _ _ _ (fun t ht => ?_) h
    split
    · simpa using ht
    · simp only [core_answer]
      exact grows_fuse _ (burntFrom_revoke _ _) ht
  · simpa using h

theorem grows_provisionSlot (path : PathId) (i : Nat) (k : List Byte) (h : Grows a s.core) : Grows a (provisionSlot s path i k).core := by
  unfold provisionSlot
  split
  · simpa using h
  · split
    · simpa using h
    · split
      · simpa using h
      · next hb =>
        simp only [core_answer]
        exact grows_fuse _ (burntFrom_anchor _ _ _ (by simpa using hb)) h

theorem grows_runCommand (path : PathId) (op arg : Nat) (l : List Byte) (room : Nat) (h : Grows a s.core) :
    Grows a (runCommand s path op arg l room).core := by
  unfold runCommand
  split
  · split <;> simpa using h
  · split
    · simp only [core_answer]
      exact grows_gatedWrite _ (fun _ _ _ ht => ht) _ _ _ h
    · simpa using h
  · split <;> simpa using h
  · split
    · exact grows_withCommandRole _ _ _ (fun _ ht => grows_beginIngot _ _ ht) h
    · simpa using h
  · exact grows_withCommandRole _ _ _ (fun _ ht => grows_dataIngot _ _ ht) h
  · split
    · exact grows_withCommandRole _ _ _ (fun _ ht => grows_commitRequest ht) h
    · simpa using h
  · split
    · exact grows_withCommandRole _ _ _ (fun _ ht => by simpa using ht) h
    · simpa using h
  · split <;> simpa using h
  · split
    · exact grows_revokeSlot _ _ h
    · simpa using h
  · exact grows_provisionSlot _ _ _ h
  · simpa using h

theorem grows_runBody (n : Nat) (failed : Bool) (b : BodyRun) (h : Grows a s.core) : Grows a (runBody n failed b s).1.core := by
  induction n generalizing failed b s with
  | zero => exact h
  | succ n ih =>
    unfold runBody
    dsimp only
    split
    · exact h
    · split
      · exact h
      · split
        · exact ih _ _ h
        · split
          · exact ih _ _ h
          · split
            · simp only [core_mgmt]
              exact grows_runCommand _ _ _ _ _ h
            · exact ih _ _ (grows_runCommand _ _ _ _ _ h)

theorem grows_finishBody (b : BodyRun) (r : State × Option (List Byte)) (h : Grows a r.1.core) : Grows a (finishBody b r).core := by
  unfold finishBody
  split
  · exact h
  · split
    · simpa using h
    · split
      · exact h
      · simp only [core_putSession]
        rw [core_sessionSend]
        exact h

theorem grows_startBody (path : PathId) (reply : Option (Nat × Nat)) (l : List Byte) (h : Grows a s.core) :
    Grows a (startBody s path reply l).core :=
  grows_finishBody _ _ (grows_runBody _ _ _ h)

theorem grows_continueBody (h : Grows a s.core) : Grows a (continueBody s).core := by
  unfold continueBody
  split
  · exact h
  · split
    · exact h
    · exact grows_finishBody _ _ (grows_runBody _ _ _ (by simpa using h))

theorem grows_sessionRequest (k : Fin 4) (seq : Nat) (body mac : List Byte) (h : Grows a s.core) :
    Grows a (sessionRequest s k seq body mac).core := by
  unfold sessionRequest
  split
  · simpa using h
  · exact grows_startBody _ _ _ (by simpa using h)

theorem grows_mailboxMessage (path : PathId) (l : List Byte) (h : Grows a s.core) : Grows a (mailboxMessage s path l).core := by
  unfold mailboxMessage
  dsimp only
  split
  · exact h
  · split
    · simpa using h
    · simpa using h
    · split
      · split
        all_goals first
          | exact h
          | (split
             · exact grows_sessionRequest _ _ _ _ h
             · exact h)
      · exact h
    · split
      · simpa using h
      · exact h
    · split
      · simpa using h
      · exact h
    · exact h

theorem grows_doorbell (path : PathId) (v : Word) (h : Grows a s.core) : Grows a (doorbell s path v).core := by
  unfold doorbell
  dsimp only
  split
  · exact h
  · split
    · split
      · simp only [core_mailboxDone]
        exact grows_mailboxMessage _ _ (by simpa using h)
      · exact grows_mailboxMessage _ _ (by simpa using h)
    · exact grows_startBody _ _ _ (by simpa using h)

theorem grows_pathWrite (path : PathId) (ad : Nat) (ws : List Word) (h : Grows a s.core) : Grows a (pathWrite s path ad ws).1.core := by
  unfold pathWrite
  split
  · exact grows_gatedWrite _ (fun _ _ _ ht => grows_doorbell _ _ ht) _ _ _ h
  · split
    · split
      · split
        · exact grows_restart h
        · simpa using h
      · exact h
    · exact h

theorem grows_spiWrite (l : List Byte) (h : Grows a s.core) : Grows a (spiWrite s l).core := by
  unfold spiWrite
  dsimp only
  split
  · split
    · simp only [core_spiEnd]
      exact grows_pathWrite _ _ _ h
    · simpa using h
  · simpa using h

/-! ### Dawn and Dusk -/

theorem grows_dawnCopy (c : Nat) (h : Grows a s.core) : Grows a (dawnCopy s c).core := by
  unfold dawnCopy
  dsimp only
  rw [core_mode _ _ (by rfl), core_markShutdown]
  exact grows_dawnApply _ (by simpa using h)

theorem grows_dawnLatch (h : Grows a s.core) : Grows a (dawnLatch s).core := by
  unfold dawnLatch
  dsimp only
  split
  · simpa using h
  · refine grows_releaseLatch _ ?_
    split
    · exact grows_raiseFloor _ (by simpa using h)
    · simpa using h

theorem grows_finishDawn (h : Grows a s.core) : Grows a (finishDawn s).core := by
  have key : ∀ t : State, Grows a t.core → Grows a (outputs.foldl (fun s o => if autoShows s o then requestShow s o true .internal else s)
      (raise (dawnLatch (dawnSources t)) 0x0001 0)).core := by
    intro t ht
    refine grows_foldl _ (fun u o hu => ?_) _ ?_
    · split <;> simpa using hu
    · simp only [core_raise]
      exact grows_dawnLatch (by simpa using ht)
  unfold finishDawn
  dsimp only
  refine key _ ?_
  have k2 : Grows a (recordSession (outputs.foldl (fun s o => if fsSize s.act o = 0 then s else startGenerator s o)
      (s.modLadle fun l => { l with rt := List.replicate 5 l.act }))).core := by
    simp only [core_recordSession]
    refine grows_foldl _ (fun u o hu => ?_) _ ?_
    · split <;> simpa using hu
    · refine h.trans ⟨s.fuse.burntFrom_refl, rfl, fun ⟨x, y, z, w⟩ => ⟨x, y, z, ?_⟩⟩
      have w : s.shape = [4, 4, 4, 4, 4, 4, 8, 4, 24, 5] := w
      simp only [State.shape, List.cons.injEq] at w
      simp [State.core, State.shape, State.modLadle, w]
  split <;> simpa using k2

theorem grows_endDusk (h : Grows a s.core) : Grows a (endDusk s).core := by
  unfold endDusk
  dsimp only
  split
  · exact grows_warmReset _ (by simpa using h)
  · simpa using h

end Sys2Proof.Machine
end

