-- ==== Sys2Proof/Laws/State.lean ====
section
/-! SUPPORT. What each update of one part of the state leaves: every other field, field by field. -/
namespace Sys2Proof.Machine

variable (s : State)

@[simp] theorem State.modSeq_tb (o : Nat) (f : SeqState → SeqState) : (s.modSeq o f).tb = s.tb := rfl
@[simp] theorem State.modSeq_enc (o : Nat) (f : SeqState → SeqState) : (s.modSeq o f).enc = s.enc := rfl
@[simp] theorem State.modSeq_fs (o : Nat) (f : SeqState → SeqState) : (s.modSeq o f).fs = s.fs := rfl
@[simp] theorem State.modSeq_tg (o : Nat) (f : SeqState → SeqState) : (s.modSeq o f).tg = s.tg := rfl
@[simp] theorem State.modSeq_ladle (o : Nat) (f : SeqState → SeqState) : (s.modSeq o f).ladle = s.ladle := rfl
@[simp] theorem State.modSeq_rlv (o : Nat) (f : SeqState → SeqState) : (s.modSeq o f).rlv = s.rlv := rfl
@[simp] theorem State.modSeq_comp (o : Nat) (f : SeqState → SeqState) : (s.modSeq o f).comp = s.comp := rfl
@[simp] theorem State.modSeq_composer (o : Nat) (f : SeqState → SeqState) : (s.modSeq o f).composer = s.composer := rfl
@[simp] theorem State.modSeq_drive (o : Nat) (f : SeqState → SeqState) : (s.modSeq o f).drive = s.drive := rfl
@[simp] theorem State.modSeq_port (o : Nat) (f : SeqState → SeqState) : (s.modSeq o f).port = s.port := rfl
@[simp] theorem State.modSeq_scan (o : Nat) (f : SeqState → SeqState) : (s.modSeq o f).scan = s.scan := rfl
@[simp] theorem State.modSeq_input (o : Nat) (f : SeqState → SeqState) : (s.modSeq o f).input = s.input := rfl
@[simp] theorem State.modSeq_ptp (o : Nat) (f : SeqState → SeqState) : (s.modSeq o f).ptp = s.ptp := rfl
@[simp] theorem State.modSeq_pcie (o : Nat) (f : SeqState → SeqState) : (s.modSeq o f).pcie = s.pcie := rfl
@[simp] theorem State.modSeq_net (o : Nat) (f : SeqState → SeqState) : (s.modSeq o f).net = s.net := rfl
@[simp] theorem State.modSeq_hbm (o : Nat) (f : SeqState → SeqState) : (s.modSeq o f).hbm = s.hbm := rfl
@[simp] theorem State.modSeq_run (o : Nat) (f : SeqState → SeqState) : (s.modSeq o f).run = s.run := rfl
@[simp] theorem State.modSeq_surf (o : Nat) (f : SeqState → SeqState) : (s.modSeq o f).surf = s.surf := rfl
@[simp] theorem State.modSeq_therm (o : Nat) (f : SeqState → SeqState) : (s.modSeq o f).therm = s.therm := rfl
@[simp] theorem State.modSeq_aod (o : Nat) (f : SeqState → SeqState) : (s.modSeq o f).aod = s.aod := rfl
@[simp] theorem State.modSeq_jrn (o : Nat) (f : SeqState → SeqState) : (s.modSeq o f).jrn = s.jrn := rfl
@[simp] theorem State.modSeq_flash (o : Nat) (f : SeqState → SeqState) : (s.modSeq o f).flash = s.flash := rfl
@[simp] theorem State.modSeq_ann (o : Nat) (f : SeqState → SeqState) : (s.modSeq o f).ann = s.ann := rfl
@[simp] theorem State.modSeq_guard (o : Nat) (f : SeqState → SeqState) : (s.modSeq o f).guard = s.guard := rfl
@[simp] theorem State.modSeq_cruc (o : Nat) (f : SeqState → SeqState) : (s.modSeq o f).cruc = s.cruc := rfl
@[simp] theorem State.modSeq_fuse (o : Nat) (f : SeqState → SeqState) : (s.modSeq o f).fuse = s.fuse := rfl
@[simp] theorem State.modSeq_mgmt (o : Nat) (f : SeqState → SeqState) : (s.modSeq o f).mgmt = s.mgmt := rfl
@[simp] theorem State.modSeq_log (o : Nat) (f : SeqState → SeqState) : (s.modSeq o f).log = s.log := rfl
@[simp] theorem State.modSeq_mode (o : Nat) (f : SeqState → SeqState) : (s.modSeq o f).mode = s.mode := rfl
@[simp] theorem State.modSeq_free (o : Nat) (f : SeqState → SeqState) : (s.modSeq o f).free = s.free := rfl
@[simp] theorem State.modSeq_pending (o : Nat) (f : SeqState → SeqState) : (s.modSeq o f).pending = s.pending := rfl

@[simp] theorem State.modEnc_seq (o : Nat) (f : EncState → EncState) : (s.modEnc o f).seq = s.seq := rfl
@[simp] theorem State.modEnc_tb (o : Nat) (f : EncState → EncState) : (s.modEnc o f).tb = s.tb := rfl
@[simp] theorem State.modEnc_fs (o : Nat) (f : EncState → EncState) : (s.modEnc o f).fs = s.fs := rfl
@[simp] theorem State.modEnc_tg (o : Nat) (f : EncState → EncState) : (s.modEnc o f).tg = s.tg := rfl
@[simp] theorem State.modEnc_ladle (o : Nat) (f : EncState → EncState) : (s.modEnc o f).ladle = s.ladle := rfl
@[simp] theorem State.modEnc_rlv (o : Nat) (f : EncState → EncState) : (s.modEnc o f).rlv = s.rlv := rfl
@[simp] theorem State.modEnc_comp (o : Nat) (f : EncState → EncState) : (s.modEnc o f).comp = s.comp := rfl
@[simp] theorem State.modEnc_composer (o : Nat) (f : EncState → EncState) : (s.modEnc o f).composer = s.composer := rfl
@[simp] theorem State.modEnc_drive (o : Nat) (f : EncState → EncState) : (s.modEnc o f).drive = s.drive := rfl
@[simp] theorem State.modEnc_port (o : Nat) (f : EncState → EncState) : (s.modEnc o f).port = s.port := rfl
@[simp] theorem State.modEnc_scan (o : Nat) (f : EncState → EncState) : (s.modEnc o f).scan = s.scan := rfl
@[simp] theorem State.modEnc_input (o : Nat) (f : EncState → EncState) : (s.modEnc o f).input = s.input := rfl
@[simp] theorem State.modEnc_ptp (o : Nat) (f : EncState → EncState) : (s.modEnc o f).ptp = s.ptp := rfl
@[simp] theorem State.modEnc_pcie (o : Nat) (f : EncState → EncState) : (s.modEnc o f).pcie = s.pcie := rfl
@[simp] theorem State.modEnc_net (o : Nat) (f : EncState → EncState) : (s.modEnc o f).net = s.net := rfl
@[simp] theorem State.modEnc_hbm (o : Nat) (f : EncState → EncState) : (s.modEnc o f).hbm = s.hbm := rfl
@[simp] theorem State.modEnc_run (o : Nat) (f : EncState → EncState) : (s.modEnc o f).run = s.run := rfl
@[simp] theorem State.modEnc_surf (o : Nat) (f : EncState → EncState) : (s.modEnc o f).surf = s.surf := rfl
@[simp] theorem State.modEnc_therm (o : Nat) (f : EncState → EncState) : (s.modEnc o f).therm = s.therm := rfl
@[simp] theorem State.modEnc_aod (o : Nat) (f : EncState → EncState) : (s.modEnc o f).aod = s.aod := rfl
@[simp] theorem State.modEnc_jrn (o : Nat) (f : EncState → EncState) : (s.modEnc o f).jrn = s.jrn := rfl
@[simp] theorem State.modEnc_flash (o : Nat) (f : EncState → EncState) : (s.modEnc o f).flash = s.flash := rfl
@[simp] theorem State.modEnc_ann (o : Nat) (f : EncState → EncState) : (s.modEnc o f).ann = s.ann := rfl
@[simp] theorem State.modEnc_guard (o : Nat) (f : EncState → EncState) : (s.modEnc o f).guard = s.guard := rfl
@[simp] theorem State.modEnc_cruc (o : Nat) (f : EncState → EncState) : (s.modEnc o f).cruc = s.cruc := rfl
@[simp] theorem State.modEnc_fuse (o : Nat) (f : EncState → EncState) : (s.modEnc o f).fuse = s.fuse := rfl
@[simp] theorem State.modEnc_mgmt (o : Nat) (f : EncState → EncState) : (s.modEnc o f).mgmt = s.mgmt := rfl
@[simp] theorem State.modEnc_log (o : Nat) (f : EncState → EncState) : (s.modEnc o f).log = s.log := rfl
@[simp] theorem State.modEnc_mode (o : Nat) (f : EncState → EncState) : (s.modEnc o f).mode = s.mode := rfl
@[simp] theorem State.modEnc_free (o : Nat) (f : EncState → EncState) : (s.modEnc o f).free = s.free := rfl
@[simp] theorem State.modEnc_pending (o : Nat) (f : EncState → EncState) : (s.modEnc o f).pending = s.pending := rfl

@[simp] theorem State.modTg_seq (o : Nat) (f : TgState → TgState) : (s.modTg o f).seq = s.seq := rfl
@[simp] theorem State.modTg_tb (o : Nat) (f : TgState → TgState) : (s.modTg o f).tb = s.tb := rfl
@[simp] theorem State.modTg_enc (o : Nat) (f : TgState → TgState) : (s.modTg o f).enc = s.enc := rfl
@[simp] theorem State.modTg_fs (o : Nat) (f : TgState → TgState) : (s.modTg o f).fs = s.fs := rfl
@[simp] theorem State.modTg_ladle (o : Nat) (f : TgState → TgState) : (s.modTg o f).ladle = s.ladle := rfl
@[simp] theorem State.modTg_rlv (o : Nat) (f : TgState → TgState) : (s.modTg o f).rlv = s.rlv := rfl
@[simp] theorem State.modTg_comp (o : Nat) (f : TgState → TgState) : (s.modTg o f).comp = s.comp := rfl
@[simp] theorem State.modTg_composer (o : Nat) (f : TgState → TgState) : (s.modTg o f).composer = s.composer := rfl
@[simp] theorem State.modTg_drive (o : Nat) (f : TgState → TgState) : (s.modTg o f).drive = s.drive := rfl
@[simp] theorem State.modTg_port (o : Nat) (f : TgState → TgState) : (s.modTg o f).port = s.port := rfl
@[simp] theorem State.modTg_scan (o : Nat) (f : TgState → TgState) : (s.modTg o f).scan = s.scan := rfl
@[simp] theorem State.modTg_input (o : Nat) (f : TgState → TgState) : (s.modTg o f).input = s.input := rfl
@[simp] theorem State.modTg_ptp (o : Nat) (f : TgState → TgState) : (s.modTg o f).ptp = s.ptp := rfl
@[simp] theorem State.modTg_pcie (o : Nat) (f : TgState → TgState) : (s.modTg o f).pcie = s.pcie := rfl
@[simp] theorem State.modTg_net (o : Nat) (f : TgState → TgState) : (s.modTg o f).net = s.net := rfl
@[simp] theorem State.modTg_hbm (o : Nat) (f : TgState → TgState) : (s.modTg o f).hbm = s.hbm := rfl
@[simp] theorem State.modTg_run (o : Nat) (f : TgState → TgState) : (s.modTg o f).run = s.run := rfl
@[simp] theorem State.modTg_surf (o : Nat) (f : TgState → TgState) : (s.modTg o f).surf = s.surf := rfl
@[simp] theorem State.modTg_therm (o : Nat) (f : TgState → TgState) : (s.modTg o f).therm = s.therm := rfl
@[simp] theorem State.modTg_aod (o : Nat) (f : TgState → TgState) : (s.modTg o f).aod = s.aod := rfl
@[simp] theorem State.modTg_jrn (o : Nat) (f : TgState → TgState) : (s.modTg o f).jrn = s.jrn := rfl
@[simp] theorem State.modTg_flash (o : Nat) (f : TgState → TgState) : (s.modTg o f).flash = s.flash := rfl
@[simp] theorem State.modTg_ann (o : Nat) (f : TgState → TgState) : (s.modTg o f).ann = s.ann := rfl
@[simp] theorem State.modTg_guard (o : Nat) (f : TgState → TgState) : (s.modTg o f).guard = s.guard := rfl
@[simp] theorem State.modTg_cruc (o : Nat) (f : TgState → TgState) : (s.modTg o f).cruc = s.cruc := rfl
@[simp] theorem State.modTg_fuse (o : Nat) (f : TgState → TgState) : (s.modTg o f).fuse = s.fuse := rfl
@[simp] theorem State.modTg_mgmt (o : Nat) (f : TgState → TgState) : (s.modTg o f).mgmt = s.mgmt := rfl
@[simp] theorem State.modTg_log (o : Nat) (f : TgState → TgState) : (s.modTg o f).log = s.log := rfl
@[simp] theorem State.modTg_mode (o : Nat) (f : TgState → TgState) : (s.modTg o f).mode = s.mode := rfl
@[simp] theorem State.modTg_free (o : Nat) (f : TgState → TgState) : (s.modTg o f).free = s.free := rfl
@[simp] theorem State.modTg_pending (o : Nat) (f : TgState → TgState) : (s.modTg o f).pending = s.pending := rfl

@[simp] theorem State.modComp_seq (o : Nat) (f : CompState → CompState) : (s.modComp o f).seq = s.seq := rfl
@[simp] theorem State.modComp_tb (o : Nat) (f : CompState → CompState) : (s.modComp o f).tb = s.tb := rfl
@[simp] theorem State.modComp_enc (o : Nat) (f : CompState → CompState) : (s.modComp o f).enc = s.enc := rfl
@[simp] theorem State.modComp_fs (o : Nat) (f : CompState → CompState) : (s.modComp o f).fs = s.fs := rfl
@[simp] theorem State.modComp_tg (o : Nat) (f : CompState → CompState) : (s.modComp o f).tg = s.tg := rfl
@[simp] theorem State.modComp_ladle (o : Nat) (f : CompState → CompState) : (s.modComp o f).ladle = s.ladle := rfl
@[simp] theorem State.modComp_rlv (o : Nat) (f : CompState → CompState) : (s.modComp o f).rlv = s.rlv := rfl
@[simp] theorem State.modComp_composer (o : Nat) (f : CompState → CompState) : (s.modComp o f).composer = s.composer := rfl
@[simp] theorem State.modComp_drive (o : Nat) (f : CompState → CompState) : (s.modComp o f).drive = s.drive := rfl
@[simp] theorem State.modComp_port (o : Nat) (f : CompState → CompState) : (s.modComp o f).port = s.port := rfl
@[simp] theorem State.modComp_scan (o : Nat) (f : CompState → CompState) : (s.modComp o f).scan = s.scan := rfl
@[simp] theorem State.modComp_input (o : Nat) (f : CompState → CompState) : (s.modComp o f).input = s.input := rfl
@[simp] theorem State.modComp_ptp (o : Nat) (f : CompState → CompState) : (s.modComp o f).ptp = s.ptp := rfl
@[simp] theorem State.modComp_pcie (o : Nat) (f : CompState → CompState) : (s.modComp o f).pcie = s.pcie := rfl
@[simp] theorem State.modComp_net (o : Nat) (f : CompState → CompState) : (s.modComp o f).net = s.net := rfl
@[simp] theorem State.modComp_hbm (o : Nat) (f : CompState → CompState) : (s.modComp o f).hbm = s.hbm := rfl
@[simp] theorem State.modComp_run (o : Nat) (f : CompState → CompState) : (s.modComp o f).run = s.run := rfl
@[simp] theorem State.modComp_surf (o : Nat) (f : CompState → CompState) : (s.modComp o f).surf = s.surf := rfl
@[simp] theorem State.modComp_therm (o : Nat) (f : CompState → CompState) : (s.modComp o f).therm = s.therm := rfl
@[simp] theorem State.modComp_aod (o : Nat) (f : CompState → CompState) : (s.modComp o f).aod = s.aod := rfl
@[simp] theorem State.modComp_jrn (o : Nat) (f : CompState → CompState) : (s.modComp o f).jrn = s.jrn := rfl
@[simp] theorem State.modComp_flash (o : Nat) (f : CompState → CompState) : (s.modComp o f).flash = s.flash := rfl
@[simp] theorem State.modComp_ann (o : Nat) (f : CompState → CompState) : (s.modComp o f).ann = s.ann := rfl
@[simp] theorem State.modComp_guard (o : Nat) (f : CompState → CompState) : (s.modComp o f).guard = s.guard := rfl
@[simp] theorem State.modComp_cruc (o : Nat) (f : CompState → CompState) : (s.modComp o f).cruc = s.cruc := rfl
@[simp] theorem State.modComp_fuse (o : Nat) (f : CompState → CompState) : (s.modComp o f).fuse = s.fuse := rfl
@[simp] theorem State.modComp_mgmt (o : Nat) (f : CompState → CompState) : (s.modComp o f).mgmt = s.mgmt := rfl
@[simp] theorem State.modComp_log (o : Nat) (f : CompState → CompState) : (s.modComp o f).log = s.log := rfl
@[simp] theorem State.modComp_mode (o : Nat) (f : CompState → CompState) : (s.modComp o f).mode = s.mode := rfl
@[simp] theorem State.modComp_free (o : Nat) (f : CompState → CompState) : (s.modComp o f).free = s.free := rfl
@[simp] theorem State.modComp_pending (o : Nat) (f : CompState → CompState) : (s.modComp o f).pending = s.pending := rfl

@[simp] theorem State.modPort_seq (o : Nat) (f : PortState → PortState) : (s.modPort o f).seq = s.seq := rfl
@[simp] theorem State.modPort_tb (o : Nat) (f : PortState → PortState) : (s.modPort o f).tb = s.tb := rfl
@[simp] theorem State.modPort_enc (o : Nat) (f : PortState → PortState) : (s.modPort o f).enc = s.enc := rfl
@[simp] theorem State.modPort_fs (o : Nat) (f : PortState → PortState) : (s.modPort o f).fs = s.fs := rfl
@[simp] theorem State.modPort_tg (o : Nat) (f : PortState → PortState) : (s.modPort o f).tg = s.tg := rfl
@[simp] theorem State.modPort_ladle (o : Nat) (f : PortState → PortState) : (s.modPort o f).ladle = s.ladle := rfl
@[simp] theorem State.modPort_rlv (o : Nat) (f : PortState → PortState) : (s.modPort o f).rlv = s.rlv := rfl
@[simp] theorem State.modPort_comp (o : Nat) (f : PortState → PortState) : (s.modPort o f).comp = s.comp := rfl
@[simp] theorem State.modPort_composer (o : Nat) (f : PortState → PortState) : (s.modPort o f).composer = s.composer := rfl
@[simp] theorem State.modPort_drive (o : Nat) (f : PortState → PortState) : (s.modPort o f).drive = s.drive := rfl
@[simp] theorem State.modPort_scan (o : Nat) (f : PortState → PortState) : (s.modPort o f).scan = s.scan := rfl
@[simp] theorem State.modPort_input (o : Nat) (f : PortState → PortState) : (s.modPort o f).input = s.input := rfl
@[simp] theorem State.modPort_ptp (o : Nat) (f : PortState → PortState) : (s.modPort o f).ptp = s.ptp := rfl
@[simp] theorem State.modPort_pcie (o : Nat) (f : PortState → PortState) : (s.modPort o f).pcie = s.pcie := rfl
@[simp] theorem State.modPort_net (o : Nat) (f : PortState → PortState) : (s.modPort o f).net = s.net := rfl
@[simp] theorem State.modPort_hbm (o : Nat) (f : PortState → PortState) : (s.modPort o f).hbm = s.hbm := rfl
@[simp] theorem State.modPort_run (o : Nat) (f : PortState → PortState) : (s.modPort o f).run = s.run := rfl
@[simp] theorem State.modPort_surf (o : Nat) (f : PortState → PortState) : (s.modPort o f).surf = s.surf := rfl
@[simp] theorem State.modPort_therm (o : Nat) (f : PortState → PortState) : (s.modPort o f).therm = s.therm := rfl
@[simp] theorem State.modPort_aod (o : Nat) (f : PortState → PortState) : (s.modPort o f).aod = s.aod := rfl
@[simp] theorem State.modPort_jrn (o : Nat) (f : PortState → PortState) : (s.modPort o f).jrn = s.jrn := rfl
@[simp] theorem State.modPort_flash (o : Nat) (f : PortState → PortState) : (s.modPort o f).flash = s.flash := rfl
@[simp] theorem State.modPort_ann (o : Nat) (f : PortState → PortState) : (s.modPort o f).ann = s.ann := rfl
@[simp] theorem State.modPort_guard (o : Nat) (f : PortState → PortState) : (s.modPort o f).guard = s.guard := rfl
@[simp] theorem State.modPort_cruc (o : Nat) (f : PortState → PortState) : (s.modPort o f).cruc = s.cruc := rfl
@[simp] theorem State.modPort_fuse (o : Nat) (f : PortState → PortState) : (s.modPort o f).fuse = s.fuse := rfl
@[simp] theorem State.modPort_mgmt (o : Nat) (f : PortState → PortState) : (s.modPort o f).mgmt = s.mgmt := rfl
@[simp] theorem State.modPort_log (o : Nat) (f : PortState → PortState) : (s.modPort o f).log = s.log := rfl
@[simp] theorem State.modPort_mode (o : Nat) (f : PortState → PortState) : (s.modPort o f).mode = s.mode := rfl
@[simp] theorem State.modPort_free (o : Nat) (f : PortState → PortState) : (s.modPort o f).free = s.free := rfl
@[simp] theorem State.modPort_pending (o : Nat) (f : PortState → PortState) : (s.modPort o f).pending = s.pending := rfl

@[simp] theorem State.modScan_seq (o : Nat) (f : ScanState → ScanState) : (s.modScan o f).seq = s.seq := rfl
@[simp] theorem State.modScan_tb (o : Nat) (f : ScanState → ScanState) : (s.modScan o f).tb = s.tb := rfl
@[simp] theorem State.modScan_enc (o : Nat) (f : ScanState → ScanState) : (s.modScan o f).enc = s.enc := rfl
@[simp] theorem State.modScan_fs (o : Nat) (f : ScanState → ScanState) : (s.modScan o f).fs = s.fs := rfl
@[simp] theorem State.modScan_tg (o : Nat) (f : ScanState → ScanState) : (s.modScan o f).tg = s.tg := rfl
@[simp] theorem State.modScan_ladle (o : Nat) (f : ScanState → ScanState) : (s.modScan o f).ladle = s.ladle := rfl
@[simp] theorem State.modScan_rlv (o : Nat) (f : ScanState → ScanState) : (s.modScan o f).rlv = s.rlv := rfl
@[simp] theorem State.modScan_comp (o : Nat) (f : ScanState → ScanState) : (s.modScan o f).comp = s.comp := rfl
@[simp] theorem State.modScan_composer (o : Nat) (f : ScanState → ScanState) : (s.modScan o f).composer = s.composer := rfl
@[simp] theorem State.modScan_drive (o : Nat) (f : ScanState → ScanState) : (s.modScan o f).drive = s.drive := rfl
@[simp] theorem State.modScan_port (o : Nat) (f : ScanState → ScanState) : (s.modScan o f).port = s.port := rfl
@[simp] theorem State.modScan_input (o : Nat) (f : ScanState → ScanState) : (s.modScan o f).input = s.input := rfl
@[simp] theorem State.modScan_ptp (o : Nat) (f : ScanState → ScanState) : (s.modScan o f).ptp = s.ptp := rfl
@[simp] theorem State.modScan_pcie (o : Nat) (f : ScanState → ScanState) : (s.modScan o f).pcie = s.pcie := rfl
@[simp] theorem State.modScan_net (o : Nat) (f : ScanState → ScanState) : (s.modScan o f).net = s.net := rfl
@[simp] theorem State.modScan_hbm (o : Nat) (f : ScanState → ScanState) : (s.modScan o f).hbm = s.hbm := rfl
@[simp] theorem State.modScan_run (o : Nat) (f : ScanState → ScanState) : (s.modScan o f).run = s.run := rfl
@[simp] theorem State.modScan_surf (o : Nat) (f : ScanState → ScanState) : (s.modScan o f).surf = s.surf := rfl
@[simp] theorem State.modScan_therm (o : Nat) (f : ScanState → ScanState) : (s.modScan o f).therm = s.therm := rfl
@[simp] theorem State.modScan_aod (o : Nat) (f : ScanState → ScanState) : (s.modScan o f).aod = s.aod := rfl
@[simp] theorem State.modScan_jrn (o : Nat) (f : ScanState → ScanState) : (s.modScan o f).jrn = s.jrn := rfl
@[simp] theorem State.modScan_flash (o : Nat) (f : ScanState → ScanState) : (s.modScan o f).flash = s.flash := rfl
@[simp] theorem State.modScan_ann (o : Nat) (f : ScanState → ScanState) : (s.modScan o f).ann = s.ann := rfl
@[simp] theorem State.modScan_guard (o : Nat) (f : ScanState → ScanState) : (s.modScan o f).guard = s.guard := rfl
@[simp] theorem State.modScan_cruc (o : Nat) (f : ScanState → ScanState) : (s.modScan o f).cruc = s.cruc := rfl
@[simp] theorem State.modScan_fuse (o : Nat) (f : ScanState → ScanState) : (s.modScan o f).fuse = s.fuse := rfl
@[simp] theorem State.modScan_mgmt (o : Nat) (f : ScanState → ScanState) : (s.modScan o f).mgmt = s.mgmt := rfl
@[simp] theorem State.modScan_log (o : Nat) (f : ScanState → ScanState) : (s.modScan o f).log = s.log := rfl
@[simp] theorem State.modScan_mode (o : Nat) (f : ScanState → ScanState) : (s.modScan o f).mode = s.mode := rfl
@[simp] theorem State.modScan_free (o : Nat) (f : ScanState → ScanState) : (s.modScan o f).free = s.free := rfl
@[simp] theorem State.modScan_pending (o : Nat) (f : ScanState → ScanState) : (s.modScan o f).pending = s.pending := rfl

@[simp] theorem State.modIn_seq (i : Nat) (f : InputState → InputState) : (s.modIn i f).seq = s.seq := rfl
@[simp] theorem State.modIn_tb (i : Nat) (f : InputState → InputState) : (s.modIn i f).tb = s.tb := rfl
@[simp] theorem State.modIn_enc (i : Nat) (f : InputState → InputState) : (s.modIn i f).enc = s.enc := rfl
@[simp] theorem State.modIn_fs (i : Nat) (f : InputState → InputState) : (s.modIn i f).fs = s.fs := rfl
@[simp] theorem State.modIn_tg (i : Nat) (f : InputState → InputState) : (s.modIn i f).tg = s.tg := rfl
@[simp] theorem State.modIn_ladle (i : Nat) (f : InputState → InputState) : (s.modIn i f).ladle = s.ladle := rfl
@[simp] theorem State.modIn_rlv (i : Nat) (f : InputState → InputState) : (s.modIn i f).rlv = s.rlv := rfl
@[simp] theorem State.modIn_comp (i : Nat) (f : InputState → InputState) : (s.modIn i f).comp = s.comp := rfl
@[simp] theorem State.modIn_composer (i : Nat) (f : InputState → InputState) : (s.modIn i f).composer = s.composer := rfl
@[simp] theorem State.modIn_drive (i : Nat) (f : InputState → InputState) : (s.modIn i f).drive = s.drive := rfl
@[simp] theorem State.modIn_port (i : Nat) (f : InputState → InputState) : (s.modIn i f).port = s.port := rfl
@[simp] theorem State.modIn_scan (i : Nat) (f : InputState → InputState) : (s.modIn i f).scan = s.scan := rfl
@[simp] theorem State.modIn_ptp (i : Nat) (f : InputState → InputState) : (s.modIn i f).ptp = s.ptp := rfl
@[simp] theorem State.modIn_pcie (i : Nat) (f : InputState → InputState) : (s.modIn i f).pcie = s.pcie := rfl
@[simp] theorem State.modIn_net (i : Nat) (f : InputState → InputState) : (s.modIn i f).net = s.net := rfl
@[simp] theorem State.modIn_hbm (i : Nat) (f : InputState → InputState) : (s.modIn i f).hbm = s.hbm := rfl
@[simp] theorem State.modIn_run (i : Nat) (f : InputState → InputState) : (s.modIn i f).run = s.run := rfl
@[simp] theorem State.modIn_surf (i : Nat) (f : InputState → InputState) : (s.modIn i f).surf = s.surf := rfl
@[simp] theorem State.modIn_therm (i : Nat) (f : InputState → InputState) : (s.modIn i f).therm = s.therm := rfl
@[simp] theorem State.modIn_aod (i : Nat) (f : InputState → InputState) : (s.modIn i f).aod = s.aod := rfl
@[simp] theorem State.modIn_jrn (i : Nat) (f : InputState → InputState) : (s.modIn i f).jrn = s.jrn := rfl
@[simp] theorem State.modIn_flash (i : Nat) (f : InputState → InputState) : (s.modIn i f).flash = s.flash := rfl
@[simp] theorem State.modIn_ann (i : Nat) (f : InputState → InputState) : (s.modIn i f).ann = s.ann := rfl
@[simp] theorem State.modIn_guard (i : Nat) (f : InputState → InputState) : (s.modIn i f).guard = s.guard := rfl
@[simp] theorem State.modIn_cruc (i : Nat) (f : InputState → InputState) : (s.modIn i f).cruc = s.cruc := rfl
@[simp] theorem State.modIn_fuse (i : Nat) (f : InputState → InputState) : (s.modIn i f).fuse = s.fuse := rfl
@[simp] theorem State.modIn_mgmt (i : Nat) (f : InputState → InputState) : (s.modIn i f).mgmt = s.mgmt := rfl
@[simp] theorem State.modIn_log (i : Nat) (f : InputState → InputState) : (s.modIn i f).log = s.log := rfl
@[simp] theorem State.modIn_mode (i : Nat) (f : InputState → InputState) : (s.modIn i f).mode = s.mode := rfl
@[simp] theorem State.modIn_free (i : Nat) (f : InputState → InputState) : (s.modIn i f).free = s.free := rfl
@[simp] theorem State.modIn_pending (i : Nat) (f : InputState → InputState) : (s.modIn i f).pending = s.pending := rfl

@[simp] theorem State.modOut_seq (o : Nat) (f : OutMode → OutMode) : (s.modOut o f).seq = s.seq := rfl
@[simp] theorem State.modOut_tb (o : Nat) (f : OutMode → OutMode) : (s.modOut o f).tb = s.tb := rfl
@[simp] theorem State.modOut_enc (o : Nat) (f : OutMode → OutMode) : (s.modOut o f).enc = s.enc := rfl
@[simp] theorem State.modOut_fs (o : Nat) (f : OutMode → OutMode) : (s.modOut o f).fs = s.fs := rfl
@[simp] theorem State.modOut_tg (o : Nat) (f : OutMode → OutMode) : (s.modOut o f).tg = s.tg := rfl
@[simp] theorem State.modOut_ladle (o : Nat) (f : OutMode → OutMode) : (s.modOut o f).ladle = s.ladle := rfl
@[simp] theorem State.modOut_rlv (o : Nat) (f : OutMode → OutMode) : (s.modOut o f).rlv = s.rlv := rfl
@[simp] theorem State.modOut_comp (o : Nat) (f : OutMode → OutMode) : (s.modOut o f).comp = s.comp := rfl
@[simp] theorem State.modOut_composer (o : Nat) (f : OutMode → OutMode) : (s.modOut o f).composer = s.composer := rfl
@[simp] theorem State.modOut_drive (o : Nat) (f : OutMode → OutMode) : (s.modOut o f).drive = s.drive := rfl
@[simp] theorem State.modOut_port (o : Nat) (f : OutMode → OutMode) : (s.modOut o f).port = s.port := rfl
@[simp] theorem State.modOut_scan (o : Nat) (f : OutMode → OutMode) : (s.modOut o f).scan = s.scan := rfl
@[simp] theorem State.modOut_input (o : Nat) (f : OutMode → OutMode) : (s.modOut o f).input = s.input := rfl
@[simp] theorem State.modOut_ptp (o : Nat) (f : OutMode → OutMode) : (s.modOut o f).ptp = s.ptp := rfl
@[simp] theorem State.modOut_pcie (o : Nat) (f : OutMode → OutMode) : (s.modOut o f).pcie = s.pcie := rfl
@[simp] theorem State.modOut_net (o : Nat) (f : OutMode → OutMode) : (s.modOut o f).net = s.net := rfl
@[simp] theorem State.modOut_hbm (o : Nat) (f : OutMode → OutMode) : (s.modOut o f).hbm = s.hbm := rfl
@[simp] theorem State.modOut_run (o : Nat) (f : OutMode → OutMode) : (s.modOut o f).run = s.run := rfl
@[simp] theorem State.modOut_surf (o : Nat) (f : OutMode → OutMode) : (s.modOut o f).surf = s.surf := rfl
@[simp] theorem State.modOut_therm (o : Nat) (f : OutMode → OutMode) : (s.modOut o f).therm = s.therm := rfl
@[simp] theorem State.modOut_aod (o : Nat) (f : OutMode → OutMode) : (s.modOut o f).aod = s.aod := rfl
@[simp] theorem State.modOut_jrn (o : Nat) (f : OutMode → OutMode) : (s.modOut o f).jrn = s.jrn := rfl
@[simp] theorem State.modOut_flash (o : Nat) (f : OutMode → OutMode) : (s.modOut o f).flash = s.flash := rfl
@[simp] theorem State.modOut_ann (o : Nat) (f : OutMode → OutMode) : (s.modOut o f).ann = s.ann := rfl
@[simp] theorem State.modOut_guard (o : Nat) (f : OutMode → OutMode) : (s.modOut o f).guard = s.guard := rfl
@[simp] theorem State.modOut_cruc (o : Nat) (f : OutMode → OutMode) : (s.modOut o f).cruc = s.cruc := rfl
@[simp] theorem State.modOut_fuse (o : Nat) (f : OutMode → OutMode) : (s.modOut o f).fuse = s.fuse := rfl
@[simp] theorem State.modOut_mgmt (o : Nat) (f : OutMode → OutMode) : (s.modOut o f).mgmt = s.mgmt := rfl
@[simp] theorem State.modOut_log (o : Nat) (f : OutMode → OutMode) : (s.modOut o f).log = s.log := rfl
@[simp] theorem State.modOut_free (o : Nat) (f : OutMode → OutMode) : (s.modOut o f).free = s.free := rfl
@[simp] theorem State.modOut_pending (o : Nat) (f : OutMode → OutMode) : (s.modOut o f).pending = s.pending := rfl

@[simp] theorem State.modStr_seq (nn : Nat) (f : StringState → StringState) : (s.modStr nn f).seq = s.seq := rfl
@[simp] theorem State.modStr_tb (nn : Nat) (f : StringState → StringState) : (s.modStr nn f).tb = s.tb := rfl
@[simp] theorem State.modStr_enc (nn : Nat) (f : StringState → StringState) : (s.modStr nn f).enc = s.enc := rfl
@[simp] theorem State.modStr_fs (nn : Nat) (f : StringState → StringState) : (s.modStr nn f).fs = s.fs := rfl
@[simp] theorem State.modStr_tg (nn : Nat) (f : StringState → StringState) : (s.modStr nn f).tg = s.tg := rfl
@[simp] theorem State.modStr_ladle (nn : Nat) (f : StringState → StringState) : (s.modStr nn f).ladle = s.ladle := rfl
@[simp] theorem State.modStr_rlv (nn : Nat) (f : StringState → StringState) : (s.modStr nn f).rlv = s.rlv := rfl
@[simp] theorem State.modStr_comp (nn : Nat) (f : StringState → StringState) : (s.modStr nn f).comp = s.comp := rfl
@[simp] theorem State.modStr_composer (nn : Nat) (f : StringState → StringState) : (s.modStr nn f).composer = s.composer := rfl
@[simp] theorem State.modStr_port (nn : Nat) (f : StringState → StringState) : (s.modStr nn f).port = s.port := rfl
@[simp] theorem State.modStr_scan (nn : Nat) (f : StringState → StringState) : (s.modStr nn f).scan = s.scan := rfl
@[simp] theorem State.modStr_input (nn : Nat) (f : StringState → StringState) : (s.modStr nn f).input = s.input := rfl
@[simp] theorem State.modStr_ptp (nn : Nat) (f : StringState → StringState) : (s.modStr nn f).ptp = s.ptp := rfl
@[simp] theorem State.modStr_pcie (nn : Nat) (f : StringState → StringState) : (s.modStr nn f).pcie = s.pcie := rfl
@[simp] theorem State.modStr_net (nn : Nat) (f : StringState → StringState) : (s.modStr nn f).net = s.net := rfl
@[simp] theorem State.modStr_hbm (nn : Nat) (f : StringState → StringState) : (s.modStr nn f).hbm = s.hbm := rfl
@[simp] theorem State.modStr_run (nn : Nat) (f : StringState → StringState) : (s.modStr nn f).run = s.run := rfl
@[simp] theorem State.modStr_surf (nn : Nat) (f : StringState → StringState) : (s.modStr nn f).surf = s.surf := rfl
@[simp] theorem State.modStr_therm (nn : Nat) (f : StringState → StringState) : (s.modStr nn f).therm = s.therm := rfl
@[simp] theorem State.modStr_aod (nn : Nat) (f : StringState → StringState) : (s.modStr nn f).aod = s.aod := rfl
@[simp] theorem State.modStr_jrn (nn : Nat) (f : StringState → StringState) : (s.modStr nn f).jrn = s.jrn := rfl
@[simp] theorem State.modStr_flash (nn : Nat) (f : StringState → StringState) : (s.modStr nn f).flash = s.flash := rfl
@[simp] theorem State.modStr_ann (nn : Nat) (f : StringState → StringState) : (s.modStr nn f).ann = s.ann := rfl
@[simp] theorem State.modStr_guard (nn : Nat) (f : StringState → StringState) : (s.modStr nn f).guard = s.guard := rfl
@[simp] theorem State.modStr_cruc (nn : Nat) (f : StringState → StringState) : (s.modStr nn f).cruc = s.cruc := rfl
@[simp] theorem State.modStr_fuse (nn : Nat) (f : StringState → StringState) : (s.modStr nn f).fuse = s.fuse := rfl
@[simp] theorem State.modStr_mgmt (nn : Nat) (f : StringState → StringState) : (s.modStr nn f).mgmt = s.mgmt := rfl
@[simp] theorem State.modStr_log (nn : Nat) (f : StringState → StringState) : (s.modStr nn f).log = s.log := rfl
@[simp] theorem State.modStr_mode (nn : Nat) (f : StringState → StringState) : (s.modStr nn f).mode = s.mode := rfl
@[simp] theorem State.modStr_free (nn : Nat) (f : StringState → StringState) : (s.modStr nn f).free = s.free := rfl
@[simp] theorem State.modStr_pending (nn : Nat) (f : StringState → StringState) : (s.modStr nn f).pending = s.pending := rfl

@[simp] theorem State.modChan_seq (o c : Nat) (f : ChanState → ChanState) : (s.modChan o c f).seq = s.seq := rfl
@[simp] theorem State.modChan_tb (o c : Nat) (f : ChanState → ChanState) : (s.modChan o c f).tb = s.tb := rfl
@[simp] theorem State.modChan_enc (o c : Nat) (f : ChanState → ChanState) : (s.modChan o c f).enc = s.enc := rfl
@[simp] theorem State.modChan_fs (o c : Nat) (f : ChanState → ChanState) : (s.modChan o c f).fs = s.fs := rfl
@[simp] theorem State.modChan_tg (o c : Nat) (f : ChanState → ChanState) : (s.modChan o c f).tg = s.tg := rfl
@[simp] theorem State.modChan_ladle (o c : Nat) (f : ChanState → ChanState) : (s.modChan o c f).ladle = s.ladle := rfl
@[simp] theorem State.modChan_rlv (o c : Nat) (f : ChanState → ChanState) : (s.modChan o c f).rlv = s.rlv := rfl
@[simp] theorem State.modChan_comp (o c : Nat) (f : ChanState → ChanState) : (s.modChan o c f).comp = s.comp := rfl
@[simp] theorem State.modChan_composer (o c : Nat) (f : ChanState → ChanState) : (s.modChan o c f).composer = s.composer := rfl
@[simp] theorem State.modChan_port (o c : Nat) (f : ChanState → ChanState) : (s.modChan o c f).port = s.port := rfl
@[simp] theorem State.modChan_scan (o c : Nat) (f : ChanState → ChanState) : (s.modChan o c f).scan = s.scan := rfl
@[simp] theorem State.modChan_input (o c : Nat) (f : ChanState → ChanState) : (s.modChan o c f).input = s.input := rfl
@[simp] theorem State.modChan_ptp (o c : Nat) (f : ChanState → ChanState) : (s.modChan o c f).ptp = s.ptp := rfl
@[simp] theorem State.modChan_pcie (o c : Nat) (f : ChanState → ChanState) : (s.modChan o c f).pcie = s.pcie := rfl
@[simp] theorem State.modChan_net (o c : Nat) (f : ChanState → ChanState) : (s.modChan o c f).net = s.net := rfl
@[simp] theorem State.modChan_hbm (o c : Nat) (f : ChanState → ChanState) : (s.modChan o c f).hbm = s.hbm := rfl
@[simp] theorem State.modChan_run (o c : Nat) (f : ChanState → ChanState) : (s.modChan o c f).run = s.run := rfl
@[simp] theorem State.modChan_surf (o c : Nat) (f : ChanState → ChanState) : (s.modChan o c f).surf = s.surf := rfl
@[simp] theorem State.modChan_therm (o c : Nat) (f : ChanState → ChanState) : (s.modChan o c f).therm = s.therm := rfl
@[simp] theorem State.modChan_aod (o c : Nat) (f : ChanState → ChanState) : (s.modChan o c f).aod = s.aod := rfl
@[simp] theorem State.modChan_jrn (o c : Nat) (f : ChanState → ChanState) : (s.modChan o c f).jrn = s.jrn := rfl
@[simp] theorem State.modChan_flash (o c : Nat) (f : ChanState → ChanState) : (s.modChan o c f).flash = s.flash := rfl
@[simp] theorem State.modChan_ann (o c : Nat) (f : ChanState → ChanState) : (s.modChan o c f).ann = s.ann := rfl
@[simp] theorem State.modChan_guard (o c : Nat) (f : ChanState → ChanState) : (s.modChan o c f).guard = s.guard := rfl
@[simp] theorem State.modChan_cruc (o c : Nat) (f : ChanState → ChanState) : (s.modChan o c f).cruc = s.cruc := rfl
@[simp] theorem State.modChan_fuse (o c : Nat) (f : ChanState → ChanState) : (s.modChan o c f).fuse = s.fuse := rfl
@[simp] theorem State.modChan_mgmt (o c : Nat) (f : ChanState → ChanState) : (s.modChan o c f).mgmt = s.mgmt := rfl
@[simp] theorem State.modChan_log (o c : Nat) (f : ChanState → ChanState) : (s.modChan o c f).log = s.log := rfl
@[simp] theorem State.modChan_mode (o c : Nat) (f : ChanState → ChanState) : (s.modChan o c f).mode = s.mode := rfl
@[simp] theorem State.modChan_free (o c : Nat) (f : ChanState → ChanState) : (s.modChan o c f).free = s.free := rfl
@[simp] theorem State.modChan_pending (o c : Nat) (f : ChanState → ChanState) : (s.modChan o c f).pending = s.pending := rfl

@[simp] theorem State.modPd_seq (k : Nat) (f : PdState → PdState) : (s.modPd k f).seq = s.seq := rfl
@[simp] theorem State.modPd_tb (k : Nat) (f : PdState → PdState) : (s.modPd k f).tb = s.tb := rfl
@[simp] theorem State.modPd_enc (k : Nat) (f : PdState → PdState) : (s.modPd k f).enc = s.enc := rfl
@[simp] theorem State.modPd_fs (k : Nat) (f : PdState → PdState) : (s.modPd k f).fs = s.fs := rfl
@[simp] theorem State.modPd_tg (k : Nat) (f : PdState → PdState) : (s.modPd k f).tg = s.tg := rfl
@[simp] theorem State.modPd_ladle (k : Nat) (f : PdState → PdState) : (s.modPd k f).ladle = s.ladle := rfl
@[simp] theorem State.modPd_rlv (k : Nat) (f : PdState → PdState) : (s.modPd k f).rlv = s.rlv := rfl
@[simp] theorem State.modPd_comp (k : Nat) (f : PdState → PdState) : (s.modPd k f).comp = s.comp := rfl
@[simp] theorem State.modPd_composer (k : Nat) (f : PdState → PdState) : (s.modPd k f).composer = s.composer := rfl
@[simp] theorem State.modPd_port (k : Nat) (f : PdState → PdState) : (s.modPd k f).port = s.port := rfl
@[simp] theorem State.modPd_scan (k : Nat) (f : PdState → PdState) : (s.modPd k f).scan = s.scan := rfl
@[simp] theorem State.modPd_input (k : Nat) (f : PdState → PdState) : (s.modPd k f).input = s.input := rfl
@[simp] theorem State.modPd_ptp (k : Nat) (f : PdState → PdState) : (s.modPd k f).ptp = s.ptp := rfl
@[simp] theorem State.modPd_pcie (k : Nat) (f : PdState → PdState) : (s.modPd k f).pcie = s.pcie := rfl
@[simp] theorem State.modPd_net (k : Nat) (f : PdState → PdState) : (s.modPd k f).net = s.net := rfl
@[simp] theorem State.modPd_hbm (k : Nat) (f : PdState → PdState) : (s.modPd k f).hbm = s.hbm := rfl
@[simp] theorem State.modPd_run (k : Nat) (f : PdState → PdState) : (s.modPd k f).run = s.run := rfl
@[simp] theorem State.modPd_surf (k : Nat) (f : PdState → PdState) : (s.modPd k f).surf = s.surf := rfl
@[simp] theorem State.modPd_therm (k : Nat) (f : PdState → PdState) : (s.modPd k f).therm = s.therm := rfl
@[simp] theorem State.modPd_aod (k : Nat) (f : PdState → PdState) : (s.modPd k f).aod = s.aod := rfl
@[simp] theorem State.modPd_jrn (k : Nat) (f : PdState → PdState) : (s.modPd k f).jrn = s.jrn := rfl
@[simp] theorem State.modPd_flash (k : Nat) (f : PdState → PdState) : (s.modPd k f).flash = s.flash := rfl
@[simp] theorem State.modPd_ann (k : Nat) (f : PdState → PdState) : (s.modPd k f).ann = s.ann := rfl
@[simp] theorem State.modPd_guard (k : Nat) (f : PdState → PdState) : (s.modPd k f).guard = s.guard := rfl
@[simp] theorem State.modPd_cruc (k : Nat) (f : PdState → PdState) : (s.modPd k f).cruc = s.cruc := rfl
@[simp] theorem State.modPd_fuse (k : Nat) (f : PdState → PdState) : (s.modPd k f).fuse = s.fuse := rfl
@[simp] theorem State.modPd_mgmt (k : Nat) (f : PdState → PdState) : (s.modPd k f).mgmt = s.mgmt := rfl
@[simp] theorem State.modPd_log (k : Nat) (f : PdState → PdState) : (s.modPd k f).log = s.log := rfl
@[simp] theorem State.modPd_mode (k : Nat) (f : PdState → PdState) : (s.modPd k f).mode = s.mode := rfl
@[simp] theorem State.modPd_free (k : Nat) (f : PdState → PdState) : (s.modPd k f).free = s.free := rfl
@[simp] theorem State.modPd_pending (k : Nat) (f : PdState → PdState) : (s.modPd k f).pending = s.pending := rfl

@[simp] theorem State.modDrive_seq (f : DriveState → DriveState) : (s.modDrive f).seq = s.seq := rfl
@[simp] theorem State.modDrive_tb (f : DriveState → DriveState) : (s.modDrive f).tb = s.tb := rfl
@[simp] theorem State.modDrive_enc (f : DriveState → DriveState) : (s.modDrive f).enc = s.enc := rfl
@[simp] theorem State.modDrive_fs (f : DriveState → DriveState) : (s.modDrive f).fs = s.fs := rfl
@[simp] theorem State.modDrive_tg (f : DriveState → DriveState) : (s.modDrive f).tg = s.tg := rfl
@[simp] theorem State.modDrive_ladle (f : DriveState → DriveState) : (s.modDrive f).ladle = s.ladle := rfl
@[simp] theorem State.modDrive_rlv (f : DriveState → DriveState) : (s.modDrive f).rlv = s.rlv := rfl
@[simp] theorem State.modDrive_comp (f : DriveState → DriveState) : (s.modDrive f).comp = s.comp := rfl
@[simp] theorem State.modDrive_composer (f : DriveState → DriveState) : (s.modDrive f).composer = s.composer := rfl
@[simp] theorem State.modDrive_port (f : DriveState → DriveState) : (s.modDrive f).port = s.port := rfl
@[simp] theorem State.modDrive_scan (f : DriveState → DriveState) : (s.modDrive f).scan = s.scan := rfl
@[simp] theorem State.modDrive_input (f : DriveState → DriveState) : (s.modDrive f).input = s.input := rfl
@[simp] theorem State.modDrive_ptp (f : DriveState → DriveState) : (s.modDrive f).ptp = s.ptp := rfl
@[simp] theorem State.modDrive_pcie (f : DriveState → DriveState) : (s.modDrive f).pcie = s.pcie := rfl
@[simp] theorem State.modDrive_net (f : DriveState → DriveState) : (s.modDrive f).net = s.net := rfl
@[simp] theorem State.modDrive_hbm (f : DriveState → DriveState) : (s.modDrive f).hbm = s.hbm := rfl
@[simp] theorem State.modDrive_run (f : DriveState → DriveState) : (s.modDrive f).run = s.run := rfl
@[simp] theorem State.modDrive_surf (f : DriveState → DriveState) : (s.modDrive f).surf = s.surf := rfl
@[simp] theorem State.modDrive_therm (f : DriveState → DriveState) : (s.modDrive f).therm = s.therm := rfl
@[simp] theorem State.modDrive_aod (f : DriveState → DriveState) : (s.modDrive f).aod = s.aod := rfl
@[simp] theorem State.modDrive_jrn (f : DriveState → DriveState) : (s.modDrive f).jrn = s.jrn := rfl
@[simp] theorem State.modDrive_flash (f : DriveState → DriveState) : (s.modDrive f).flash = s.flash := rfl
@[simp] theorem State.modDrive_ann (f : DriveState → DriveState) : (s.modDrive f).ann = s.ann := rfl
@[simp] theorem State.modDrive_guard (f : DriveState → DriveState) : (s.modDrive f).guard = s.guard := rfl
@[simp] theorem State.modDrive_cruc (f : DriveState → DriveState) : (s.modDrive f).cruc = s.cruc := rfl
@[simp] theorem State.modDrive_fuse (f : DriveState → DriveState) : (s.modDrive f).fuse = s.fuse := rfl
@[simp] theorem State.modDrive_mgmt (f : DriveState → DriveState) : (s.modDrive f).mgmt = s.mgmt := rfl
@[simp] theorem State.modDrive_log (f : DriveState → DriveState) : (s.modDrive f).log = s.log := rfl
@[simp] theorem State.modDrive_mode (f : DriveState → DriveState) : (s.modDrive f).mode = s.mode := rfl
@[simp] theorem State.modDrive_free (f : DriveState → DriveState) : (s.modDrive f).free = s.free := rfl
@[simp] theorem State.modDrive_pending (f : DriveState → DriveState) : (s.modDrive f).pending = s.pending := rfl

@[simp] theorem State.modComposer_seq (f : ComposerState → ComposerState) : (s.modComposer f).seq = s.seq := rfl
@[simp] theorem State.modComposer_tb (f : ComposerState → ComposerState) : (s.modComposer f).tb = s.tb := rfl
@[simp] theorem State.modComposer_enc (f : ComposerState → ComposerState) : (s.modComposer f).enc = s.enc := rfl
@[simp] theorem State.modComposer_fs (f : ComposerState → ComposerState) : (s.modComposer f).fs = s.fs := rfl
@[simp] theorem State.modComposer_tg (f : ComposerState → ComposerState) : (s.modComposer f).tg = s.tg := rfl
@[simp] theorem State.modComposer_ladle (f : ComposerState → ComposerState) : (s.modComposer f).ladle = s.ladle := rfl
@[simp] theorem State.modComposer_rlv (f : ComposerState → ComposerState) : (s.modComposer f).rlv = s.rlv := rfl
@[simp] theorem State.modComposer_comp (f : ComposerState → ComposerState) : (s.modComposer f).comp = s.comp := rfl
@[simp] theorem State.modComposer_drive (f : ComposerState → ComposerState) : (s.modComposer f).drive = s.drive := rfl
@[simp] theorem State.modComposer_port (f : ComposerState → ComposerState) : (s.modComposer f).port = s.port := rfl
@[simp] theorem State.modComposer_scan (f : ComposerState → ComposerState) : (s.modComposer f).scan = s.scan := rfl
@[simp] theorem State.modComposer_input (f : ComposerState → ComposerState) : (s.modComposer f).input = s.input := rfl
@[simp] theorem State.modComposer_ptp (f : ComposerState → ComposerState) : (s.modComposer f).ptp = s.ptp := rfl
@[simp] theorem State.modComposer_pcie (f : ComposerState → ComposerState) : (s.modComposer f).pcie = s.pcie := rfl
@[simp] theorem State.modComposer_net (f : ComposerState → ComposerState) : (s.modComposer f).net = s.net := rfl
@[simp] theorem State.modComposer_hbm (f : ComposerState → ComposerState) : (s.modComposer f).hbm = s.hbm := rfl
@[simp] theorem State.modComposer_run (f : ComposerState → ComposerState) : (s.modComposer f).run = s.run := rfl
@[simp] theorem State.modComposer_surf (f : ComposerState → ComposerState) : (s.modComposer f).surf = s.surf := rfl
@[simp] theorem State.modComposer_therm (f : ComposerState → ComposerState) : (s.modComposer f).therm = s.therm := rfl
@[simp] theorem State.modComposer_aod (f : ComposerState → ComposerState) : (s.modComposer f).aod = s.aod := rfl
@[simp] theorem State.modComposer_jrn (f : ComposerState → ComposerState) : (s.modComposer f).jrn = s.jrn := rfl
@[simp] theorem State.modComposer_flash (f : ComposerState → ComposerState) : (s.modComposer f).flash = s.flash := rfl
@[simp] theorem State.modComposer_ann (f : ComposerState → ComposerState) : (s.modComposer f).ann = s.ann := rfl
@[simp] theorem State.modComposer_guard (f : ComposerState → ComposerState) : (s.modComposer f).guard = s.guard := rfl
@[simp] theorem State.modComposer_cruc (f : ComposerState → ComposerState) : (s.modComposer f).cruc = s.cruc := rfl
@[simp] theorem State.modComposer_fuse (f : ComposerState → ComposerState) : (s.modComposer f).fuse = s.fuse := rfl
@[simp] theorem State.modComposer_mgmt (f : ComposerState → ComposerState) : (s.modComposer f).mgmt = s.mgmt := rfl
@[simp] theorem State.modComposer_log (f : ComposerState → ComposerState) : (s.modComposer f).log = s.log := rfl
@[simp] theorem State.modComposer_mode (f : ComposerState → ComposerState) : (s.modComposer f).mode = s.mode := rfl
@[simp] theorem State.modComposer_free (f : ComposerState → ComposerState) : (s.modComposer f).free = s.free := rfl
@[simp] theorem State.modComposer_pending (f : ComposerState → ComposerState) : (s.modComposer f).pending = s.pending := rfl

@[simp] theorem State.modLadle_seq (f : LadleState → LadleState) : (s.modLadle f).seq = s.seq := rfl
@[simp] theorem State.modLadle_tb (f : LadleState → LadleState) : (s.modLadle f).tb = s.tb := rfl
@[simp] theorem State.modLadle_enc (f : LadleState → LadleState) : (s.modLadle f).enc = s.enc := rfl
@[simp] theorem State.modLadle_fs (f : LadleState → LadleState) : (s.modLadle f).fs = s.fs := rfl
@[simp] theorem State.modLadle_tg (f : LadleState → LadleState) : (s.modLadle f).tg = s.tg := rfl
@[simp] theorem State.modLadle_rlv (f : LadleState → LadleState) : (s.modLadle f).rlv = s.rlv := rfl
@[simp] theorem State.modLadle_comp (f : LadleState → LadleState) : (s.modLadle f).comp = s.comp := rfl
@[simp] theorem State.modLadle_composer (f : LadleState → LadleState) : (s.modLadle f).composer = s.composer := rfl
@[simp] theorem State.modLadle_drive (f : LadleState → LadleState) : (s.modLadle f).drive = s.drive := rfl
@[simp] theorem State.modLadle_port (f : LadleState → LadleState) : (s.modLadle f).port = s.port := rfl
@[simp] theorem State.modLadle_scan (f : LadleState → LadleState) : (s.modLadle f).scan = s.scan := rfl
@[simp] theorem State.modLadle_input (f : LadleState → LadleState) : (s.modLadle f).input = s.input := rfl
@[simp] theorem State.modLadle_ptp (f : LadleState → LadleState) : (s.modLadle f).ptp = s.ptp := rfl
@[simp] theorem State.modLadle_pcie (f : LadleState → LadleState) : (s.modLadle f).pcie = s.pcie := rfl
@[simp] theorem State.modLadle_net (f : LadleState → LadleState) : (s.modLadle f).net = s.net := rfl
@[simp] theorem State.modLadle_hbm (f : LadleState → LadleState) : (s.modLadle f).hbm = s.hbm := rfl
@[simp] theorem State.modLadle_run (f : LadleState → LadleState) : (s.modLadle f).run = s.run := rfl
@[simp] theorem State.modLadle_surf (f : LadleState → LadleState) : (s.modLadle f).surf = s.surf := rfl
@[simp] theorem State.modLadle_therm (f : LadleState → LadleState) : (s.modLadle f).therm = s.therm := rfl
@[simp] theorem State.modLadle_aod (f : LadleState → LadleState) : (s.modLadle f).aod = s.aod := rfl
@[simp] theorem State.modLadle_jrn (f : LadleState → LadleState) : (s.modLadle f).jrn = s.jrn := rfl
@[simp] theorem State.modLadle_flash (f : LadleState → LadleState) : (s.modLadle f).flash = s.flash := rfl
@[simp] theorem State.modLadle_ann (f : LadleState → LadleState) : (s.modLadle f).ann = s.ann := rfl
@[simp] theorem State.modLadle_guard (f : LadleState → LadleState) : (s.modLadle f).guard = s.guard := rfl
@[simp] theorem State.modLadle_cruc (f : LadleState → LadleState) : (s.modLadle f).cruc = s.cruc := rfl
@[simp] theorem State.modLadle_fuse (f : LadleState → LadleState) : (s.modLadle f).fuse = s.fuse := rfl
@[simp] theorem State.modLadle_mgmt (f : LadleState → LadleState) : (s.modLadle f).mgmt = s.mgmt := rfl
@[simp] theorem State.modLadle_log (f : LadleState → LadleState) : (s.modLadle f).log = s.log := rfl
@[simp] theorem State.modLadle_mode (f : LadleState → LadleState) : (s.modLadle f).mode = s.mode := rfl
@[simp] theorem State.modLadle_free (f : LadleState → LadleState) : (s.modLadle f).free = s.free := rfl
@[simp] theorem State.modLadle_pending (f : LadleState → LadleState) : (s.modLadle f).pending = s.pending := rfl

@[simp] theorem State.modAod_seq (f : AodState → AodState) : (s.modAod f).seq = s.seq := rfl
@[simp] theorem State.modAod_tb (f : AodState → AodState) : (s.modAod f).tb = s.tb := rfl
@[simp] theorem State.modAod_enc (f : AodState → AodState) : (s.modAod f).enc = s.enc := rfl
@[simp] theorem State.modAod_fs (f : AodState → AodState) : (s.modAod f).fs = s.fs := rfl
@[simp] theorem State.modAod_tg (f : AodState → AodState) : (s.modAod f).tg = s.tg := rfl
@[simp] theorem State.modAod_ladle (f : AodState → AodState) : (s.modAod f).ladle = s.ladle := rfl
@[simp] theorem State.modAod_rlv (f : AodState → AodState) : (s.modAod f).rlv = s.rlv := rfl
@[simp] theorem State.modAod_comp (f : AodState → AodState) : (s.modAod f).comp = s.comp := rfl
@[simp] theorem State.modAod_composer (f : AodState → AodState) : (s.modAod f).composer = s.composer := rfl
@[simp] theorem State.modAod_drive (f : AodState → AodState) : (s.modAod f).drive = s.drive := rfl
@[simp] theorem State.modAod_port (f : AodState → AodState) : (s.modAod f).port = s.port := rfl
@[simp] theorem State.modAod_scan (f : AodState → AodState) : (s.modAod f).scan = s.scan := rfl
@[simp] theorem State.modAod_input (f : AodState → AodState) : (s.modAod f).input = s.input := rfl
@[simp] theorem State.modAod_ptp (f : AodState → AodState) : (s.modAod f).ptp = s.ptp := rfl
@[simp] theorem State.modAod_pcie (f : AodState → AodState) : (s.modAod f).pcie = s.pcie := rfl
@[simp] theorem State.modAod_net (f : AodState → AodState) : (s.modAod f).net = s.net := rfl
@[simp] theorem State.modAod_hbm (f : AodState → AodState) : (s.modAod f).hbm = s.hbm := rfl
@[simp] theorem State.modAod_run (f : AodState → AodState) : (s.modAod f).run = s.run := rfl
@[simp] theorem State.modAod_surf (f : AodState → AodState) : (s.modAod f).surf = s.surf := rfl
@[simp] theorem State.modAod_therm (f : AodState → AodState) : (s.modAod f).therm = s.therm := rfl
@[simp] theorem State.modAod_jrn (f : AodState → AodState) : (s.modAod f).jrn = s.jrn := rfl
@[simp] theorem State.modAod_flash (f : AodState → AodState) : (s.modAod f).flash = s.flash := rfl
@[simp] theorem State.modAod_ann (f : AodState → AodState) : (s.modAod f).ann = s.ann := rfl
@[simp] theorem State.modAod_guard (f : AodState → AodState) : (s.modAod f).guard = s.guard := rfl
@[simp] theorem State.modAod_cruc (f : AodState → AodState) : (s.modAod f).cruc = s.cruc := rfl
@[simp] theorem State.modAod_fuse (f : AodState → AodState) : (s.modAod f).fuse = s.fuse := rfl
@[simp] theorem State.modAod_mgmt (f : AodState → AodState) : (s.modAod f).mgmt = s.mgmt := rfl
@[simp] theorem State.modAod_log (f : AodState → AodState) : (s.modAod f).log = s.log := rfl
@[simp] theorem State.modAod_mode (f : AodState → AodState) : (s.modAod f).mode = s.mode := rfl
@[simp] theorem State.modAod_free (f : AodState → AodState) : (s.modAod f).free = s.free := rfl
@[simp] theorem State.modAod_pending (f : AodState → AodState) : (s.modAod f).pending = s.pending := rfl

@[simp] theorem State.modMgmt_seq (f : MgmtState → MgmtState) : (s.modMgmt f).seq = s.seq := rfl
@[simp] theorem State.modMgmt_tb (f : MgmtState → MgmtState) : (s.modMgmt f).tb = s.tb := rfl
@[simp] theorem State.modMgmt_enc (f : MgmtState → MgmtState) : (s.modMgmt f).enc = s.enc := rfl
@[simp] theorem State.modMgmt_fs (f : MgmtState → MgmtState) : (s.modMgmt f).fs = s.fs := rfl
@[simp] theorem State.modMgmt_tg (f : MgmtState → MgmtState) : (s.modMgmt f).tg = s.tg := rfl
@[simp] theorem State.modMgmt_ladle (f : MgmtState → MgmtState) : (s.modMgmt f).ladle = s.ladle := rfl
@[simp] theorem State.modMgmt_rlv (f : MgmtState → MgmtState) : (s.modMgmt f).rlv = s.rlv := rfl
@[simp] theorem State.modMgmt_comp (f : MgmtState → MgmtState) : (s.modMgmt f).comp = s.comp := rfl
@[simp] theorem State.modMgmt_composer (f : MgmtState → MgmtState) : (s.modMgmt f).composer = s.composer := rfl
@[simp] theorem State.modMgmt_drive (f : MgmtState → MgmtState) : (s.modMgmt f).drive = s.drive := rfl
@[simp] theorem State.modMgmt_port (f : MgmtState → MgmtState) : (s.modMgmt f).port = s.port := rfl
@[simp] theorem State.modMgmt_scan (f : MgmtState → MgmtState) : (s.modMgmt f).scan = s.scan := rfl
@[simp] theorem State.modMgmt_input (f : MgmtState → MgmtState) : (s.modMgmt f).input = s.input := rfl
@[simp] theorem State.modMgmt_ptp (f : MgmtState → MgmtState) : (s.modMgmt f).ptp = s.ptp := rfl
@[simp] theorem State.modMgmt_pcie (f : MgmtState → MgmtState) : (s.modMgmt f).pcie = s.pcie := rfl
@[simp] theorem State.modMgmt_net (f : MgmtState → MgmtState) : (s.modMgmt f).net = s.net := rfl
@[simp] theorem State.modMgmt_hbm (f : MgmtState → MgmtState) : (s.modMgmt f).hbm = s.hbm := rfl
@[simp] theorem State.modMgmt_run (f : MgmtState → MgmtState) : (s.modMgmt f).run = s.run := rfl
@[simp] theorem State.modMgmt_surf (f : MgmtState → MgmtState) : (s.modMgmt f).surf = s.surf := rfl
@[simp] theorem State.modMgmt_therm (f : MgmtState → MgmtState) : (s.modMgmt f).therm = s.therm := rfl
@[simp] theorem State.modMgmt_aod (f : MgmtState → MgmtState) : (s.modMgmt f).aod = s.aod := rfl
@[simp] theorem State.modMgmt_jrn (f : MgmtState → MgmtState) : (s.modMgmt f).jrn = s.jrn := rfl
@[simp] theorem State.modMgmt_flash (f : MgmtState → MgmtState) : (s.modMgmt f).flash = s.flash := rfl
@[simp] theorem State.modMgmt_ann (f : MgmtState → MgmtState) : (s.modMgmt f).ann = s.ann := rfl
@[simp] theorem State.modMgmt_guard (f : MgmtState → MgmtState) : (s.modMgmt f).guard = s.guard := rfl
@[simp] theorem State.modMgmt_cruc (f : MgmtState → MgmtState) : (s.modMgmt f).cruc = s.cruc := rfl
@[simp] theorem State.modMgmt_fuse (f : MgmtState → MgmtState) : (s.modMgmt f).fuse = s.fuse := rfl
@[simp] theorem State.modMgmt_log (f : MgmtState → MgmtState) : (s.modMgmt f).log = s.log := rfl
@[simp] theorem State.modMgmt_mode (f : MgmtState → MgmtState) : (s.modMgmt f).mode = s.mode := rfl
@[simp] theorem State.modMgmt_free (f : MgmtState → MgmtState) : (s.modMgmt f).free = s.free := rfl
@[simp] theorem State.modMgmt_pending (f : MgmtState → MgmtState) : (s.modMgmt f).pending = s.pending := rfl

@[simp] theorem State.modHbm_seq (f : HbmState → HbmState) : (s.modHbm f).seq = s.seq := rfl
@[simp] theorem State.modHbm_tb (f : HbmState → HbmState) : (s.modHbm f).tb = s.tb := rfl
@[simp] theorem State.modHbm_enc (f : HbmState → HbmState) : (s.modHbm f).enc = s.enc := rfl
@[simp] theorem State.modHbm_fs (f : HbmState → HbmState) : (s.modHbm f).fs = s.fs := rfl
@[simp] theorem State.modHbm_tg (f : HbmState → HbmState) : (s.modHbm f).tg = s.tg := rfl
@[simp] theorem State.modHbm_ladle (f : HbmState → HbmState) : (s.modHbm f).ladle = s.ladle := rfl
@[simp] theorem State.modHbm_rlv (f : HbmState → HbmState) : (s.modHbm f).rlv = s.rlv := rfl
@[simp] theorem State.modHbm_comp (f : HbmState → HbmState) : (s.modHbm f).comp = s.comp := rfl
@[simp] theorem State.modHbm_composer (f : HbmState → HbmState) : (s.modHbm f).composer = s.composer := rfl
@[simp] theorem State.modHbm_drive (f : HbmState → HbmState) : (s.modHbm f).drive = s.drive := rfl
@[simp] theorem State.modHbm_port (f : HbmState → HbmState) : (s.modHbm f).port = s.port := rfl
@[simp] theorem State.modHbm_scan (f : HbmState → HbmState) : (s.modHbm f).scan = s.scan := rfl
@[simp] theorem State.modHbm_input (f : HbmState → HbmState) : (s.modHbm f).input = s.input := rfl
@[simp] theorem State.modHbm_ptp (f : HbmState → HbmState) : (s.modHbm f).ptp = s.ptp := rfl
@[simp] theorem State.modHbm_pcie (f : HbmState → HbmState) : (s.modHbm f).pcie = s.pcie := rfl
@[simp] theorem State.modHbm_net (f : HbmState → HbmState) : (s.modHbm f).net = s.net := rfl
@[simp] theorem State.modHbm_run (f : HbmState → HbmState) : (s.modHbm f).run = s.run := rfl
@[simp] theorem State.modHbm_surf (f : HbmState → HbmState) : (s.modHbm f).surf = s.surf := rfl
@[simp] theorem State.modHbm_therm (f : HbmState → HbmState) : (s.modHbm f).therm = s.therm := rfl
@[simp] theorem State.modHbm_aod (f : HbmState → HbmState) : (s.modHbm f).aod = s.aod := rfl
@[simp] theorem State.modHbm_jrn (f : HbmState → HbmState) : (s.modHbm f).jrn = s.jrn := rfl
@[simp] theorem State.modHbm_flash (f : HbmState → HbmState) : (s.modHbm f).flash = s.flash := rfl
@[simp] theorem State.modHbm_ann (f : HbmState → HbmState) : (s.modHbm f).ann = s.ann := rfl
@[simp] theorem State.modHbm_guard (f : HbmState → HbmState) : (s.modHbm f).guard = s.guard := rfl
@[simp] theorem State.modHbm_cruc (f : HbmState → HbmState) : (s.modHbm f).cruc = s.cruc := rfl
@[simp] theorem State.modHbm_fuse (f : HbmState → HbmState) : (s.modHbm f).fuse = s.fuse := rfl
@[simp] theorem State.modHbm_mgmt (f : HbmState → HbmState) : (s.modHbm f).mgmt = s.mgmt := rfl
@[simp] theorem State.modHbm_log (f : HbmState → HbmState) : (s.modHbm f).log = s.log := rfl
@[simp] theorem State.modHbm_mode (f : HbmState → HbmState) : (s.modHbm f).mode = s.mode := rfl
@[simp] theorem State.modHbm_free (f : HbmState → HbmState) : (s.modHbm f).free = s.free := rfl
@[simp] theorem State.modHbm_pending (f : HbmState → HbmState) : (s.modHbm f).pending = s.pending := rfl

@[simp] theorem State.modRun_seq (f : RunnerState → RunnerState) : (s.modRun f).seq = s.seq := rfl
@[simp] theorem State.modRun_tb (f : RunnerState → RunnerState) : (s.modRun f).tb = s.tb := rfl
@[simp] theorem State.modRun_enc (f : RunnerState → RunnerState) : (s.modRun f).enc = s.enc := rfl
@[simp] theorem State.modRun_fs (f : RunnerState → RunnerState) : (s.modRun f).fs = s.fs := rfl
@[simp] theorem State.modRun_tg (f : RunnerState → RunnerState) : (s.modRun f).tg = s.tg := rfl
@[simp] theorem State.modRun_ladle (f : RunnerState → RunnerState) : (s.modRun f).ladle = s.ladle := rfl
@[simp] theorem State.modRun_rlv (f : RunnerState → RunnerState) : (s.modRun f).rlv = s.rlv := rfl
@[simp] theorem State.modRun_comp (f : RunnerState → RunnerState) : (s.modRun f).comp = s.comp := rfl
@[simp] theorem State.modRun_composer (f : RunnerState → RunnerState) : (s.modRun f).composer = s.composer := rfl
@[simp] theorem State.modRun_drive (f : RunnerState → RunnerState) : (s.modRun f).drive = s.drive := rfl
@[simp] theorem State.modRun_port (f : RunnerState → RunnerState) : (s.modRun f).port = s.port := rfl
@[simp] theorem State.modRun_scan (f : RunnerState → RunnerState) : (s.modRun f).scan = s.scan := rfl
@[simp] theorem State.modRun_input (f : RunnerState → RunnerState) : (s.modRun f).input = s.input := rfl
@[simp] theorem State.modRun_ptp (f : RunnerState → RunnerState) : (s.modRun f).ptp = s.ptp := rfl
@[simp] theorem State.modRun_pcie (f : RunnerState → RunnerState) : (s.modRun f).pcie = s.pcie := rfl
@[simp] theorem State.modRun_net (f : RunnerState → RunnerState) : (s.modRun f).net = s.net := rfl
@[simp] theorem State.modRun_hbm (f : RunnerState → RunnerState) : (s.modRun f).hbm = s.hbm := rfl
@[simp] theorem State.modRun_surf (f : RunnerState → RunnerState) : (s.modRun f).surf = s.surf := rfl
@[simp] theorem State.modRun_therm (f : RunnerState → RunnerState) : (s.modRun f).therm = s.therm := rfl
@[simp] theorem State.modRun_aod (f : RunnerState → RunnerState) : (s.modRun f).aod = s.aod := rfl
@[simp] theorem State.modRun_jrn (f : RunnerState → RunnerState) : (s.modRun f).jrn = s.jrn := rfl
@[simp] theorem State.modRun_flash (f : RunnerState → RunnerState) : (s.modRun f).flash = s.flash := rfl
@[simp] theorem State.modRun_ann (f : RunnerState → RunnerState) : (s.modRun f).ann = s.ann := rfl
@[simp] theorem State.modRun_guard (f : RunnerState → RunnerState) : (s.modRun f).guard = s.guard := rfl
@[simp] theorem State.modRun_cruc (f : RunnerState → RunnerState) : (s.modRun f).cruc = s.cruc := rfl
@[simp] theorem State.modRun_fuse (f : RunnerState → RunnerState) : (s.modRun f).fuse = s.fuse := rfl
@[simp] theorem State.modRun_mgmt (f : RunnerState → RunnerState) : (s.modRun f).mgmt = s.mgmt := rfl
@[simp] theorem State.modRun_log (f : RunnerState → RunnerState) : (s.modRun f).log = s.log := rfl
@[simp] theorem State.modRun_mode (f : RunnerState → RunnerState) : (s.modRun f).mode = s.mode := rfl
@[simp] theorem State.modRun_free (f : RunnerState → RunnerState) : (s.modRun f).free = s.free := rfl
@[simp] theorem State.modRun_pending (f : RunnerState → RunnerState) : (s.modRun f).pending = s.pending := rfl

@[simp] theorem State.modSurf_seq (f : SurfState → SurfState) : (s.modSurf f).seq = s.seq := rfl
@[simp] theorem State.modSurf_tb (f : SurfState → SurfState) : (s.modSurf f).tb = s.tb := rfl
@[simp] theorem State.modSurf_enc (f : SurfState → SurfState) : (s.modSurf f).enc = s.enc := rfl
@[simp] theorem State.modSurf_fs (f : SurfState → SurfState) : (s.modSurf f).fs = s.fs := rfl
@[simp] theorem State.modSurf_tg (f : SurfState → SurfState) : (s.modSurf f).tg = s.tg := rfl
@[simp] theorem State.modSurf_ladle (f : SurfState → SurfState) : (s.modSurf f).ladle = s.ladle := rfl
@[simp] theorem State.modSurf_rlv (f : SurfState → SurfState) : (s.modSurf f).rlv = s.rlv := rfl
@[simp] theorem State.modSurf_comp (f : SurfState → SurfState) : (s.modSurf f).comp = s.comp := rfl
@[simp] theorem State.modSurf_composer (f : SurfState → SurfState) : (s.modSurf f).composer = s.composer := rfl
@[simp] theorem State.modSurf_drive (f : SurfState → SurfState) : (s.modSurf f).drive = s.drive := rfl
@[simp] theorem State.modSurf_port (f : SurfState → SurfState) : (s.modSurf f).port = s.port := rfl
@[simp] theorem State.modSurf_scan (f : SurfState → SurfState) : (s.modSurf f).scan = s.scan := rfl
@[simp] theorem State.modSurf_input (f : SurfState → SurfState) : (s.modSurf f).input = s.input := rfl
@[simp] theorem State.modSurf_ptp (f : SurfState → SurfState) : (s.modSurf f).ptp = s.ptp := rfl
@[simp] theorem State.modSurf_pcie (f : SurfState → SurfState) : (s.modSurf f).pcie = s.pcie := rfl
@[simp] theorem State.modSurf_net (f : SurfState → SurfState) : (s.modSurf f).net = s.net := rfl
@[simp] theorem State.modSurf_hbm (f : SurfState → SurfState) : (s.modSurf f).hbm = s.hbm := rfl
@[simp] theorem State.modSurf_run (f : SurfState → SurfState) : (s.modSurf f).run = s.run := rfl
@[simp] theorem State.modSurf_therm (f : SurfState → SurfState) : (s.modSurf f).therm = s.therm := rfl
@[simp] theorem State.modSurf_aod (f : SurfState → SurfState) : (s.modSurf f).aod = s.aod := rfl
@[simp] theorem State.modSurf_jrn (f : SurfState → SurfState) : (s.modSurf f).jrn = s.jrn := rfl
@[simp] theorem State.modSurf_flash (f : SurfState → SurfState) : (s.modSurf f).flash = s.flash := rfl
@[simp] theorem State.modSurf_ann (f : SurfState → SurfState) : (s.modSurf f).ann = s.ann := rfl
@[simp] theorem State.modSurf_guard (f : SurfState → SurfState) : (s.modSurf f).guard = s.guard := rfl
@[simp] theorem State.modSurf_cruc (f : SurfState → SurfState) : (s.modSurf f).cruc = s.cruc := rfl
@[simp] theorem State.modSurf_fuse (f : SurfState → SurfState) : (s.modSurf f).fuse = s.fuse := rfl
@[simp] theorem State.modSurf_mgmt (f : SurfState → SurfState) : (s.modSurf f).mgmt = s.mgmt := rfl
@[simp] theorem State.modSurf_log (f : SurfState → SurfState) : (s.modSurf f).log = s.log := rfl
@[simp] theorem State.modSurf_mode (f : SurfState → SurfState) : (s.modSurf f).mode = s.mode := rfl
@[simp] theorem State.modSurf_free (f : SurfState → SurfState) : (s.modSurf f).free = s.free := rfl
@[simp] theorem State.modSurf_pending (f : SurfState → SurfState) : (s.modSurf f).pending = s.pending := rfl

@[simp] theorem State.modTherm_seq (f : ThermState → ThermState) : (s.modTherm f).seq = s.seq := rfl
@[simp] theorem State.modTherm_tb (f : ThermState → ThermState) : (s.modTherm f).tb = s.tb := rfl
@[simp] theorem State.modTherm_enc (f : ThermState → ThermState) : (s.modTherm f).enc = s.enc := rfl
@[simp] theorem State.modTherm_fs (f : ThermState → ThermState) : (s.modTherm f).fs = s.fs := rfl
@[simp] theorem State.modTherm_tg (f : ThermState → ThermState) : (s.modTherm f).tg = s.tg := rfl
@[simp] theorem State.modTherm_ladle (f : ThermState → ThermState) : (s.modTherm f).ladle = s.ladle := rfl
@[simp] theorem State.modTherm_rlv (f : ThermState → ThermState) : (s.modTherm f).rlv = s.rlv := rfl
@[simp] theorem State.modTherm_comp (f : ThermState → ThermState) : (s.modTherm f).comp = s.comp := rfl
@[simp] theorem State.modTherm_composer (f : ThermState → ThermState) : (s.modTherm f).composer = s.composer := rfl
@[simp] theorem State.modTherm_drive (f : ThermState → ThermState) : (s.modTherm f).drive = s.drive := rfl
@[simp] theorem State.modTherm_port (f : ThermState → ThermState) : (s.modTherm f).port = s.port := rfl
@[simp] theorem State.modTherm_scan (f : ThermState → ThermState) : (s.modTherm f).scan = s.scan := rfl
@[simp] theorem State.modTherm_input (f : ThermState → ThermState) : (s.modTherm f).input = s.input := rfl
@[simp] theorem State.modTherm_ptp (f : ThermState → ThermState) : (s.modTherm f).ptp = s.ptp := rfl
@[simp] theorem State.modTherm_pcie (f : ThermState → ThermState) : (s.modTherm f).pcie = s.pcie := rfl
@[simp] theorem State.modTherm_net (f : ThermState → ThermState) : (s.modTherm f).net = s.net := rfl
@[simp] theorem State.modTherm_hbm (f : ThermState → ThermState) : (s.modTherm f).hbm = s.hbm := rfl
@[simp] theorem State.modTherm_run (f : ThermState → ThermState) : (s.modTherm f).run = s.run := rfl
@[simp] theorem State.modTherm_surf (f : ThermState → ThermState) : (s.modTherm f).surf = s.surf := rfl
@[simp] theorem State.modTherm_aod (f : ThermState → ThermState) : (s.modTherm f).aod = s.aod := rfl
@[simp] theorem State.modTherm_jrn (f : ThermState → ThermState) : (s.modTherm f).jrn = s.jrn := rfl
@[simp] theorem State.modTherm_flash (f : ThermState → ThermState) : (s.modTherm f).flash = s.flash := rfl
@[simp] theorem State.modTherm_ann (f : ThermState → ThermState) : (s.modTherm f).ann = s.ann := rfl
@[simp] theorem State.modTherm_guard (f : ThermState → ThermState) : (s.modTherm f).guard = s.guard := rfl
@[simp] theorem State.modTherm_cruc (f : ThermState → ThermState) : (s.modTherm f).cruc = s.cruc := rfl
@[simp] theorem State.modTherm_fuse (f : ThermState → ThermState) : (s.modTherm f).fuse = s.fuse := rfl
@[simp] theorem State.modTherm_mgmt (f : ThermState → ThermState) : (s.modTherm f).mgmt = s.mgmt := rfl
@[simp] theorem State.modTherm_log (f : ThermState → ThermState) : (s.modTherm f).log = s.log := rfl
@[simp] theorem State.modTherm_mode (f : ThermState → ThermState) : (s.modTherm f).mode = s.mode := rfl
@[simp] theorem State.modTherm_free (f : ThermState → ThermState) : (s.modTherm f).free = s.free := rfl
@[simp] theorem State.modTherm_pending (f : ThermState → ThermState) : (s.modTherm f).pending = s.pending := rfl

@[simp] theorem State.modAnn_seq (f : AnnealState → AnnealState) : (s.modAnn f).seq = s.seq := rfl
@[simp] theorem State.modAnn_tb (f : AnnealState → AnnealState) : (s.modAnn f).tb = s.tb := rfl
@[simp] theorem State.modAnn_enc (f : AnnealState → AnnealState) : (s.modAnn f).enc = s.enc := rfl
@[simp] theorem State.modAnn_fs (f : AnnealState → AnnealState) : (s.modAnn f).fs = s.fs := rfl
@[simp] theorem State.modAnn_tg (f : AnnealState → AnnealState) : (s.modAnn f).tg = s.tg := rfl
@[simp] theorem State.modAnn_ladle (f : AnnealState → AnnealState) : (s.modAnn f).ladle = s.ladle := rfl
@[simp] theorem State.modAnn_rlv (f : AnnealState → AnnealState) : (s.modAnn f).rlv = s.rlv := rfl
@[simp] theorem State.modAnn_comp (f : AnnealState → AnnealState) : (s.modAnn f).comp = s.comp := rfl
@[simp] theorem State.modAnn_composer (f : AnnealState → AnnealState) : (s.modAnn f).composer = s.composer := rfl
@[simp] theorem State.modAnn_drive (f : AnnealState → AnnealState) : (s.modAnn f).drive = s.drive := rfl
@[simp] theorem State.modAnn_port (f : AnnealState → AnnealState) : (s.modAnn f).port = s.port := rfl
@[simp] theorem State.modAnn_scan (f : AnnealState → AnnealState) : (s.modAnn f).scan = s.scan := rfl
@[simp] theorem State.modAnn_input (f : AnnealState → AnnealState) : (s.modAnn f).input = s.input := rfl
@[simp] theorem State.modAnn_ptp (f : AnnealState → AnnealState) : (s.modAnn f).ptp = s.ptp := rfl
@[simp] theorem State.modAnn_pcie (f : AnnealState → AnnealState) : (s.modAnn f).pcie = s.pcie := rfl
@[simp] theorem State.modAnn_net (f : AnnealState → AnnealState) : (s.modAnn f).net = s.net := rfl
@[simp] theorem State.modAnn_hbm (f : AnnealState → AnnealState) : (s.modAnn f).hbm = s.hbm := rfl
@[simp] theorem State.modAnn_run (f : AnnealState → AnnealState) : (s.modAnn f).run = s.run := rfl
@[simp] theorem State.modAnn_surf (f : AnnealState → AnnealState) : (s.modAnn f).surf = s.surf := rfl
@[simp] theorem State.modAnn_therm (f : AnnealState → AnnealState) : (s.modAnn f).therm = s.therm := rfl
@[simp] theorem State.modAnn_aod (f : AnnealState → AnnealState) : (s.modAnn f).aod = s.aod := rfl
@[simp] theorem State.modAnn_jrn (f : AnnealState → AnnealState) : (s.modAnn f).jrn = s.jrn := rfl
@[simp] theorem State.modAnn_flash (f : AnnealState → AnnealState) : (s.modAnn f).flash = s.flash := rfl
@[simp] theorem State.modAnn_guard (f : AnnealState → AnnealState) : (s.modAnn f).guard = s.guard := rfl
@[simp] theorem State.modAnn_cruc (f : AnnealState → AnnealState) : (s.modAnn f).cruc = s.cruc := rfl
@[simp] theorem State.modAnn_fuse (f : AnnealState → AnnealState) : (s.modAnn f).fuse = s.fuse := rfl
@[simp] theorem State.modAnn_mgmt (f : AnnealState → AnnealState) : (s.modAnn f).mgmt = s.mgmt := rfl
@[simp] theorem State.modAnn_log (f : AnnealState → AnnealState) : (s.modAnn f).log = s.log := rfl
@[simp] theorem State.modAnn_mode (f : AnnealState → AnnealState) : (s.modAnn f).mode = s.mode := rfl
@[simp] theorem State.modAnn_free (f : AnnealState → AnnealState) : (s.modAnn f).free = s.free := rfl
@[simp] theorem State.modAnn_pending (f : AnnealState → AnnealState) : (s.modAnn f).pending = s.pending := rfl

@[simp] theorem State.modGuard_seq (f : GuardState → GuardState) : (s.modGuard f).seq = s.seq := rfl
@[simp] theorem State.modGuard_tb (f : GuardState → GuardState) : (s.modGuard f).tb = s.tb := rfl
@[simp] theorem State.modGuard_enc (f : GuardState → GuardState) : (s.modGuard f).enc = s.enc := rfl
@[simp] theorem State.modGuard_fs (f : GuardState → GuardState) : (s.modGuard f).fs = s.fs := rfl
@[simp] theorem State.modGuard_tg (f : GuardState → GuardState) : (s.modGuard f).tg = s.tg := rfl
@[simp] theorem State.modGuard_ladle (f : GuardState → GuardState) : (s.modGuard f).ladle = s.ladle := rfl
@[simp] theorem State.modGuard_rlv (f : GuardState → GuardState) : (s.modGuard f).rlv = s.rlv := rfl
@[simp] theorem State.modGuard_comp (f : GuardState → GuardState) : (s.modGuard f).comp = s.comp := rfl
@[simp] theorem State.modGuard_composer (f : GuardState → GuardState) : (s.modGuard f).composer = s.composer := rfl
@[simp] theorem State.modGuard_drive (f : GuardState → GuardState) : (s.modGuard f).drive = s.drive := rfl
@[simp] theorem State.modGuard_port (f : GuardState → GuardState) : (s.modGuard f).port = s.port := rfl
@[simp] theorem State.modGuard_scan (f : GuardState → GuardState) : (s.modGuard f).scan = s.scan := rfl
@[simp] theorem State.modGuard_input (f : GuardState → GuardState) : (s.modGuard f).input = s.input := rfl
@[simp] theorem State.modGuard_ptp (f : GuardState → GuardState) : (s.modGuard f).ptp = s.ptp := rfl
@[simp] theorem State.modGuard_pcie (f : GuardState → GuardState) : (s.modGuard f).pcie = s.pcie := rfl
@[simp] theorem State.modGuard_net (f : GuardState → GuardState) : (s.modGuard f).net = s.net := rfl
@[simp] theorem State.modGuard_hbm (f : GuardState → GuardState) : (s.modGuard f).hbm = s.hbm := rfl
@[simp] theorem State.modGuard_run (f : GuardState → GuardState) : (s.modGuard f).run = s.run := rfl
@[simp] theorem State.modGuard_surf (f : GuardState → GuardState) : (s.modGuard f).surf = s.surf := rfl
@[simp] theorem State.modGuard_therm (f : GuardState → GuardState) : (s.modGuard f).therm = s.therm := rfl
@[simp] theorem State.modGuard_aod (f : GuardState → GuardState) : (s.modGuard f).aod = s.aod := rfl
@[simp] theorem State.modGuard_jrn (f : GuardState → GuardState) : (s.modGuard f).jrn = s.jrn := rfl
@[simp] theorem State.modGuard_flash (f : GuardState → GuardState) : (s.modGuard f).flash = s.flash := rfl
@[simp] theorem State.modGuard_ann (f : GuardState → GuardState) : (s.modGuard f).ann = s.ann := rfl
@[simp] theorem State.modGuard_cruc (f : GuardState → GuardState) : (s.modGuard f).cruc = s.cruc := rfl
@[simp] theorem State.modGuard_fuse (f : GuardState → GuardState) : (s.modGuard f).fuse = s.fuse := rfl
@[simp] theorem State.modGuard_mgmt (f : GuardState → GuardState) : (s.modGuard f).mgmt = s.mgmt := rfl
@[simp] theorem State.modGuard_log (f : GuardState → GuardState) : (s.modGuard f).log = s.log := rfl
@[simp] theorem State.modGuard_mode (f : GuardState → GuardState) : (s.modGuard f).mode = s.mode := rfl
@[simp] theorem State.modGuard_free (f : GuardState → GuardState) : (s.modGuard f).free = s.free := rfl
@[simp] theorem State.modGuard_pending (f : GuardState → GuardState) : (s.modGuard f).pending = s.pending := rfl

@[simp] theorem State.modCruc_seq (f : CrucState → CrucState) : (s.modCruc f).seq = s.seq := rfl
@[simp] theorem State.modCruc_tb (f : CrucState → CrucState) : (s.modCruc f).tb = s.tb := rfl
@[simp] theorem State.modCruc_enc (f : CrucState → CrucState) : (s.modCruc f).enc = s.enc := rfl
@[simp] theorem State.modCruc_fs (f : CrucState → CrucState) : (s.modCruc f).fs = s.fs := rfl
@[simp] theorem State.modCruc_tg (f : CrucState → CrucState) : (s.modCruc f).tg = s.tg := rfl
@[simp] theorem State.modCruc_ladle (f : CrucState → CrucState) : (s.modCruc f).ladle = s.ladle := rfl
@[simp] theorem State.modCruc_rlv (f : CrucState → CrucState) : (s.modCruc f).rlv = s.rlv := rfl
@[simp] theorem State.modCruc_comp (f : CrucState → CrucState) : (s.modCruc f).comp = s.comp := rfl
@[simp] theorem State.modCruc_composer (f : CrucState → CrucState) : (s.modCruc f).composer = s.composer := rfl
@[simp] theorem State.modCruc_drive (f : CrucState → CrucState) : (s.modCruc f).drive = s.drive := rfl
@[simp] theorem State.modCruc_port (f : CrucState → CrucState) : (s.modCruc f).port = s.port := rfl
@[simp] theorem State.modCruc_scan (f : CrucState → CrucState) : (s.modCruc f).scan = s.scan := rfl
@[simp] theorem State.modCruc_input (f : CrucState → CrucState) : (s.modCruc f).input = s.input := rfl
@[simp] theorem State.modCruc_ptp (f : CrucState → CrucState) : (s.modCruc f).ptp = s.ptp := rfl
@[simp] theorem State.modCruc_pcie (f : CrucState → CrucState) : (s.modCruc f).pcie = s.pcie := rfl
@[simp] theorem State.modCruc_net (f : CrucState → CrucState) : (s.modCruc f).net = s.net := rfl
@[simp] theorem State.modCruc_hbm (f : CrucState → CrucState) : (s.modCruc f).hbm = s.hbm := rfl
@[simp] theorem State.modCruc_run (f : CrucState → CrucState) : (s.modCruc f).run = s.run := rfl
@[simp] theorem State.modCruc_surf (f : CrucState → CrucState) : (s.modCruc f).surf = s.surf := rfl
@[simp] theorem State.modCruc_therm (f : CrucState → CrucState) : (s.modCruc f).therm = s.therm := rfl
@[simp] theorem State.modCruc_aod (f : CrucState → CrucState) : (s.modCruc f).aod = s.aod := rfl
@[simp] theorem State.modCruc_jrn (f : CrucState → CrucState) : (s.modCruc f).jrn = s.jrn := rfl
@[simp] theorem State.modCruc_flash (f : CrucState → CrucState) : (s.modCruc f).flash = s.flash := rfl
@[simp] theorem State.modCruc_ann (f : CrucState → CrucState) : (s.modCruc f).ann = s.ann := rfl
@[simp] theorem State.modCruc_guard (f : CrucState → CrucState) : (s.modCruc f).guard = s.guard := rfl
@[simp] theorem State.modCruc_fuse (f : CrucState → CrucState) : (s.modCruc f).fuse = s.fuse := rfl
@[simp] theorem State.modCruc_mgmt (f : CrucState → CrucState) : (s.modCruc f).mgmt = s.mgmt := rfl
@[simp] theorem State.modCruc_log (f : CrucState → CrucState) : (s.modCruc f).log = s.log := rfl
@[simp] theorem State.modCruc_mode (f : CrucState → CrucState) : (s.modCruc f).mode = s.mode := rfl
@[simp] theorem State.modCruc_free (f : CrucState → CrucState) : (s.modCruc f).free = s.free := rfl
@[simp] theorem State.modCruc_pending (f : CrucState → CrucState) : (s.modCruc f).pending = s.pending := rfl

@[simp] theorem State.modJrn_seq (f : JournalState → JournalState) : (s.modJrn f).seq = s.seq := rfl
@[simp] theorem State.modJrn_tb (f : JournalState → JournalState) : (s.modJrn f).tb = s.tb := rfl
@[simp] theorem State.modJrn_enc (f : JournalState → JournalState) : (s.modJrn f).enc = s.enc := rfl
@[simp] theorem State.modJrn_fs (f : JournalState → JournalState) : (s.modJrn f).fs = s.fs := rfl
@[simp] theorem State.modJrn_tg (f : JournalState → JournalState) : (s.modJrn f).tg = s.tg := rfl
@[simp] theorem State.modJrn_ladle (f : JournalState → JournalState) : (s.modJrn f).ladle = s.ladle := rfl
@[simp] theorem State.modJrn_rlv (f : JournalState → JournalState) : (s.modJrn f).rlv = s.rlv := rfl
@[simp] theorem State.modJrn_comp (f : JournalState → JournalState) : (s.modJrn f).comp = s.comp := rfl
@[simp] theorem State.modJrn_composer (f : JournalState → JournalState) : (s.modJrn f).composer = s.composer := rfl
@[simp] theorem State.modJrn_drive (f : JournalState → JournalState) : (s.modJrn f).drive = s.drive := rfl
@[simp] theorem State.modJrn_port (f : JournalState → JournalState) : (s.modJrn f).port = s.port := rfl
@[simp] theorem State.modJrn_scan (f : JournalState → JournalState) : (s.modJrn f).scan = s.scan := rfl
@[simp] theorem State.modJrn_input (f : JournalState → JournalState) : (s.modJrn f).input = s.input := rfl
@[simp] theorem State.modJrn_ptp (f : JournalState → JournalState) : (s.modJrn f).ptp = s.ptp := rfl
@[simp] theorem State.modJrn_pcie (f : JournalState → JournalState) : (s.modJrn f).pcie = s.pcie := rfl
@[simp] theorem State.modJrn_net (f : JournalState → JournalState) : (s.modJrn f).net = s.net := rfl
@[simp] theorem State.modJrn_hbm (f : JournalState → JournalState) : (s.modJrn f).hbm = s.hbm := rfl
@[simp] theorem State.modJrn_run (f : JournalState → JournalState) : (s.modJrn f).run = s.run := rfl
@[simp] theorem State.modJrn_surf (f : JournalState → JournalState) : (s.modJrn f).surf = s.surf := rfl
@[simp] theorem State.modJrn_therm (f : JournalState → JournalState) : (s.modJrn f).therm = s.therm := rfl
@[simp] theorem State.modJrn_aod (f : JournalState → JournalState) : (s.modJrn f).aod = s.aod := rfl
@[simp] theorem State.modJrn_flash (f : JournalState → JournalState) : (s.modJrn f).flash = s.flash := rfl
@[simp] theorem State.modJrn_ann (f : JournalState → JournalState) : (s.modJrn f).ann = s.ann := rfl
@[simp] theorem State.modJrn_guard (f : JournalState → JournalState) : (s.modJrn f).guard = s.guard := rfl
@[simp] theorem State.modJrn_cruc (f : JournalState → JournalState) : (s.modJrn f).cruc = s.cruc := rfl
@[simp] theorem State.modJrn_fuse (f : JournalState → JournalState) : (s.modJrn f).fuse = s.fuse := rfl
@[simp] theorem State.modJrn_mgmt (f : JournalState → JournalState) : (s.modJrn f).mgmt = s.mgmt := rfl
@[simp] theorem State.modJrn_log (f : JournalState → JournalState) : (s.modJrn f).log = s.log := rfl
@[simp] theorem State.modJrn_mode (f : JournalState → JournalState) : (s.modJrn f).mode = s.mode := rfl
@[simp] theorem State.modJrn_free (f : JournalState → JournalState) : (s.modJrn f).free = s.free := rfl
@[simp] theorem State.modJrn_pending (f : JournalState → JournalState) : (s.modJrn f).pending = s.pending := rfl

@[simp] theorem State.modMode_seq (f : ModeState → ModeState) : (s.modMode f).seq = s.seq := rfl
@[simp] theorem State.modMode_tb (f : ModeState → ModeState) : (s.modMode f).tb = s.tb := rfl
@[simp] theorem State.modMode_enc (f : ModeState → ModeState) : (s.modMode f).enc = s.enc := rfl
@[simp] theorem State.modMode_fs (f : ModeState → ModeState) : (s.modMode f).fs = s.fs := rfl
@[simp] theorem State.modMode_tg (f : ModeState → ModeState) : (s.modMode f).tg = s.tg := rfl
@[simp] theorem State.modMode_ladle (f : ModeState → ModeState) : (s.modMode f).ladle = s.ladle := rfl
@[simp] theorem State.modMode_rlv (f : ModeState → ModeState) : (s.modMode f).rlv = s.rlv := rfl
@[simp] theorem State.modMode_comp (f : ModeState → ModeState) : (s.modMode f).comp = s.comp := rfl
@[simp] theorem State.modMode_composer (f : ModeState → ModeState) : (s.modMode f).composer = s.composer := rfl
@[simp] theorem State.modMode_drive (f : ModeState → ModeState) : (s.modMode f).drive = s.drive := rfl
@[simp] theorem State.modMode_port (f : ModeState → ModeState) : (s.modMode f).port = s.port := rfl
@[simp] theorem State.modMode_scan (f : ModeState → ModeState) : (s.modMode f).scan = s.scan := rfl
@[simp] theorem State.modMode_input (f : ModeState → ModeState) : (s.modMode f).input = s.input := rfl
@[simp] theorem State.modMode_ptp (f : ModeState → ModeState) : (s.modMode f).ptp = s.ptp := rfl
@[simp] theorem State.modMode_pcie (f : ModeState → ModeState) : (s.modMode f).pcie = s.pcie := rfl
@[simp] theorem State.modMode_net (f : ModeState → ModeState) : (s.modMode f).net = s.net := rfl
@[simp] theorem State.modMode_hbm (f : ModeState → ModeState) : (s.modMode f).hbm = s.hbm := rfl
@[simp] theorem State.modMode_run (f : ModeState → ModeState) : (s.modMode f).run = s.run := rfl
@[simp] theorem State.modMode_surf (f : ModeState → ModeState) : (s.modMode f).surf = s.surf := rfl
@[simp] theorem State.modMode_therm (f : ModeState → ModeState) : (s.modMode f).therm = s.therm := rfl
@[simp] theorem State.modMode_aod (f : ModeState → ModeState) : (s.modMode f).aod = s.aod := rfl
@[simp] theorem State.modMode_jrn (f : ModeState → ModeState) : (s.modMode f).jrn = s.jrn := rfl
@[simp] theorem State.modMode_flash (f : ModeState → ModeState) : (s.modMode f).flash = s.flash := rfl
@[simp] theorem State.modMode_ann (f : ModeState → ModeState) : (s.modMode f).ann = s.ann := rfl
@[simp] theorem State.modMode_guard (f : ModeState → ModeState) : (s.modMode f).guard = s.guard := rfl
@[simp] theorem State.modMode_cruc (f : ModeState → ModeState) : (s.modMode f).cruc = s.cruc := rfl
@[simp] theorem State.modMode_fuse (f : ModeState → ModeState) : (s.modMode f).fuse = s.fuse := rfl
@[simp] theorem State.modMode_mgmt (f : ModeState → ModeState) : (s.modMode f).mgmt = s.mgmt := rfl
@[simp] theorem State.modMode_log (f : ModeState → ModeState) : (s.modMode f).log = s.log := rfl
@[simp] theorem State.modMode_free (f : ModeState → ModeState) : (s.modMode f).free = s.free := rfl
@[simp] theorem State.modMode_pending (f : ModeState → ModeState) : (s.modMode f).pending = s.pending := rfl

theorem State.seqAt_same (o : Nat) (f) (h : o < s.seq.length) : (s.modSeq o f).seqAt o = f (s.seqAt o) := by
  simp [State.seqAt, State.modSeq, upd, nth, h]
theorem State.seqAt_other (o p : Nat) (f) (h : p ≠ o) : (s.modSeq o f).seqAt p = s.seqAt p := by
  simp [State.seqAt, State.modSeq, upd, nth, Ne.symm h]
theorem State.encAt_same (o : Nat) (f) (h : o < s.enc.length) : (s.modEnc o f).encAt o = f (s.encAt o) := by
  simp [State.encAt, State.modEnc, upd, nth, h]
theorem State.encAt_other (o p : Nat) (f) (h : p ≠ o) : (s.modEnc o f).encAt p = s.encAt p := by
  simp [State.encAt, State.modEnc, upd, nth, Ne.symm h]
theorem State.tgAt_same (o : Nat) (f) (h : o < s.tg.length) : (s.modTg o f).tgAt o = f (s.tgAt o) := by
  simp [State.tgAt, State.modTg, upd, nth, h]
theorem State.tgAt_other (o p : Nat) (f) (h : p ≠ o) : (s.modTg o f).tgAt p = s.tgAt p := by
  simp [State.tgAt, State.modTg, upd, nth, Ne.symm h]
theorem State.compAt_same (o : Nat) (f) (h : o < s.comp.length) : (s.modComp o f).compAt o = f (s.compAt o) := by
  simp [State.compAt, State.modComp, upd, nth, h]
theorem State.compAt_other (o p : Nat) (f) (h : p ≠ o) : (s.modComp o f).compAt p = s.compAt p := by
  simp [State.compAt, State.modComp, upd, nth, Ne.symm h]
theorem State.portAt_same (o : Nat) (f) (h : o < s.port.length) : (s.modPort o f).portAt o = f (s.portAt o) := by
  simp [State.portAt, State.modPort, upd, nth, h]
theorem State.portAt_other (o p : Nat) (f) (h : p ≠ o) : (s.modPort o f).portAt p = s.portAt p := by
  simp [State.portAt, State.modPort, upd, nth, Ne.symm h]
theorem State.scanAt_same (o : Nat) (f) (h : o < s.scan.length) : (s.modScan o f).scanAt o = f (s.scanAt o) := by
  simp [State.scanAt, State.modScan, upd, nth, h]
theorem State.scanAt_other (o p : Nat) (f) (h : p ≠ o) : (s.modScan o f).scanAt p = s.scanAt p := by
  simp [State.scanAt, State.modScan, upd, nth, Ne.symm h]
theorem State.inAt_same (o : Nat) (f) (h : o < s.input.length) : (s.modIn o f).inAt o = f (s.inAt o) := by
  simp [State.inAt, State.modIn, upd, nth, h]
theorem State.inAt_other (o p : Nat) (f) (h : p ≠ o) : (s.modIn o f).inAt p = s.inAt p := by
  simp [State.inAt, State.modIn, upd, nth, Ne.symm h]

/-- The next free value changes nothing but the model's counter. -/
@[simp] theorem State.draw_snd (k : Nat) : (s.draw k).2 = { s with free := s.free + 1 } := rfl

end Sys2Proof.Machine
end

