-- ==== Sys2Proof/Laws/Raise.lean ====
section
/-! SUPPORT. What raising an event and writing a journal record can change: the log, the interrupts, the deferred queue, the
journal and FLASH_DEFER's flag; every other part of the state stays. -/
namespace Sys2Proof.Machine

/-- Two states that differ at most in what logging and journalling touch. -/
def Logged (s t : State) : Prop :=
  t = { s with
    log := t.log
    pcie := { s.pcie with msixLast := t.pcie.msixLast, msixSent := t.pcie.msixSent }
    mgmt := { s.mgmt with irq := t.mgmt.irq }
    aod := { s.aod with queue := t.aod.queue, lost := t.aod.lost, dropped := t.aod.dropped }
    jrn := { s.jrn with writing := t.jrn.writing }
    therm := { s.therm with deferRaised := t.therm.deferRaised } }

variable {s t u : State}

theorem Logged.refl (s : State) : Logged s s := rfl
theorem Logged.trans (h : Logged s t) (k : Logged t u) : Logged s u := by
  unfold Logged at *
  rw [k]
  rw [h]

theorem logged_ite (c : Prop) [Decidable c] (h : Logged s t) : Logged s (if c then t else s) := by
  split
  · exact h
  · exact Logged.refl s

theorem logged_msix (v : Nat) : Logged s (msix s v) := by
  unfold msix
  exact logged_ite _ rfl

theorem logged_foldl {α : Type} (g : State → α → State) (hg : ∀ t x, Logged t (g t x)) (l : List α) : Logged s (l.foldl g s) := by
  induction l generalizing s with
  | nil => exact Logged.refl s
  | cons x r ih => exact (hg s x).trans ih

theorem logged_log (l : LogState) : Logged s { s with log := l } := rfl

theorem logged_logOne (code sev data : Nat) (path : PathId) : Logged s (logOne s code sev data path).1 := by
  unfold logOne
  split
  · exact Logged.refl s
  · dsimp only
    split
    · exact ((logged_log _).trans (logged_foldl msix (fun _ x => logged_msix x) (evtVectors code sev))).trans rfl
    · exact (logged_log _).trans (logged_foldl msix (fun _ x => logged_msix x) (evtVectors code sev))

theorem logged_journalPut (r : JrnRec) (b : Bool) : Logged s (journalPut s r b).1 := by
  unfold journalPut
  split
  · rfl
  · dsimp only
    split <;> rfl

theorem logged_journalCascade (evs : List (Nat × Nat)) : Logged s (journalCascade s evs) := by
  refine logged_foldl _ (fun t e => ?_) evs
  have k := logged_logOne (s := t) e.1 (evtSev e.1) e.2 .internal
  split
  · next h => rw [h] at k; exact k
  · next h =>
    rw [h] at k
    split
    · exact k
    · exact k.trans (logged_journalPut _ _)

theorem logged_journal (r : JrnRec) : Logged s (journal s r) := by
  unfold journal
  exact (logged_journalPut r false).trans (logged_journalCascade _)

theorem logged_journalKind (kind : Nat) (path : PathId) (data : List Byte) (sev : Nat) : Logged s (journalKind s kind path data sev) :=
  logged_journal _

theorem logged_raiseSev (code sev data : Nat) (path : PathId) : Logged s (raiseSev s code sev data path) := by
  unfold raiseSev
  have k := logged_logOne (s := s) code sev data path
  split
  · next h => rw [h] at k; exact k
  · next h =>
    rw [h] at k
    split
    · exact k
    · exact k.trans (logged_journal _)

theorem logged_raiseP (code data : Nat) (path : PathId) : Logged s (raiseP s code data path) := logged_raiseSev _ _ _ _
theorem logged_raise (code data : Nat) : Logged s (raise s code data) := logged_raiseSev _ _ _ _

theorem logged_raiseLimited (code key data interval : Nat) (path : PathId) : Logged s (raiseLimited s code key data interval path) := by
  unfold raiseLimited
  exact logged_ite _ ((logged_log _).trans (logged_raiseP _ _ _))

theorem logged_refuseRole (path : PathId) (role addr : Nat) : Logged s (refuseRole s path role addr) :=
  (logged_raiseP _ _ _).trans (logged_journalKind _ _ _ _)

/-- A recovery's bookkeeping touches the log alone. -/
theorem logged_recoveryAlso (code key : Nat) : Logged s (recoveryAlso s code key) := rfl
theorem logged_recovered (code key : Nat) : Logged s (recovered s code key) := by
  unfold recovered
  split
  · exact (logged_log _).trans (logged_raise _ _)
  · exact Logged.refl s

/-! ### Field by field -/

theorem Logged.seq (h : Logged s t) : t.seq = s.seq := by rw [h]
theorem Logged.tb (h : Logged s t) : t.tb = s.tb := by rw [h]
theorem Logged.enc (h : Logged s t) : t.enc = s.enc := by rw [h]
theorem Logged.fs (h : Logged s t) : t.fs = s.fs := by rw [h]
theorem Logged.tg (h : Logged s t) : t.tg = s.tg := by rw [h]
theorem Logged.ladle (h : Logged s t) : t.ladle = s.ladle := by rw [h]
theorem Logged.rlv (h : Logged s t) : t.rlv = s.rlv := by rw [h]
theorem Logged.comp (h : Logged s t) : t.comp = s.comp := by rw [h]
theorem Logged.composer (h : Logged s t) : t.composer = s.composer := by rw [h]
theorem Logged.drive (h : Logged s t) : t.drive = s.drive := by rw [h]
theorem Logged.port (h : Logged s t) : t.port = s.port := by rw [h]
theorem Logged.scan (h : Logged s t) : t.scan = s.scan := by rw [h]
theorem Logged.input (h : Logged s t) : t.input = s.input := by rw [h]
theorem Logged.ptp (h : Logged s t) : t.ptp = s.ptp := by rw [h]
theorem Logged.net (h : Logged s t) : t.net = s.net := by rw [h]
theorem Logged.hbm (h : Logged s t) : t.hbm = s.hbm := by rw [h]
theorem Logged.run (h : Logged s t) : t.run = s.run := by rw [h]
theorem Logged.surf (h : Logged s t) : t.surf = s.surf := by rw [h]
theorem Logged.flash (h : Logged s t) : t.flash = s.flash := by rw [h]
theorem Logged.ann (h : Logged s t) : t.ann = s.ann := by rw [h]
theorem Logged.guard (h : Logged s t) : t.guard = s.guard := by rw [h]
theorem Logged.cruc (h : Logged s t) : t.cruc = s.cruc := by rw [h]
theorem Logged.fuse (h : Logged s t) : t.fuse = s.fuse := by rw [h]
theorem Logged.mode (h : Logged s t) : t.mode = s.mode := by rw [h]
theorem Logged.free (h : Logged s t) : t.free = s.free := by rw [h]
theorem Logged.pending (h : Logged s t) : t.pending = s.pending := by rw [h]
theorem Logged.latch (h : Logged s t) : t.aod.latch = s.aod.latch := by rw [h]
theorem Logged.sources (h : Logged s t) : t.aod.sources = s.aod.sources := by rw [h]
theorem Logged.halt (h : Logged s t) : t.aod.halt = s.aod.halt := by rw [h]
theorem Logged.cls (h : Logged s t) : t.aod.cls = s.aod.cls := by rw [h]

@[simp] theorem raise_seq (code data : Nat) : (raise s code data).seq = s.seq := (logged_raise _ _).seq
@[simp] theorem raise_tb (code data : Nat) : (raise s code data).tb = s.tb := (logged_raise _ _).tb
@[simp] theorem raise_enc (code data : Nat) : (raise s code data).enc = s.enc := (logged_raise _ _).enc
@[simp] theorem raise_fs (code data : Nat) : (raise s code data).fs = s.fs := (logged_raise _ _).fs
@[simp] theorem raise_tg (code data : Nat) : (raise s code data).tg = s.tg := (logged_raise _ _).tg
@[simp] theorem raise_ladle (code data : Nat) : (raise s code data).ladle = s.ladle := (logged_raise _ _).ladle
@[simp] theorem raise_rlv (code data : Nat) : (raise s code data).rlv = s.rlv := (logged_raise _ _).rlv
@[simp] theorem raise_comp (code data : Nat) : (raise s code data).comp = s.comp := (logged_raise _ _).comp
@[simp] theorem raise_composer (code data : Nat) : (raise s code data).composer = s.composer := (logged_raise _ _).composer
@[simp] theorem raise_drive (code data : Nat) : (raise s code data).drive = s.drive := (logged_raise _ _).drive
@[simp] theorem raise_port (code data : Nat) : (raise s code data).port = s.port := (logged_raise _ _).port
@[simp] theorem raise_scan (code data : Nat) : (raise s code data).scan = s.scan := (logged_raise _ _).scan
@[simp] theorem raise_input (code data : Nat) : (raise s code data).input = s.input := (logged_raise _ _).input
@[simp] theorem raise_ptp (code data : Nat) : (raise s code data).ptp = s.ptp := (logged_raise _ _).ptp
@[simp] theorem raise_net (code data : Nat) : (raise s code data).net = s.net := (logged_raise _ _).net
@[simp] theorem raise_hbm (code data : Nat) : (raise s code data).hbm = s.hbm := (logged_raise _ _).hbm
@[simp] theorem raise_run (code data : Nat) : (raise s code data).run = s.run := (logged_raise _ _).run
@[simp] theorem raise_surf (code data : Nat) : (raise s code data).surf = s.surf := (logged_raise _ _).surf
@[simp] theorem raise_flash (code data : Nat) : (raise s code data).flash = s.flash := (logged_raise _ _).flash
@[simp] theorem raise_ann (code data : Nat) : (raise s code data).ann = s.ann := (logged_raise _ _).ann
@[simp] theorem raise_guard (code data : Nat) : (raise s code data).guard = s.guard := (logged_raise _ _).guard
@[simp] theorem raise_cruc (code data : Nat) : (raise s code data).cruc = s.cruc := (logged_raise _ _).cruc
@[simp] theorem raise_fuse (code data : Nat) : (raise s code data).fuse = s.fuse := (logged_raise _ _).fuse
@[simp] theorem raise_mode (code data : Nat) : (raise s code data).mode = s.mode := (logged_raise _ _).mode
@[simp] theorem raise_free (code data : Nat) : (raise s code data).free = s.free := (logged_raise _ _).free
@[simp] theorem raise_pending (code data : Nat) : (raise s code data).pending = s.pending := (logged_raise _ _).pending
@[simp] theorem raiseP_seq (code data : Nat) (path : PathId) : (raiseP s code data path).seq = s.seq := (logged_raiseP _ _ _).seq
@[simp] theorem raiseP_tb (code data : Nat) (path : PathId) : (raiseP s code data path).tb = s.tb := (logged_raiseP _ _ _).tb
@[simp] theorem raiseP_enc (code data : Nat) (path : PathId) : (raiseP s code data path).enc = s.enc := (logged_raiseP _ _ _).enc
@[simp] theorem raiseP_fs (code data : Nat) (path : PathId) : (raiseP s code data path).fs = s.fs := (logged_raiseP _ _ _).fs
@[simp] theorem raiseP_tg (code data : Nat) (path : PathId) : (raiseP s code data path).tg = s.tg := (logged_raiseP _ _ _).tg
@[simp] theorem raiseP_ladle (code data : Nat) (path : PathId) : (raiseP s code data path).ladle = s.ladle := (logged_raiseP _ _ _).ladle
@[simp] theorem raiseP_rlv (code data : Nat) (path : PathId) : (raiseP s code data path).rlv = s.rlv := (logged_raiseP _ _ _).rlv
@[simp] theorem raiseP_comp (code data : Nat) (path : PathId) : (raiseP s code data path).comp = s.comp := (logged_raiseP _ _ _).comp
@[simp] theorem raiseP_composer (code data : Nat) (path : PathId) : (raiseP s code data path).composer = s.composer := (logged_raiseP _ _ _).composer
@[simp] theorem raiseP_drive (code data : Nat) (path : PathId) : (raiseP s code data path).drive = s.drive := (logged_raiseP _ _ _).drive
@[simp] theorem raiseP_port (code data : Nat) (path : PathId) : (raiseP s code data path).port = s.port := (logged_raiseP _ _ _).port
@[simp] theorem raiseP_scan (code data : Nat) (path : PathId) : (raiseP s code data path).scan = s.scan := (logged_raiseP _ _ _).scan
@[simp] theorem raiseP_input (code data : Nat) (path : PathId) : (raiseP s code data path).input = s.input := (logged_raiseP _ _ _).input
@[simp] theorem raiseP_ptp (code data : Nat) (path : PathId) : (raiseP s code data path).ptp = s.ptp := (logged_raiseP _ _ _).ptp
@[simp] theorem raiseP_net (code data : Nat) (path : PathId) : (raiseP s code data path).net = s.net := (logged_raiseP _ _ _).net
@[simp] theorem raiseP_hbm (code data : Nat) (path : PathId) : (raiseP s code data path).hbm = s.hbm := (logged_raiseP _ _ _).hbm
@[simp] theorem raiseP_run (code data : Nat) (path : PathId) : (raiseP s code data path).run = s.run := (logged_raiseP _ _ _).run
@[simp] theorem raiseP_surf (code data : Nat) (path : PathId) : (raiseP s code data path).surf = s.surf := (logged_raiseP _ _ _).surf
@[simp] theorem raiseP_flash (code data : Nat) (path : PathId) : (raiseP s code data path).flash = s.flash := (logged_raiseP _ _ _).flash
@[simp] theorem raiseP_ann (code data : Nat) (path : PathId) : (raiseP s code data path).ann = s.ann := (logged_raiseP _ _ _).ann
@[simp] theorem raiseP_guard (code data : Nat) (path : PathId) : (raiseP s code data path).guard = s.guard := (logged_raiseP _ _ _).guard
@[simp] theorem raiseP_cruc (code data : Nat) (path : PathId) : (raiseP s code data path).cruc = s.cruc := (logged_raiseP _ _ _).cruc
@[simp] theorem raiseP_fuse (code data : Nat) (path : PathId) : (raiseP s code data path).fuse = s.fuse := (logged_raiseP _ _ _).fuse
@[simp] theorem raiseP_mode (code data : Nat) (path : PathId) : (raiseP s code data path).mode = s.mode := (logged_raiseP _ _ _).mode
@[simp] theorem raiseP_free (code data : Nat) (path : PathId) : (raiseP s code data path).free = s.free := (logged_raiseP _ _ _).free
@[simp] theorem raiseP_pending (code data : Nat) (path : PathId) : (raiseP s code data path).pending = s.pending := (logged_raiseP _ _ _).pending
@[simp] theorem raiseLimited_seq (code key data interval : Nat) (path : PathId) : (raiseLimited s code key data interval path).seq = s.seq := (logged_raiseLimited _ _ _ _ _).seq
@[simp] theorem raiseLimited_tb (code key data interval : Nat) (path : PathId) : (raiseLimited s code key data interval path).tb = s.tb := (logged_raiseLimited _ _ _ _ _).tb
@[simp] theorem raiseLimited_enc (code key data interval : Nat) (path : PathId) : (raiseLimited s code key data interval path).enc = s.enc := (logged_raiseLimited _ _ _ _ _).enc
@[simp] theorem raiseLimited_fs (code key data interval : Nat) (path : PathId) : (raiseLimited s code key data interval path).fs = s.fs := (logged_raiseLimited _ _ _ _ _).fs
@[simp] theorem raiseLimited_tg (code key data interval : Nat) (path : PathId) : (raiseLimited s code key data interval path).tg = s.tg := (logged_raiseLimited _ _ _ _ _).tg
@[simp] theorem raiseLimited_ladle (code key data interval : Nat) (path : PathId) : (raiseLimited s code key data interval path).ladle = s.ladle := (logged_raiseLimited _ _ _ _ _).ladle
@[simp] theorem raiseLimited_rlv (code key data interval : Nat) (path : PathId) : (raiseLimited s code key data interval path).rlv = s.rlv := (logged_raiseLimited _ _ _ _ _).rlv
@[simp] theorem raiseLimited_comp (code key data interval : Nat) (path : PathId) : (raiseLimited s code key data interval path).comp = s.comp := (logged_raiseLimited _ _ _ _ _).comp
@[simp] theorem raiseLimited_composer (code key data interval : Nat) (path : PathId) : (raiseLimited s code key data interval path).composer = s.composer := (logged_raiseLimited _ _ _ _ _).composer
@[simp] theorem raiseLimited_drive (code key data interval : Nat) (path : PathId) : (raiseLimited s code key data interval path).drive = s.drive := (logged_raiseLimited _ _ _ _ _).drive
@[simp] theorem raiseLimited_port (code key data interval : Nat) (path : PathId) : (raiseLimited s code key data interval path).port = s.port := (logged_raiseLimited _ _ _ _ _).port
@[simp] theorem raiseLimited_scan (code key data interval : Nat) (path : PathId) : (raiseLimited s code key data interval path).scan = s.scan := (logged_raiseLimited _ _ _ _ _).scan
@[simp] theorem raiseLimited_input (code key data interval : Nat) (path : PathId) : (raiseLimited s code key data interval path).input = s.input := (logged_raiseLimited _ _ _ _ _).input
@[simp] theorem raiseLimited_ptp (code key data interval : Nat) (path : PathId) : (raiseLimited s code key data interval path).ptp = s.ptp := (logged_raiseLimited _ _ _ _ _).ptp
@[simp] theorem raiseLimited_net (code key data interval : Nat) (path : PathId) : (raiseLimited s code key data interval path).net = s.net := (logged_raiseLimited _ _ _ _ _).net
@[simp] theorem raiseLimited_hbm (code key data interval : Nat) (path : PathId) : (raiseLimited s code key data interval path).hbm = s.hbm := (logged_raiseLimited _ _ _ _ _).hbm
@[simp] theorem raiseLimited_run (code key data interval : Nat) (path : PathId) : (raiseLimited s code key data interval path).run = s.run := (logged_raiseLimited _ _ _ _ _).run
@[simp] theorem raiseLimited_surf (code key data interval : Nat) (path : PathId) : (raiseLimited s code key data interval path).surf = s.surf := (logged_raiseLimited _ _ _ _ _).surf
@[simp] theorem raiseLimited_flash (code key data interval : Nat) (path : PathId) : (raiseLimited s code key data interval path).flash = s.flash := (logged_raiseLimited _ _ _ _ _).flash
@[simp] theorem raiseLimited_ann (code key data interval : Nat) (path : PathId) : (raiseLimited s code key data interval path).ann = s.ann := (logged_raiseLimited _ _ _ _ _).ann
@[simp] theorem raiseLimited_guard (code key data interval : Nat) (path : PathId) : (raiseLimited s code key data interval path).guard = s.guard := (logged_raiseLimited _ _ _ _ _).guard
@[simp] theorem raiseLimited_cruc (code key data interval : Nat) (path : PathId) : (raiseLimited s code key data interval path).cruc = s.cruc := (logged_raiseLimited _ _ _ _ _).cruc
@[simp] theorem raiseLimited_fuse (code key data interval : Nat) (path : PathId) : (raiseLimited s code key data interval path).fuse = s.fuse := (logged_raiseLimited _ _ _ _ _).fuse
@[simp] theorem raiseLimited_mode (code key data interval : Nat) (path : PathId) : (raiseLimited s code key data interval path).mode = s.mode := (logged_raiseLimited _ _ _ _ _).mode
@[simp] theorem raiseLimited_free (code key data interval : Nat) (path : PathId) : (raiseLimited s code key data interval path).free = s.free := (logged_raiseLimited _ _ _ _ _).free
@[simp] theorem raiseLimited_pending (code key data interval : Nat) (path : PathId) : (raiseLimited s code key data interval path).pending = s.pending := (logged_raiseLimited _ _ _ _ _).pending
@[simp] theorem journalKind_seq (kind : Nat) (path : PathId) (data : List Byte) (sev : Nat) : (journalKind s kind path data sev).seq = s.seq := (logged_journalKind _ _ _ _).seq
@[simp] theorem journalKind_tb (kind : Nat) (path : PathId) (data : List Byte) (sev : Nat) : (journalKind s kind path data sev).tb = s.tb := (logged_journalKind _ _ _ _).tb
@[simp] theorem journalKind_enc (kind : Nat) (path : PathId) (data : List Byte) (sev : Nat) : (journalKind s kind path data sev).enc = s.enc := (logged_journalKind _ _ _ _).enc
@[simp] theorem journalKind_fs (kind : Nat) (path : PathId) (data : List Byte) (sev : Nat) : (journalKind s kind path data sev).fs = s.fs := (logged_journalKind _ _ _ _).fs
@[simp] theorem journalKind_tg (kind : Nat) (path : PathId) (data : List Byte) (sev : Nat) : (journalKind s kind path data sev).tg = s.tg := (logged_journalKind _ _ _ _).tg
@[simp] theorem journalKind_ladle (kind : Nat) (path : PathId) (data : List Byte) (sev : Nat) : (journalKind s kind path data sev).ladle = s.ladle := (logged_journalKind _ _ _ _).ladle
@[simp] theorem journalKind_rlv (kind : Nat) (path : PathId) (data : List Byte) (sev : Nat) : (journalKind s kind path data sev).rlv = s.rlv := (logged_journalKind _ _ _ _).rlv
@[simp] theorem journalKind_comp (kind : Nat) (path : PathId) (data : List Byte) (sev : Nat) : (journalKind s kind path data sev).comp = s.comp := (logged_journalKind _ _ _ _).comp
@[simp] theorem journalKind_composer (kind : Nat) (path : PathId) (data : List Byte) (sev : Nat) : (journalKind s kind path data sev).composer = s.composer := (logged_journalKind _ _ _ _).composer
@[simp] theorem journalKind_drive (kind : Nat) (path : PathId) (data : List Byte) (sev : Nat) : (journalKind s kind path data sev).drive = s.drive := (logged_journalKind _ _ _ _).drive
@[simp] theorem journalKind_port (kind : Nat) (path : PathId) (data : List Byte) (sev : Nat) : (journalKind s kind path data sev).port = s.port := (logged_journalKind _ _ _ _).port
@[simp] theorem journalKind_scan (kind : Nat) (path : PathId) (data : List Byte) (sev : Nat) : (journalKind s kind path data sev).scan = s.scan := (logged_journalKind _ _ _ _).scan
@[simp] theorem journalKind_input (kind : Nat) (path : PathId) (data : List Byte) (sev : Nat) : (journalKind s kind path data sev).input = s.input := (logged_journalKind _ _ _ _).input
@[simp] theorem journalKind_ptp (kind : Nat) (path : PathId) (data : List Byte) (sev : Nat) : (journalKind s kind path data sev).ptp = s.ptp := (logged_journalKind _ _ _ _).ptp
@[simp] theorem journalKind_net (kind : Nat) (path : PathId) (data : List Byte) (sev : Nat) : (journalKind s kind path data sev).net = s.net := (logged_journalKind _ _ _ _).net
@[simp] theorem journalKind_hbm (kind : Nat) (path : PathId) (data : List Byte) (sev : Nat) : (journalKind s kind path data sev).hbm = s.hbm := (logged_journalKind _ _ _ _).hbm
@[simp] theorem journalKind_run (kind : Nat) (path : PathId) (data : List Byte) (sev : Nat) : (journalKind s kind path data sev).run = s.run := (logged_journalKind _ _ _ _).run
@[simp] theorem journalKind_surf (kind : Nat) (path : PathId) (data : List Byte) (sev : Nat) : (journalKind s kind path data sev).surf = s.surf := (logged_journalKind _ _ _ _).surf
@[simp] theorem journalKind_flash (kind : Nat) (path : PathId) (data : List Byte) (sev : Nat) : (journalKind s kind path data sev).flash = s.flash := (logged_journalKind _ _ _ _).flash
@[simp] theorem journalKind_ann (kind : Nat) (path : PathId) (data : List Byte) (sev : Nat) : (journalKind s kind path data sev).ann = s.ann := (logged_journalKind _ _ _ _).ann
@[simp] theorem journalKind_guard (kind : Nat) (path : PathId) (data : List Byte) (sev : Nat) : (journalKind s kind path data sev).guard = s.guard := (logged_journalKind _ _ _ _).guard
@[simp] theorem journalKind_cruc (kind : Nat) (path : PathId) (data : List Byte) (sev : Nat) : (journalKind s kind path data sev).cruc = s.cruc := (logged_journalKind _ _ _ _).cruc
@[simp] theorem journalKind_fuse (kind : Nat) (path : PathId) (data : List Byte) (sev : Nat) : (journalKind s kind path data sev).fuse = s.fuse := (logged_journalKind _ _ _ _).fuse
@[simp] theorem journalKind_mode (kind : Nat) (path : PathId) (data : List Byte) (sev : Nat) : (journalKind s kind path data sev).mode = s.mode := (logged_journalKind _ _ _ _).mode
@[simp] theorem journalKind_free (kind : Nat) (path : PathId) (data : List Byte) (sev : Nat) : (journalKind s kind path data sev).free = s.free := (logged_journalKind _ _ _ _).free
@[simp] theorem journalKind_pending (kind : Nat) (path : PathId) (data : List Byte) (sev : Nat) : (journalKind s kind path data sev).pending = s.pending := (logged_journalKind _ _ _ _).pending

end Sys2Proof.Machine
end

