-- ==== Sys2Proof/WellFormed.lean ====
section
/-! DEFINITION. Which commands are well-formed: every operand within the field that carries it (R20, R71, R241, R437, R440,
R455, R462, R495). `exec` gives every command a meaning; an operand outside its field is one no sender can form. -/
namespace Sys2Proof

/-- The operands of a command lie within their fields. -/
def Instr.wf (c : Instr) : Bool :=
  match c with
  | .eventPost _ cls idx fire fine payload => decide (cls < 16) && decide (idx < 256) && decide (fire < 2 ^ 56) && decide (fine < 25) && decide (payload < 2 ^ 48)
  | .sprueSpill queue _ => decide (queue < 16384)
  | .lsWrite _ addr _ => decide (addr < 2 ^ 32)
  | .registerWrite _ addr _ => decide (addr < 2 ^ 32)
  | .rlvMessageReceive bytes _ => decide (bytes.length = 30)
  | .rlvForward bytes => decide (bytes.length = 30)
  | .portCmdStatusReq _ _ kind => decide (kind < 256)
  | .portCmdTestPattern _ _ arg => decide (arg < 256)
  | .pdSample _ code => decide (code < 2 ^ 16)
  | .pdFault _ r => decide (r.code < 2 ^ 16)
  | .captureFrameStart _ _ _ fine tc rtp _ => decide (fine < 25) && decide (tc.vitc.getD 0 < 2 ^ 32) && decide (tc.ltc.getD 0 < 2 ^ 32) && decide (rtp < 2 ^ 32)
  | .ethPacketReceive i _ seq _ => decide (6 ≤ i.val) && decide (seq < 2 ^ 32)
  | .capPktLoss i => decide (6 ≤ i.val)
  | .capPathLost i _ => decide (6 ≤ i.val)
  | .ptpMessage _ domain => decide (domain < 256)
  | .dpAuxRequest _ _ _ addr bytes len => decide (addr < 2 ^ 20) && decide (bytes.length ≤ 16) && decide (len ≤ 16)
  | .hostAccessErr _ size _ => decide (size ≠ 4)
  | .hbmTransaction _ _ _ _ data _ _ => decide (data.length ≤ 64)
  | .lockCommit r _ data _ => decide (data.length ≤ 64) && decide (14 ≤ r.val)
  | .sensorConversion counts => decide (counts.length = 64)
  | .annealCheckDone darks _ => decide (darks.length = 8)
  | .kdmDiscard _ keyId => decide (keyId < 2 ^ 16)
  | .sessionHello _ peer port _ => decide (peer < 2 ^ 32) && decide (port < 2 ^ 16)
  | .sessionRequest _ seq body mac => decide (seq < 2 ^ 64) && decide (body.length ≤ 1424) && decide (mac.length = 32)
  | .sessionResend _ seq body mac => decide (seq < 2 ^ 64) && decide (body.length ≤ 1424) && decide (mac.length = 32)
  | .sessionClose _ seq mac => decide (seq < 2 ^ 64) && decide (mac.length = 32)
  | .mgmtRead _ addr count => decide (addr < 2 ^ 32) && decide (0 < count)
  | .mgmtWrite _ addr words => decide (addr < 2 ^ 32) && !words.isEmpty
  | .mgmtPour _ _ target => decide (target < 2 ^ 64)
  | .ingotBegin _ length => decide (length < 2 ^ 32)
  | .ingotData _ ofs bytes => decide (ofs < 2 ^ 32) && decide (bytes.length ≤ 1024)
  | .mgmtTime _ ns => decide (ns < 2 ^ 64)
  | .dawnLanesDone _ _ _ eeproms => decide (eeproms.length = 6)
  | .eventFire .. | .slackClear .. | .tbTickLoRead .. | .frameCntLoRead .. | .ptpOfsLoRead .. | .tbReferenceSample ..
  | .tbRefLost | .tbHoldoverExit | .tbLocked | .frameBoundary .. | .frameHeadPost .. | .compositionStart .. | .waitAllReady ..
  | .waitRepeat .. | .binningDone .. | .tileDispatch .. | .tileCommit .. | .composeLate .. | .composeFault ..
  | .composeRecovered .. | .layerPresent .. | .warpTileStart .. | .encodeComplete .. | .evtReadWrite .. | .ladlePourRequest ..
  | .ladlePourCancel .. | .pourChecksDone | .pourCommit .. | .ladleCopyDone | .tgRestart .. | .disableDone ..
  | .genlockReference .. | .tgRefLost .. | .rlvTimeSend | .rlvMarkSend .. | .rlvLost | .loadStart .. | .loadDone ..
  | .loadLate .. | .bchFrameReceive .. | .bchSilence .. | .bringupStepTimeout .. | .bringupRestart .. | .commandEchoTimeout ..
  | .linkDownTimeout .. | .fastAxisCapture .. | .scanLockTimeout .. | .fastAxisCrossing .. | .fastStop ..
  | .slowStallWindow .. | .scanSample .. | .scanLineEnd .. | .jesdUp .. | .jesdDown .. | .jesdSyncError .. | .pdFaultClear ..
  | .measurementWindowEnd .. | .stringOvercurrent .. | .stringOverlimit .. | .stringFailClear .. | .headroomLow ..
  | .lampBoardTempUpdate .. | .stringAdmit | .stringReady .. | .stringRampTimeout .. | .captureFrameComplete ..
  | .capSignalLost .. | .ptpLost | .ethArpIcmp .. | .bar2Write .. | .bar2Read .. | .bar2Atomic .. | .pcieReset
  | .hbmFspDrained | .hbmFspDone | .hbmRetrainStart | .hbmTrainSlot | .hbmTrainCommit .. | .hbmTrainRetry | .hbmTempRead ..
  | .hbmRefresh .. | .hbmRefreshDone .. | .hbmSrEnter | .hbmSrExit .. | .runnerRequest .. | .runnerRelease ..
  | .hbmTokenWaitEnd | .lockRequest .. | .runnerReset .. | .waitCycle .. | .lockRollback | .surfCmdMap .. | .surfMapped
  | .surfCmdFree .. | .surfCmdBadOp .. | .surfRevokeDone .. | .surfReclaimStart .. | .surfReclaimed .. | .tlbMiss ..
  | .tlbWalkDone .. | .temperLevelStep | .sensorFailHoldEnd | .extConversion .. | .journalWriteDone | .flashWriteWaitTimeout
  | .droopSample .. | .droopClear | .domainWakeRequest .. | .domainWakeAdmit | .domainUsable .. | .domainSleep ..
  | .annCtrlStart .. | .annCtrlAbort .. | .annealStepsBegin | .annealPointDone .. | .annealPourWaitTimeout
  | .calBlockWriteDone | .dowserChange .. | .zoneSigCheck | .ilkInputChange .. | .ilkDiscrepancy | .quenchNInput ..
  | .quenchTrip .. | .guardCmdQuench .. | .guardCmdRelease .. | .quenchAutoRelease | .coreLost .. | .kdmSubmit ..
  | .kdmPurge .. | .sealHostBind .. | .drbgReseed .. | .crucMonitorTrip .. | .crucResume | .sessionFinish ..
  | .sessionStepTimeout | .sessionTimeout .. | .ingotEraseDone | .ingotCommit .. | .ingotApply .. | .revoke .. | .provision ..
  | .spiWriteFrame .. | .spiReadFrame .. | .spiStatusFrame | .vauxRise | .resetNAssert | .dawnSuppliesValid ..
  | .dawnSupplyTimeout | .dawnDone | .pwrfailNFall | .pwrfailNHighTimeout | .vauxLow | .modeCmdShow .. | .modeCmdStandby ..
  | .modeCmdDusk .. | .modeCmdRestart .. | .entryTimeout .. | .duskFlashTimeout | .duskDone | .vcoreReturn
  | .heldRequestTimeout .. | .signalChangeMidFrame .. | .syncNHigh .. | .hpdPulseEnd .. => true

end Sys2Proof
end

