-- ==== Sys2Proof/Tests/Slice0.lean ====
section
/-! SUPPORT. Tests: ill-formed commands that the check refuses, states that meet the hypotheses of every statement, and single
steps whose results the specification gives. -/
namespace Sys2Proof.Tests
open Sys2Proof Sys2Proof.Machine
set_option Elab.async false

/-! ## Small states -/

/-- The part in STANDBY with its core running, its latch released and TICK at 2^56. -/
def up : State := { mode := { dev := 1, core := true, dawnStep := 10, rails := List.replicate 6 true }
                    tb := { running := true, tick := 2 ^ 56 }, aod := { valid := true, latch := false, sources := 0, first := 0 } }
/-- With settings in force, staged and used by every engine. -/
def cfg (m : WordMap) : State := { up with ladle := { act := m, stg := m, rt := List.replicate 5 m } }
def State_with (s : State) (x : OutMode) (g : TgState) : State :=
  { s with mode := { s.mode with outs := List.replicate 4 x }, tg := List.replicate 4 g }
def inOut (x : OutMode) : State := State_with up x {}
def inTg (g : TgState) : State := State_with up {} g
def inSeq (q : SeqState) : State := { up with seq := List.replicate 4 q }
def inPort (p : PortState) : State := { up with port := List.replicate 4 p }
def inScan (s : State) (x : ScanState) : State := { s with scan := List.replicate 4 x }
def inComp (c : CompState) : State := { up with comp := List.replicate 4 c }
def inStr (s : State) (x : StringState) : State := { s with drive := { s.drive with strings := List.replicate 24 x } }
def inCap (m : WordMap) (x : InputState) : State := { cfg m with input := List.replicate 8 x }
def inLadle (l : LadleState) : State := { up with ladle := l }
def inHbm (h : HbmState) : State := { up with hbm := h }
def inChan (s : State) (c : ChanArb) : State := { s with run := { s.run with chans := List.replicate 16 c } }
def inSurf (x : SurfState) : State := { up with surf := x }
def inTherm (t : ThermState) : State := { up with therm := t }
def inAnn (r : AnnRun) : State := { up with ann := { run := some r } }
def inCruc (c : CrucState) : State := { up with cruc := c }
def inMgmt (m : MgmtState) : State := { up with mgmt := m }
def inMode (m : ModeState) : State := { up with mode := m }
def inJrn (j : JournalState) : State := { up with jrn := j }
/-- A frame under construction of one tile. -/
def frame (p : FramePhase) (t : TileState) : FrameUC :=
  { frame := 1, snap := { cfg := [(0x80000, 8)], flux := [] }, prog := 0, still := false, phase := p, start := 0, dither := 0
    reduced := false, mark := none, sources := [], tiles := [t], entries := [], warpDone := [], canvas := [] }
def post (cls : Nat) : Post := { cls := cls, idx := 0, fire := 2 ^ 56 + 4000, fine := 0, payload := 0, slack := 0, frame := 1 }
def pour : Pour := { mask := 16, targeted := false, target := 0, seq := 1, kind := .host, path := .internal, freed := [] }
def run2 : AnnRun := { kind := 2, outputs := 0, steps := 1, todo := [(0, 0)], items := [0] }
def sess : Session := { op := 0, kHD := [], kDH := [], rx := 5, tx := 1, opened := 0, last := 0, carrier := .spi, peer := 0, port := 0
                        lastReq := 0, lastResp := [] }
def shake : Handshake := { op := 0, hello := [], challenge := [], kHD := [], kDH := [], at_ := 0, carrier := .spi, peer := 0, port := 0 }
def walk (runner : Nat) : Walk :=
  { surf := 0, offset := 0, runner := runner, engine := 0, write := false, out := 0, layer := 0, queue := 0, frag := 0 }
/-- An operator of slot 0 with every role, whose session is open. -/
def opened (x : Session) : State := { up with cruc := { sessions := [some x, some x, some x, some x] }
                                              mgmt := { operators := [some { roles := 0x3FF, outMask := 31, key := [] }] } }

/-- A back-channel frame of a kind, its body zero but for the rates of an identity, with its check word. -/
def bch (kind : Nat) : List Byte := let b := leBytes 1 kind ++ List.replicate 28 0; b ++ leBytes 2 (crc16 b)

/-- The SPI path with every role and every output. -/
def spiUp : State := inMgmt { spiRoles := 0x3FF, spiMask := 31 }
/-- A frame of the SPI path with its check word. -/
def spiFrame (l : List Byte) : List Byte := l ++ beBytes 2 (crc16 l)
/-- A complete frame of one tile without a warp, of every output. -/
def doneFrame : FrameUC := { frame .complete .committed with snap := { cfg := [], flux := [] } }
def inEnc (m : WordMap) : State := { cfg m with comp := List.replicate 4 { fuc := some doneFrame } }
/-- A surface of one page whose tables stand in HBM3. -/
def onePage : Surface := { st := 2, size := 1, pages := [(8192, 4096)], tables := [(0, 4096), (4096, 4096)] }
def walkSt : State :=
  { cfg [(0xF0100, 0)] with
    hbm := { st := 1, mem := buildTables 0 onePage [] }
    surf := { surfs := [(0, onePage)], walks := [walk 9], tableAll := [(0, 8192)], poolAll := [(8192, 4096)] } }
/-- A free pool and the arguments of a MAP of 2 MB in pages of 64 KB. -/
def mapSt : State :=
  { cfg [(0x40004, 0), (0x40008, 512), (0x4000C, 1)] with surf := { pool := [(0, 2 ^ 21)], tablePool := [(2 ^ 22, 2 ^ 20)] } }
/-- An output's fast axis at 20 kHz, its model at a period of 20,000 ticks. -/
def axis (fast small big : Nat) : State :=
  inScan (cfg [(0xB0118, 0x20000000 + 20000)]) { driveOn := true, first := false, fast := fast, smallErr := small, bigErr := big, pHat := 5120000 }
/-- A slow-axis window after the mean 5, SLOW_MIN 1. -/
def slow : State := inScan (cfg [(0xB0120, 10), (0xB0130, 0x10000)]) { slowFire := some (25 * 2 ^ 56), slowMean := some 5 }
def boardCfg : WordMap := [(0xC0700, 0x80000000), (0xC0704, 0x64000032)]
def board (t : Threshold) (temp : Int) : State :=
  { cfg boardCfg with drive := { boards := [{ trip := t }] }, therm := { exts := List.replicate 12 { st := 1, mean := temp } } }
/-- Output 0 ready for a mode request. -/
def ready (link : Nat) : State :=
  { cfg [(0x90104, 0x10000), (0xA0100, 0x100)] with
    port := List.replicate 4 { link := link, accepted := true }, guard := { zones := List.replicate 4 { resident := true } } }
/-- A run's beginning with every kind of check ahead. -/
def begunRun : AnnRun := { kind := 2, outputs := 0, steps := 1, todo := [(0, 0)], items := [0], begun := true, st := 1 }
def darkState : State := { cfg [(0xC0400, 0x80000000)] with ann := { run := some begunRun } }
/-- A frame of an identity of 4 lanes whose RATES is 1 and every other field 0. -/
def bchIdent : List Byte := let b := [3, 0, 0, 0, 0, 0, 4, 1] ++ List.replicate 21 0; b ++ leBytes 2 (crc16 b)
/-- A key message whose form holds, for the device 1. -/
def kdmMsg : Kdm :=
  { bytes := [0x10, 1, 1, 0] ++ beBytes 16 1 ++ List.replicate 276 0
    slot := { keyId := 1, target := 0, flags := 0, issuer := 0, notBefore := 0, notAfter := 0, nonce := 0, key := [] } }

/-- A word a CRC-32 step leaves. -/
theorem crcReflBit_lt (c : Nat) (h : c < 2 ^ 32) : crcReflBit 0xEDB88320 c < 2 ^ 32 := by
  unfold crcReflBit; split
  · exact Nat.xor_lt_two_pow (by omega) (by decide)
  · omega
theorem crc32_lt (l : List Byte) : crc32 l < 2 ^ 32 := by
  have h : ∀ (l : List Byte) (c : Nat), c < 2 ^ 32 → l.foldl (crcReflByte 0xEDB88320) c < 2 ^ 32 := by
    intro l; induction l with
    | nil => exact fun _ h => h
    | cons b r ih =>
      intro c h
      refine ih _ ?_
      unfold crcReflByte
      iterate 8 refine crcReflBit_lt _ ?_
      exact Nat.xor_lt_two_pow h (by have := b.isLt; omega)
  exact Nat.xor_lt_two_pow (h l _ (by decide)) (by decide)
/-- The signature of output 0's empty resident copy in a frame store that lists nothing. -/
def emptyZones : Nat := crc32 (zoneResident up 0 0 0)
/-- A word that expects it, and one that does not. -/
def goodWord : Word := BitVec.ofNat 32 emptyZones
def badWord : Word := BitVec.ofNat 32 (emptyZones + 1)
theorem ofNat_same (c : Nat) (h : c < 2 ^ 32) : (BitVec.ofNat 32 c).toNat = c := by simp; omega
theorem ofNat_other (c : Nat) (_ : c < 2 ^ 32) : c ≠ (BitVec.ofNat 32 (c + 1)).toNat := by simp; omega
theorem emptyZones_lt : emptyZones < 2 ^ 32 := by unfold emptyZones; exact crc32_lt _
theorem goodWord_nat : goodWord.toNat = emptyZones := by unfold goodWord; exact ofNat_same _ emptyZones_lt
theorem badWord_nat : emptyZones ≠ badWord.toNat := by unfold badWord; exact ofNat_other _ emptyZones_lt
/-- A Pour of an HBM3 block whose fields are all ones. -/
def badPour : State := { cfg [(0x60010, 0xFFFFFFFF)] with ladle := { stg := [(0x60010, 0xFFFFFFFF)], pending := some pour } }
/-- A Pour of words that every block's check list passes. -/
def goodPour : State := inLadle { pending := some pour }
theorem append_ne (l : List Byte) : l ++ [0] ≠ l := by simp
/-- A full queue of 1,024 events that have not left for the drive die. -/
def fullQueue : State := inSeq { queue := List.replicate 1024 (post 1) }
theorem filter_replicate_length (n : Nat) : ((List.replicate n (post 1)).filter fun p => !p.handed).length = n := by
  rw [List.filter_replicate]; simp [post]
theorem fullQueue_full : hasRoom (fullQueue.seqAt (0 : Fin 4)) = false := by
  show decide (((List.replicate 1024 (post 1)).filter fun p => !p.handed).length < 1024) = false
  rw [filter_replicate_length]; decide
/-- A frame that waits for its WAIT_ALL layer 0, whose source has no frame. -/
def waitFrame : FrameUC := { frame .waiting .binned with snap := { cfg := [(0x08000000, 0x21)], flux := [] } }
/-- A load of no words. -/
def oneLoad : LoadRun := { block := 0, slot := 0, comp := false, seq := 0, words := 0, crc := 0, start := 0, done := 0, deadline := 0, strobe := 0, complete := false }
/-- A frame under capture. -/
def capRun : CapRun := { buf := 0, base := 0, fmt := {}, tRef := 0, fine := 0, tc := 0, rtp := 0, key := none }
/-- A Pour that enables an input whose domain sleeps. -/
def sleepPour : State := { cfg [] with ladle := { stg := [(0x30100, 0x80000000)], touched := [(0x30100, 0)], pending := some pour } }
/-- The Pour of an Anneal run. -/
def annPour : State := inLadle { pending := some { pour with kind := .anneal } }
/-- A protected surface to which no key is bound. -/
def protSt : State := inSurf { surfs := [(0, { st := 2, size := 512, attr := 0x40 })] }
/-- A key bound to that surface, held for every time. -/
def surfKey : KeySlot :=
  { keyId := 1, target := 0x8000, flags := 0, issuer := 0, notBefore := 0, notAfter := 0xFFFFFFFFFFFFFFFF, nonce := 0, key := [] }
def keyedSurf : State :=
  { inSurf { surfs := [(0, { st := 2, size := 512, attr := 0x40, key := 1 })] } with cruc := { keys := [some surfKey] } }

theorem reset_shape : State.reset.wellShaped := rfl
theorem reset_memories : State.reset.memoriesWf := ⟨rfl, rfl, rfl⟩

/-! ## States that meet the hypotheses of the statements -/

theorem test_hyp_StepRunsTheFrontCommand :
    ∃ (s : State) (c : Instr) (rest : List Instr),
      s.pending = c :: rest :=
  ⟨{ up with pending := [.loadDone 0] }, .loadDone 0, [], rfl⟩

theorem test_hyp_CommandsCompleteAndLeaveTheQueue :
    (∃ (c : Instr) (s t : State),
      exec c s = .next t) ∧
    (∃ (s : State),
      s.pending = [] ∧ s.tb.running = false) ∧
    (∃ (s : State),
      s.pending = [] ∧ s.tb.running = true ∧ s.log.second = none ∧ (∀ o, (s.seqAt o).waiting = none)) :=
  ⟨⟨.loadDone 0, up, _, rfl⟩,
   ⟨State.reset, by decide⟩,
   ⟨{ up with seq := [] }, ⟨rfl, rfl, rfl, fun _ => rfl⟩⟩⟩

theorem test_hyp_EveryStepKeepsShapeAndMemories :
    ∃ (s t : State),
      s.wellShaped ∧ s.memoriesWf ∧ step s = .next t :=
  ⟨State.reset, State.reset, ⟨reset_shape, reset_memories, rfl⟩⟩

theorem test_hyp_EveryStepOnlyBurnsFuses :
    ∃ (s t : State),
      step s = .next t :=
  ⟨State.reset, State.reset, rfl⟩

theorem test_hyp_EveryDawnSetsTheLatch :
    ∃ (s : State) (c : Instr) (cause : Nat),
      (c = .resetNAssert ∧ cause = 1 ∧ vauxUp s = true) ∨ (c = .vcoreReturn ∧ cause = 2 ∧ vauxUp s = true ∧ s.mode.core = false ∧ s.guard.heartbeat =
        false) ∨ (c = .duskDone ∧ cause = 3 ∧ s.mode.dev = 7 ∧ s.mode.duskStep = 5 ∧ s.mode.dawnFollows = true ∧ s.hbm.training = false) ∨ (c =
        .pwrfailNHighTimeout ∧ cause = 4 ∧ vauxUp s = true ∧ s.mode.dev = 7 ∧ s.mode.duskCause = 2 ∧ s.mode.duskStep = 6) :=
  ⟨up, .resetNAssert, 1, by left; decide⟩

theorem test_hyp_ResetsKeepAndSuppliesLose :
    (∃ (s : State),
      vauxUp s = true ∧ s.jrn.writing = none) ∧
    (∃ (s : State),
      vauxUp s = false) ∧
    (∃ (s : State),
      vauxUp s = true ∧ s.mode.core = false ∧ s.guard.heartbeat = false) ∧
    (∃ (s : State),
      vauxUp s = true ∧ (s.mode.core = true ∨ s.guard.heartbeat = true)) ∧
    (∃ (s : State),
      s.mode.dev ≠ 7 ∨ s.mode.duskCause ≠ 2 ∨ s.mode.duskStep ≠ 6) :=
  ⟨⟨up, by decide⟩,
   ⟨inMode { rails := [false] }, by decide⟩,
   ⟨{ inMode { rails := [true], core := false } with guard := { heartbeat := false } }, by decide⟩,
   ⟨up, by decide⟩,
   ⟨up, by decide⟩⟩

theorem test_hyp_EventsAreRecorded :
    (∃ (s : State),
      s.mode.core = false) ∧
    (∃ (s : State) (code : Nat),
      s.mode.core = true ∧ evtSev code < auditMin s) ∧
    (∃ (s : State) (code key interval : Nat), ∃ t,
      lastRaised s code key = some t ∧ localNs s < t + interval) ∧
    (∃ (s : State) (code key interval : Nat),
      (∀ t, lastRaised s code key = some t → t + interval ≤ localNs s)) :=
  ⟨⟨State.reset, by decide⟩,
   ⟨up, 0x0003, by decide⟩,
   ⟨{ up with log := { limits := [(1, 2, 2 ^ 57)] } }, 1, 2, 2 ^ 58, 2 ^ 57, by decide⟩,
   ⟨up, 1, 2, 5, by intro t h; cases h⟩⟩

theorem test_hyp_PostedEvents :
    (∃ (s : State) (o : Fin 4) (cls fire : Nat),
      cls ≤ 5 ∧ (s.seqAt o).waiting = none ∧ hasRoom (s.seqAt o) = true ∧ (s.seqAt o).holding = false ∧ (s.portAt o).darkByLink = false ∧ s.tb.tick +
        minLead (s.rt o) o cls ≤ resolveFire s.tb.tick fire ∧ (s.seqAt o).unposted = []) ∧
    (∃ (s : State) (o : Fin 4) (cls idx fire fine payload : Nat) (e : Post) (rest : List Post),
      cls ≤ 5 ∧ (s.seqAt o).waiting = none ∧ hasRoom (s.seqAt o) = true ∧ (s.seqAt o).holding = false ∧ (s.portAt o).darkByLink = false ∧ s.tb.tick +
        minLead (s.rt o) o cls ≤ resolveFire s.tb.tick fire ∧ (s.seqAt o).unposted = e :: rest ∧ e.is cls idx (resolveFire s.tb.tick fire) fine
        payload = true) ∧
    (∃ (cls : Nat),
      5 < cls) ∧
    (∃ (s : State) (o : Fin 4) (cls idx fire fine payload : Nat) (e : Post) (rest : List Post),
      (s.seqAt o).unposted = e :: rest ∧ e.is cls idx (resolveFire s.tb.tick fire) fine payload = false) ∧
    (∃ (s : State) (o : Fin 4) (cls : Nat),
      cls ≤ 5 ∧ (s.seqAt o).waiting = none ∧ (s.seqAt o).unposted = [] ∧ hasRoom (s.seqAt o) = false) ∧
    (∃ (s : State) (o : Fin 4) (cls : Nat),
      cls ≤ 4 ∧ (s.seqAt o).waiting = none ∧ (s.seqAt o).unposted = [] ∧ hasRoom (s.seqAt o) = true ∧ (s.seqAt o).holding = true ∧ (s.tgAt o).counter
        ≤ (s.seqAt o).holdUntil) ∧
    (∃ (s : State) (o : Fin 4) (cls fire : Nat),
      s.wellShaped ∧ cls ≤ 5 ∧ (s.seqAt o).waiting = none ∧ (s.seqAt o).unposted = [] ∧ hasRoom (s.seqAt o) = true ∧ (s.seqAt o).holding = false ∧
        (s.portAt o).darkByLink = false ∧ resolveFire s.tb.tick fire < s.tb.tick + minLead (s.rt o) o cls) :=
  ⟨⟨up, 0, 1, 64, by decide⟩,
   ⟨inSeq { unposted := [{ post 1 with fire := 2 ^ 56 + 64 }] }, 0, 1, 0, 64, 0, 0, { post 1 with fire := 2 ^ 56 + 64 }, [], by decide⟩,
   ⟨6, by decide⟩,
   ⟨inSeq { unposted := [post 1] }, 0, 2, 0, 0, 0, 0, post 1, [], by decide⟩,
   ⟨fullQueue, 0, 5, ⟨by decide, rfl, rfl, fullQueue_full⟩⟩,
   ⟨inSeq { holding := true, holdUntil := 5 }, 0, 4, by decide⟩,
   ⟨up, 0, 1, 63, ⟨rfl, by decide, rfl, rfl, by decide, rfl, rfl, by decide⟩⟩⟩

theorem test_hyp_LocalPtpAndFireTimes :
    (∃ (s : State),
      0 ≤ (localNs s : Int) + s.ptp.offset) ∧
    (∃ (now f : Nat),
      2 ^ 55 ≤ now ∨ f % 2 ^ 56 ≤ now + 2 ^ 55) :=
  ⟨⟨up, by decide⟩,
   ⟨0, 2 ^ 55, by decide⟩⟩

theorem test_hyp_EventsKeepTheirOrderAndFire :
    (∃ (q : List Post),
      (q.Pairwise fun a b => a.fire < b.fire ∨ (a.fire = b.fire ∧ a.fine ≤ b.fine))) ∧
    (∃ (s : State) (o : Fin 4) (p : Post) (rest : List Post),
      (s.seqAt o).queue = p :: rest ∧ p.cls = 1 ∧ p.idx < 6) ∧
    (∃ (s : State) (o : Fin 4) (p : Post) (rest : List Post),
      (s.seqAt o).queue = p :: rest ∧ (s.seqAt o).waiting = none ∧ p.cls = 5) :=
  ⟨⟨[post 0, post 1], by decide⟩,
   ⟨inSeq { queue := [post 1] }, 3, post 1, [], ⟨rfl, rfl, by decide⟩⟩,
   ⟨inSeq { queue := [post 5] }, 0, post 5, [], ⟨rfl, rfl, rfl⟩⟩⟩

theorem test_hyp_ClearAndLatchingReads :
    (∃ (s : State) (path : PathId),
      serves s path = true) ∧
    (∃ (s : State) (path : PathId),
      serves s path = true ∧ hasRole s path 0 = true) ∧
    (∃ (s : State) (path : PathId),
      serves s path = true ∧ hasRole s path 0 = true) :=
  ⟨⟨up, .internal, by decide⟩,
   ⟨up, .spi, by decide⟩,
   ⟨up, .internal, by decide⟩⟩

theorem test_hyp_TimebaseReferences :
    (∃ (s : State),
      refSel (s.rt 4) ≠ 0 ∧ s.tb.phase ≠ 3) ∧
    (∃ (s : State),
      refSel (s.rt 4) ≠ 0 ∧ s.tb.phase = 3) ∧
    (∃ (t : TbState) (a b : Nat),
      t.slewAt ≤ a ∧ a ≤ b) ∧
    (∃ (t : TbState),
      -3276800 ≤ t.corr ∧ t.corr ≤ 3276800 ∧ -3276800 ≤ t.target ∧ t.target ≤ 3276800) ∧
    (∃ (s : State),
      refSel (s.rt 4) ≠ 0 ∧ refGone (s.rt 4) s.tb = true ∧ s.tb.phase ≠ 3) ∧
    (∃ (s : State),
      refSel (s.rt 4) = 0 ∨ refGone (s.rt 4) s.tb = false) ∧
    (∃ (s : State),
      s.tb.phase = 3 ∧ refGone (s.rt 4) s.tb = false ∧ s.tb.validSince + 400000000 ≤ s.tb.tick) ∧
    (∃ (s : State),
      refSel (s.rt 4) ≠ 0 ∧ s.tb.phase = 1 ∧ lockHolds (s.rt 4) s.tb = true) :=
  ⟨⟨cfg [(0x20000, 1)], by decide⟩,
   ⟨{ cfg [(0x20000, 1)] with tb := { tick := 2 ^ 56, running := true, phase := 3 } }, by decide⟩,
   ⟨{}, 0, 1, by decide⟩,
   ⟨{}, by decide +kernel⟩,
   ⟨cfg [(0x20000, 1)], by decide +kernel⟩,
   ⟨up, by decide⟩,
   ⟨{ cfg [(0x20000, 1)] with tb := { tick := 2 ^ 56, running := true, phase := 3, refValid := true, sample := 2 ^ 56 + 1 } }, by decide +kernel⟩,
   ⟨{ cfg [(0x20000, 1)] with tb := { tick := 2 ^ 56, running := true, phase := 1, bandSince := some 0 } }, by decide +kernel⟩⟩

theorem test_hyp_RelvorMessages :
    (∃ (b : List Byte),
      rlvCrcOk b = false) ∧
    (∃ (s : State) (b : List Byte),
      rlvCrcOk b = true ∧ msgField b 2 2 % 2048 ≠ (s.rt 4).fld 0x20200 22 12) ∧
    (∃ (s : State) (b : List Byte),
      rlvCrcOk b = true ∧ msgField b 2 2 % 2048 = (s.rt 4).fld 0x20200 22 12 ∧ msgField b 0 1 = 1 ∧ refSel (s.rt 4) ≠ 3) ∧
    (∃ (s : State) (b : List Byte) (k : Nat),
      rlvCrcOk b = true ∧ msgField b 2 2 % 2048 = (s.rt 4).fld 0x20200 22 12 ∧ msgField b 0 1 = 2 ∧ k = msgField b 1 1 / 16 % 4) ∧
    (∃ (s : State) (b : List Byte),
      rlvRoot (s.rt 4) = false ∧ rlvCrcOk b = true ∧ msgField b 2 2 % 2048 = (s.rt 4).fld 0x20200 22 12 ∧ (s.rt 4).fld 0x20200 30 28 ≠ 0) ∧
    (∃ (s : State),
      rlvRoot (s.rt 4) = true) ∧
    (∃ (s : State) (o : Fin 4) (slot : Nat) (p : Post),
      ((s.seqAt o).queue.filter fun p => p.cls == 5)[slot]? = some p ∧ rlvRoot (s.rt 4) = true ∧ nbit (rlvExport (s.rt 4)) o = true ∧ s.tb.tick +
        2000 ≤ p.fire) ∧
    (∃ (s : State),
      (s.rlv.state = 1 ∨ s.rlv.state = 2) ∧ refSel (s.rt 4) ≠ 3 ∧ (∀ o ∈ outputs, genSrc (s.rt o) o ≠ 3)) :=
  ⟨⟨[], by decide⟩,
   ⟨cfg [(0x20200, 0x1000)], (rlvBytes 1 0 0 0 0 7 0 0 0), by decide +kernel⟩,
   ⟨up, (rlvBytes 1 0 0 0 0 7 0 0 0), by decide +kernel⟩,
   ⟨up, (rlvBytes 2 0 0 0 0 7 0 0 0), 0, by decide +kernel⟩,
   ⟨cfg [(0x20200, 0x10000000)], (rlvBytes 1 0 0 0 0 7 0 0 0), by decide +kernel⟩,
   ⟨cfg [(0x20200, 0x80000000)], by decide⟩,
   ⟨{ cfg [(0x20200, 0x81000000)] with seq := List.replicate 4 { queue := [post 5] } }, 0, 0, post 5, ⟨rfl, by decide⟩⟩,
   ⟨{ up with rlv := { state := 2 } }, by decide⟩⟩

theorem test_hyp_FrameBoundaries :
    (∃ (s : State) (o : Fin 4),
      (s.tgAt o).running = true ∧ s.wellShaped ∧ (s.tgAt o).ctaken = false ∧ (s.rt o).bit (aTgCfg o) 16 = false) ∧
    (∃ (s : State) (o : Fin 4) (p : Nat),
      (s.tgAt o).running = true ∧ p ≠ o) ∧
    (∃ (s : State),
      (∀ i, (s.inAt i).oldBufs = [])) ∧
    (∃ (s : State) (o : Fin 4),
      (s.tgAt o).running = false) ∧
    (∃ (s : State) (o : Fin 4),
      s.wellShaped ∧ (s.tgAt o).flipLog.length = 16 ∧ flips s o = true) ∧
    (∃ (s : State) (o : Fin 4),
      s.wellShaped ∧ (s.tgAt o).flipLog.length = 16 ∧ flips s o = false ∧ (s.outAt o).mode = 4 ∧ (s.outAt o).exit = .none_) ∧
    (∃ (s : State) (o : Fin 4),
      s.wellShaped ∧ (s.tgAt o).flipLog.length = 16 ∧ flips s o = false ∧ ((s.outAt o).mode ≠ 4 ∨ (s.outAt o).exit ≠ .none_) ∧ ((s.outAt o).mode = 2
        ∨ (s.outAt o).mode = 3 ∨ (s.outAt o).entry.isSome)) ∧
    (∃ (s : State) (o : Fin 4),
      s.wellShaped ∧ (s.tgAt o).flipLog.length = 16 ∧ flips s o = false ∧ ((s.outAt o).mode ≠ 4 ∨ (s.outAt o).exit ≠ .none_) ∧ (¬ ((s.outAt o).mode =
        2 ∨ (s.outAt o).mode = 3 ∨ (s.outAt o).entry.isSome))) :=
  ⟨⟨inTg { running := true }, 0, ⟨rfl, rfl, rfl, by decide⟩⟩,
   ⟨inTg { running := true }, 0, 1, ⟨rfl, by decide⟩⟩,
   ⟨{ up with input := [] }, fun _ => rfl⟩,
   ⟨up, 0, by decide⟩,
   ⟨{ State_with up { mode := 2 } { counter := 7 } with enc := List.replicate 4 { bufs := [{}, { complete := true, frame := 7 }] } }, 3, ⟨rfl, rfl,
     rfl⟩⟩,
   ⟨inOut { mode := 4 }, 0, ⟨rfl, rfl, rfl, rfl, rfl⟩⟩,
   ⟨inOut { mode := 3 }, 0, ⟨rfl, rfl, rfl, by decide, by decide⟩⟩,
   ⟨up, 0, ⟨rfl, rfl, rfl, by decide, by decide⟩⟩⟩

theorem test_hyp_GeneratorReferences :
    (∃ (s : State) (o : Fin 4),
      s.wellShaped ∧ genRef s (s.rt o) o (s.tgAt o).den (s.tgAt o).pos = none) ∧
    (∃ (s : State) (o : Fin 4), ∃ r e t,
      s.wellShaped ∧ genRef s (s.rt o) o (s.tgAt o).den (s.tgAt o).pos = some r ∧ e = genErr (s.tgAt o) (tgNum (s.rt o) o) (tgPhase (s.rt o) o) r ∧ t
        = (nextStart s o).tgAt o ∧ t.stretching = true) ∧
    (∃ (s : State) (o : Fin 4), ∃ r e t,
      s.wellShaped ∧ genRef s (s.rt o) o (s.tgAt o).den (s.tgAt o).pos = some r ∧ e = genErr (s.tgAt o) (tgNum (s.rt o) o) (tgPhase (s.rt o) o) r ∧ t
        = (nextStart s o).tgAt o ∧ t.stretching = false) ∧
    (∃ (s : State) (o : Fin 4) (instant : Nat),
      s.wellShaped ∧ genSrc (s.rt o) o = 1 ∧ longPast s o (some instant) = false) ∧
    (∃ (s : State) (o : Fin 4) (instant : Nat),
      s.wellShaped ∧ genSrc (s.rt o) o = 1 ∧ longPast s o (some instant) = true) ∧
    (∃ (s : State) (o : Fin 4),
      genSrc (s.rt o) o ≠ 1 ∧ genRefGone s o = false) ∧
    (∃ (s : State) (o : Fin 4),
      genSrc (s.rt o) o ≠ 1 ∧ genRefGone s o = true) ∧
    (∃ (s : State) (o : Fin 4),
      genRefGone s o = true ∧ (s.tgAt o).refLost = false ∧ (s.tgAt o).locked = true) ∧
    (∃ (s : State) (o : Fin 4),
      genRefGone s o = true ∧ (s.tgAt o).refLost = false ∧ (s.tgAt o).locked = false) ∧
    (∃ (s : State) (o : Fin 4),
      genRefGone s o = false) :=
  ⟨⟨up, 0, ⟨rfl, rfl⟩⟩,
   ⟨State_with (cfg [(0x20104, 0x8101), (aTgNum 0, 0x01000000)]) {} { ref := some 5, pos := 100000000 }, 0, _, _, _, ⟨rfl, rfl, rfl, rfl, by
     decide +kernel⟩⟩,
   ⟨State_with (cfg [(0x20104, 0x101), (aTgNum 0, 0x01000000)]) {} { ref := some 5, pos := 100 }, 0, _, _, _, ⟨rfl, rfl, rfl, rfl, by
     decide +kernel⟩⟩,
   ⟨cfg [(0x20104, 0x101)], 0, 25 * 2 ^ 56 + 25, ⟨rfl, by decide, by decide +kernel⟩⟩,
   ⟨cfg [(0x20104, 0x101)], 0, 5, ⟨rfl, by decide, by decide +kernel⟩⟩,
   ⟨up, 0, by decide +kernel⟩,
   ⟨cfg [(0x20104, 0x200)], 0, by decide +kernel⟩,
   ⟨State_with (cfg [(0x20104, 0x200)]) {} { locked := true }, 0, by decide +kernel⟩,
   ⟨cfg [(0x20104, 0x200)], 0, by decide +kernel⟩,
   ⟨up, 0, by decide +kernel⟩⟩

theorem test_hyp_FrameHeadEventsArePosted :
    (∃ (s : State) (o : Fin 4),
      (s.tgAt o).running = true ∧ (s.outAt o).exit ≠ .stopping ∧ (∀ since, (s.tgAt o).tm ≠ .ready since) ∧ isScan (s.rt o) o = true ∧ (isLit s o =
        true ∨ (s.outAt o).entry.isSome = true ∨ (s.outAt o).mode = 5)) ∧
    (∃ (s : State) (o : Fin 4) (k : Nat),
      (s.tgAt o).running = true ∧ (s.outAt o).exit ≠ .stopping ∧ (∀ since, (s.tgAt o).tm ≠ .ready since) ∧ steals s o = true ∧ isScan (s.rt o) o =
        false ∧ k = (if (s.tgAt o).started then (s.tgAt o).counter + 1 else (s.tgAt o).counter)) ∧
    (∃ (s : State) (o : Fin 4) (since : Nat),
      s.wellShaped ∧ (s.tgAt o).tm = .ready since) :=
  ⟨⟨State_with (cfg [(aPortCfg 0, 0x80000000)]) { mode := 3 } { running := true, started := true }, 0, ⟨rfl, by decide, fun _ h => (by cases h), by
    decide, by decide⟩⟩,
   ⟨{ State_with up { mode := 2 } { running := true, started := true } with ann := { run := some { kind := 1, outputs := 1, steps := 4, st := 2, todo := [(2, 0)] } } }, 0, _, ⟨rfl, by decide, fun _ h => (by cases h), by decide +kernel, by decide, rfl⟩⟩,
   ⟨inTg { tm := .ready 0 }, 0, 0, ⟨rfl, rfl⟩⟩⟩

theorem test_hyp_RestartsAndDisables :
    (∃ (s : State) (o : Fin 4) (since : Nat),
      s.wellShaped ∧ (s.tgAt o).tm = .fixed since ∧ s.tb.tick < (posInstant (s.tgAt o) (s.tgAt o).pos).1) ∧
    (∃ (s : State) (o : Fin 4) (since : Nat),
      s.wellShaped ∧ (s.tgAt o).tm = .fixed since ∧ (posInstant (s.tgAt o) (s.tgAt o).pos).1 ≤ s.tb.tick ∧ isScan s.act o = false ∧ (s.outAt o).mode
        ≠ 1 ∧ (s.outAt o).exit = .none_ ∧ fsSize s.act o ≠ 0) ∧
    (∃ (s : State) (k : Nat) (d : Retire),
      s.ladle.disables[k]? = some d ∧ retired s d = true) ∧
    (∃ (s : State) (k : Nat) (d : Retire),
      s.ladle.disables[k]? = some d ∧ retired s d = false) :=
  ⟨⟨State_with (cfg [(aFsSize 0, 0x10000)]) { mode := 2 } { tm := .fixed 0, pos := 25 * 3 * 2 ^ 57 }, 0, 0, ⟨rfl, rfl, by decide⟩⟩,
   ⟨State_with (cfg [(aFsSize 0, 0x10000)]) { mode := 2 } { tm := .fixed 0, pos := 25 }, 0, 0, ⟨rfl, rfl, by decide, by decide, by decide, by decide,
     by decide⟩⟩,
   ⟨inLadle { disables := [{ item := .input 3 }] }, 0, { item := .input 3 }, ⟨rfl, by decide +kernel⟩⟩,
   ⟨{ inStr up { stageOn := true } with ladle := { disables := [{ item := .string 3 }] } }, 0, { item := .string 3 }, ⟨rfl, by decide +kernel⟩⟩⟩

theorem test_hyp_CompositionStartsAndEnds :
    (∃ (s : State) (o : Fin 4),
      (s.tgAt o).running = true) ∧
    (∃ (s : State) (o : Fin 4) (f : FrameUC),
      (s.compAt o).fuc = some f ∧ f.phase = .waiting ∧ waitingLayers s f.snap.cfg o = []) ∧
    (∃ (s : State) (o : Fin 4) (f : FrameUC),
      (s.compAt o).fuc = some f ∧ f.phase = .waiting ∧ waitingLayers s f.snap.cfg o ≠ []) ∧
    (∃ (s : State) (o : Fin 4) (f : FrameUC),
      (s.compAt o).fuc = some f ∧ (f.phase = .binning ∨ f.phase = .composing ∨ f.phase = .waiting)) ∧
    (∃ (s : State),
      s.wellShaped) ∧
    (∃ (s : State),
      s.wellShaped) :=
  ⟨⟨inTg { running := true }, 0, by decide⟩,
   ⟨inComp { fuc := some (frame .waiting .binned) }, 0, frame .waiting .binned, ⟨rfl, rfl, by decide⟩⟩,
   ⟨inComp { fuc := some waitFrame }, 0, waitFrame, ⟨rfl, rfl, by decide +kernel⟩⟩,
   ⟨inComp { fuc := some (frame .binning .binned) }, 0, frame .binning .binned, ⟨rfl, by decide⟩⟩,
   ⟨up, rfl⟩,
   ⟨up, rfl⟩⟩

theorem test_hyp_TilesAreComposed :
    (∃ (s : State) (queue i : Nat) (r : SprueRec),
      (s.composer.sprue.findIdx? fun x => x.queue == queue && !x.linked) = some i ∧ s.composer.sprue[i]? = some r ∧ r.tries < 2) ∧
    (∃ (s : State) (queue i : Nat) (r : SprueRec), ∃ o,
      (s.composer.sprue.findIdx? fun x => x.queue == queue && !x.linked) = some i ∧ s.composer.sprue[i]? = some r ∧ 2 ≤ r.tries ∧ queueOwner s queue
        = some o) ∧
    (∃ (s : State) (o : Fin 4) (f : FrameUC),
      (s.compAt o).fuc = some f ∧ f.phase = .binning ∧ (∀ r ∈ s.composer.sprue, r.linked = true)) ∧
    (∃ (s : State) (e : Fin 16) (o t : Nat),
      nth s.composer.engines e none = none ∧ firstTile s (tilesIn s isWaiting) = some (o, t)) ∧
    (∃ (s : State) (e : Fin 16),
      nth s.composer.engines e none = none ∧ tilesIn s isWaiting = []) ∧
    (∃ (s : State) (l : List (Nat × Nat)) (a : Nat × Nat), ∃ b,
      firstTile s l = some a ∧ b ∈ l) ∧
    (∃ (s : State) (e : Fin 16) (ok : Bool) (o t : Nat) (f : FrameUC),
      nth s.composer.engines e none = some (o, t) ∧ (s.compAt o).fuc = some f ∧ f.phase = .composing ∧ tileFaults s o t = false ∧ (ok = true ∨
        s.composer.sprue.any (fun r => r.queue == (s.compAt o).qbase + t) = false)) ∧
    (∃ (s : State) (e : Fin 16) (o t : Nat) (f : FrameUC),
      nth s.composer.engines e none = some (o, t) ∧ (s.compAt o).fuc = some f ∧ f.phase = .composing ∧ tileFaults s o t = false ∧
        s.composer.sprue.any (fun r => r.queue == (s.compAt o).qbase + t) = true) ∧
    (∃ (s : State) (q i : Nat) (r : SprueRec),
      (s.composer.sprue.findIdx? fun x => x.queue == q) = some i ∧ s.composer.sprue[i]? = some r ∧ r.reads < 2) ∧
    (∃ (s : State) (q i : Nat) (r : SprueRec),
      (s.composer.sprue.findIdx? fun x => x.queue == q) = some i ∧ s.composer.sprue[i]? = some r ∧ 2 ≤ r.reads) ∧
    (∃ (o : Nat) (f : FrameUC),
      f.snap.cfg.bit (aPixCtrl o) 3 = false) ∧
    (∃ (s : State) (o : Fin 4) (tile : Nat) (f : FrameUC),
      (s.compAt o).fuc = some f ∧ f.snap.cfg.bit (aPixCtrl o) 3 = true ∧ (f.phase = .composing ∨ f.phase = .complete) ∧ tile ∉ f.warpDone ∧ tile <
        f.tiles.length ∧ (∀ x ∈ f.tiles, x = .committed)) :=
  ⟨⟨{ up with composer := { sprue := [{ queue := 0, frame := 1, entries := [], linked := false, tries := 1 }] }, comp := List.replicate 4 { fuc := some (frame .composing .eligible), ntiles := 1 } }, 0, 0, { queue := 0, frame := 1, entries := [], linked := false, tries := 1 }, ⟨rfl, rfl, by decide⟩⟩,
   ⟨{ up with composer := { sprue := [{ queue := 0, frame := 1, entries := [], linked := false, tries := 2 }] }, comp := List.replicate 4 { fuc := some (frame .composing .eligible), ntiles := 1 } }, 0, 0, { queue := 0, frame := 1, entries := [], linked := false, tries := 2 }, 0, ⟨rfl, rfl, by decide, rfl⟩⟩,
   ⟨inComp { fuc := some (frame .binning .binned) }, 0, frame .binning .binned, ⟨rfl, rfl, by decide⟩⟩,
   ⟨inComp { fuc := some (frame .composing .eligible) }, 15, 0, 0, by decide +kernel⟩,
   ⟨up, 0, ⟨rfl, by decide⟩⟩,
   ⟨up, [(0, 0)], (0, 0), (0, 0), ⟨rfl, by decide⟩⟩,
   ⟨{ inComp { fuc := some (frame .composing (.running 0)) } with composer := { engines := [some (0, 0)] } }, 0, true, 0, 0, frame .composing
     (.running 0), ⟨rfl, rfl, rfl, by decide, by decide⟩⟩,
   ⟨{ inComp { fuc := some (frame .composing (.running 0)) } with composer := { engines := [some (0, 0)], sprue := [{ queue := 0, frame := 1, entries := [], linked := false, tries := 1 }] } }, 0, 0, 0, frame .composing (.running 0), ⟨rfl, rfl, rfl, by decide, by decide⟩⟩,
   ⟨{ up with composer := { sprue := [{ queue := 0, frame := 1, entries := [], linked := false, tries := 1, reads := 1 }] } }, 0, 0,
     { queue := 0, frame := 1, entries := [], linked := false, tries := 1, reads := 1 }, ⟨by decide, rfl, by decide⟩⟩,
   ⟨{ up with composer := { sprue := [{ queue := 0, frame := 1, entries := [], linked := false, tries := 1, reads := 2 }] } }, 0, 0,
     { queue := 0, frame := 1, entries := [], linked := false, tries := 1, reads := 2 }, ⟨by decide, rfl, by decide⟩⟩,
   ⟨0, { frame .composing .binned with snap := { cfg := [], flux := [] } }, by decide⟩,
   ⟨inComp { fuc := some (frame .complete .committed) }, 0, 0, frame .complete .committed, ⟨rfl, by decide, by decide, by decide, by decide, by
     decide⟩⟩⟩

theorem test_hyp_ComposeFaultsPoisonTheFrame :
    (∃ (s : State) (e : Fin 16) (frag o t kind : Nat) (w : Walk) (f : FrameUC),
      s.wellShaped ∧ o < 4 ∧ faultingTile s e = some (o, t) ∧ (s.compAt o).fuc = some f ∧ (s.surf.heldFaults.find? fun v => v.1.queue == (s.compAt
        o).qbase + t && v.1.frag == frag) = some (w, kind) ∧ f.phase ≠ .poisoned) ∧
    (∃ (s : State) (e : Fin 16) (frag o t kind : Nat) (w : Walk) (f : FrameUC),
      s.wellShaped ∧ o < 4 ∧ faultingTile s e = some (o, t) ∧ (s.compAt o).fuc = some f ∧ (s.surf.heldFaults.find? fun v => v.1.queue == (s.compAt
        o).qbase + t && v.1.frag == frag) = some (w, kind) ∧ f.phase = .poisoned) ∧
    (∃ (s : State) (e : Fin 16) (frag o t kind : Nat) (w : Walk) (f : FrameUC),
      s.wellShaped ∧ o < 4 ∧ faultingTile s e = some (o, t) ∧ (s.compAt o).fuc = some f ∧ (s.surf.heldFaults.find? fun v => v.1.queue == (s.compAt
        o).qbase + t && v.1.frag == frag) = some (w, kind) ∧ s.composer.faultValid = true ∧ s.composer.faultAt ≠ s.tb.tick) ∧
    (∃ (s : State) (e : Fin 16) (frag o t kind : Nat) (w : Walk) (f : FrameUC),
      s.wellShaped ∧ o < 4 ∧ faultingTile s e = some (o, t) ∧ (s.compAt o).fuc = some f ∧ (s.surf.heldFaults.find? fun v => v.1.queue == (s.compAt
        o).qbase + t && v.1.frag == frag) = some (w, kind) ∧ s.composer.faultValid = false) ∧
    (∃ (s : State) (o : Fin 4) (f : FrameUC),
      (s.compAt o).fuc = some f ∧ f.phase = .poisoned ∧ s.log.recovering.contains (0x0705, (o : Nat)) = false) ∧
    (∃ (s : State) (o : Fin 4) (f : FrameUC),
      s.wellShaped ∧ (s.compAt o).fuc = some f ∧ f.phase = .poisoned ∧ s.log.recovering.contains (0x0705, (o : Nat)) = true) :=
  ⟨⟨{ inComp { fuc := some (frame .composing .binned) } with composer := { engines := [some (0, 0)], faultValid := false }, surf := { heldFaults := [(walk 9, 4)] } }, 0, 0, 0, 0, 4, walk 9, frame .composing .binned, ⟨rfl, by decide, rfl, rfl, rfl, by decide⟩⟩,
   ⟨{ inComp { fuc := some (frame .poisoned .binned) } with composer := { engines := [some (0, 0)], faultValid := false }, surf := { heldFaults := [(walk 9, 4)] } }, 0, 0, 0, 0, 4, walk 9, frame .poisoned .binned, ⟨rfl, by decide, rfl, rfl, rfl, rfl⟩⟩,
   ⟨{ inComp { fuc := some (frame .composing .binned) } with composer := { engines := [some (0, 0)], faultValid := true }, surf := { heldFaults := [(walk 9, 4)] } }, 0, 0, 0, 0, 4, walk 9, frame .composing .binned, ⟨rfl, by decide, rfl, rfl, rfl, rfl, by decide⟩⟩,
   ⟨{ inComp { fuc := some (frame .composing .binned) } with composer := { engines := [some (0, 0)], faultValid := false }, surf := { heldFaults := [(walk 9, 4)] } }, 0, 0, 0, 0, 4, walk 9, frame .composing .binned, ⟨rfl, by decide, rfl, rfl, rfl, rfl⟩⟩,
   ⟨inComp { fuc := some (frame .poisoned .binned) }, 0, frame .poisoned .binned, ⟨rfl, rfl, rfl⟩⟩,
   ⟨{ inComp { fuc := some (frame .poisoned .binned) } with log := { recovering := [(0x0705, 0)] } }, 0, frame .poisoned .binned, ⟨rfl, rfl, rfl, by
     decide⟩⟩⟩

theorem test_hyp_PresentsAndEncoding :
    (∃ (s : State) (path : PathId) (v : Word),
      serves s path = true ∧ hasRole s path 2 = true ∧ lyKind s.act (nbits v.toNat 22 16) = 0 ∧ (s.surfAt (nbits v.toNat 11 0)).st = 2) ∧
    (∃ (s : State) (path : PathId) (v : Word),
      serves s path = true ∧ hasRole s path 2 = true ∧ ((lyKind s.act (nbits v.toNat 22 16) ≠ 0 ∨ (s.surfAt (nbits v.toNat 11 0)).st ≠ 2))) ∧
    (∃ (s : State) (o : Fin 4) (f : FrameUC),
      (s.compAt o).fuc = some f ∧ encodable f o = true ∧ (backBuf s o).complete = false ∧ crc32 (zoneResident s o (nth s.guard.zones o {}).w (nth
        s.guard.zones o {}).h) = zoneExpect s.act o) ∧
    (∃ (s : State) (o : Fin 4) (f : FrameUC),
      (s.compAt o).fuc = some f ∧ encodable f o = true ∧ (backBuf s o).complete = false ∧ crc32 (zoneResident s o (nth s.guard.zones o {}).w (nth
        s.guard.zones o {}).h) ≠ zoneExpect s.act o) :=
  ⟨⟨inSurf { surfs := [(5, { st := 2 })] }, .internal, 5, by decide⟩,
   ⟨up, .internal, 5, by decide⟩,
   ⟨inEnc [(0xF0100, goodWord)], 0, doneFrame, ⟨rfl, by decide, by decide, goodWord_nat.symm⟩⟩,
   ⟨inEnc [(0xF0100, badWord)], 0, doneFrame, ⟨rfl, by decide, by decide, badWord_nat⟩⟩⟩

theorem test_hyp_StagedWritesAndTheCopy :
    (∃ (s : State) (path : PathId) (a : Nat) (v : Word),
      serves s path = true ∧ a % 4 = 0 ∧ clsOf a = some .ls ∧ hasRole s path 1 = true ∧ (∀ o ∈ ownersOf s.ladle a v, nbit (pathMask s path) o = true)
        ∧ s.ladle.busy = false ∧ ((∀ p, s.ladle.pending = some p → ∀ o ∈ ownersOf s.ladle a v, nbit p.mask o = false))) ∧
    (∃ (s : State) (path : PathId) (a : Nat) (v : Word), ∃ p,
      serves s path = true ∧ a % 4 = 0 ∧ clsOf a = some .ls ∧ hasRole s path 1 = true ∧ (∀ o ∈ ownersOf s.ladle a v, nbit (pathMask s path) o = true)
        ∧ s.ladle.busy = false ∧ s.ladle.pending = some p ∧ (∃ o ∈ ownersOf s.ladle a v, nbit p.mask o = true)) ∧
    (∃ (s : State) (path : PathId) (a : Nat) (v : Word),
      serves s path = true ∧ a % 4 = 0 ∧ clsOf a = some .ls ∧ hasRole s path 1 = true ∧ (∀ o ∈ ownersOf s.ladle a v, nbit (pathMask s path) o = true)
        ∧ s.ladle.busy = true) ∧
    (∃ (s : State) (path : PathId) (a : Nat) (v : Word),
      serves s path = true ∧ a % 4 = 0 ∧ clsOf a = some .ls ∧ (hasRole s path 1 = false ∨ (∃ o ∈ ownersOf s.ladle a v, nbit (pathMask s path) o =
        false))) ∧
    (∃ (s t : State) (path : PathId) (a : Nat) (v : Word),
      exec (.lsWrite path a v) s = .next t) ∧
    (∃ (s : State),
      s.ladle.busy = true ∧ s.ladle.pending = none ∧ s.ann.run = none) :=
  ⟨⟨up, .internal, 0x20000, 1, ⟨by decide, by decide, by decide, by decide, by decide, rfl, fun _ h => by cases h⟩⟩,
   ⟨inLadle { pending := some pour }, .internal, 0x20000, 1, pour, by decide⟩,
   ⟨inLadle { busy := true }, .internal, 0x20000, 1, by decide⟩,
   ⟨up, .spi, 0x20000, 1, by decide⟩,
   ⟨up, _, .internal, 0x20000, 1, rfl⟩,
   ⟨inLadle { busy := true }, ⟨rfl, rfl, rfl⟩⟩⟩

theorem test_hyp_PourRequestsAndCancels :
    (∃ (s r : State) (path : PathId) (v : Word),
      serves s path = true ∧ hasRole s path 1 = true ∧ nbit v.toNat 9 = false ∧ v.toNat % 32 &&& pathMask s path = v.toNat % 32 ∧ r = flushHeld s ∧
        ladleChecks r v.toNat (ladleTarget s) = none) ∧
    (∃ (s r : State) (path : PathId) (v : Word), ∃ n,
      serves s path = true ∧ hasRole s path 1 = true ∧ nbit v.toNat 9 = false ∧ v.toNat % 32 &&& pathMask s path = v.toNat % 32 ∧ r = flushHeld s ∧
        ladleChecks r v.toNat (ladleTarget s) = some n) ∧
    (∃ (s : State) (path : PathId) (p : Pour),
      serves s path = true ∧ hasRole s path 1 = true ∧ s.ladle.pending = some p ∧ p.kind = .host ∧ s.ann.run = none) ∧
    (∃ (s : State) (path : PathId),
      serves s path = true ∧ hasRole s path 1 = true ∧ s.ladle.pending = none) ∧
    (∃ (s : State) (path : PathId) (v : Word),
      serves s path = true ∧ (hasRole s path 1 = false ∨ (nbit v.toNat 9 = false ∧ v.toNat % 32 &&& pathMask s path ≠ v.toNat % 32))) :=
  ⟨⟨up, _, .internal, 16, ⟨by decide, by decide, by decide, by decide, rfl, by decide +kernel⟩⟩,
   ⟨up, _, .internal, 0, 1, ⟨by decide, by decide, by decide, by decide, rfl, by decide +kernel⟩⟩,
   ⟨inLadle { pending := some pour }, .internal, pour, ⟨by decide, by decide, rfl, rfl, rfl⟩⟩,
   ⟨up, .internal, by decide⟩,
   ⟨up, .spi, 16, by decide⟩⟩

theorem test_hyp_PoursAreCheckedAndCommitted :
    (∃ (s : State) (p : Pour),
      s.ladle.pending = some p ∧ s.ladle.armed = false ∧ ((p.kind = .anneal → ∀ r, s.ann.run = some r → r.checked = false)) ∧ domainsAwake s p
        (pourView s p) = false) ∧
    (∃ (s : State) (p : Pour) (u : State),
      s.ladle.pending = some p ∧ s.ladle.armed = false ∧ ((p.kind = .anneal → ∀ r, s.ann.run = some r → r.checked = false)) ∧ domainsAwake s p
        (pourView s p) = true ∧ runLists s (pourView s p) (candidateFlux s (pourView s p) (pourBlock s p)) (p.kind == .dawn || p.kind == .ingotApply)
        = (u, none) ∧ p.kind ≠ .anneal) ∧
    (∃ (s : State) (p : Pour) (u : State),
      s.ladle.pending = some p ∧ s.ladle.armed = false ∧ ((p.kind = .anneal → ∀ r, s.ann.run = some r → r.checked = false)) ∧ domainsAwake s p
        (pourView s p) = true ∧ runLists s (pourView s p) (candidateFlux s (pourView s p) (pourBlock s p)) (p.kind == .dawn || p.kind == .ingotApply)
        = (u, none) ∧ p.kind = .anneal) ∧
    (∃ (s : State) (p : Pour) (u : State), ∃ f,
      s.ladle.pending = some p ∧ s.ladle.armed = false ∧ ((p.kind = .anneal → ∀ r, s.ann.run = some r → r.checked = false)) ∧ domainsAwake s p
        (pourView s p) = true ∧ runLists s (pourView s p) (candidateFlux s (pourView s p) (pourBlock s p)) (p.kind == .dawn || p.kind == .ingotApply)
        = (u, some f)) ∧
    (∃ (s : State) (p : Pour) (k : Fin 8),
      s.ladle.pending = some p ∧ s.ladle.armed = true ∧ ((p.targeted = false ∨ p.target ≤ pourCounter s p)) ∧ (nbit k 0 && nbit k 1) = false ∧ (nbit
        k 0 && nbit k 2) = false ∧ (nbit k 1 && nbit k 2) = false ∧ freedLayer (pourView s p).settled p = none ∧ p.kind ≠ .dawn ∧ p.kind ≠
        .ingotApply) ∧
    (∃ (s : State) (p : Pour) (k : Fin 8),
      s.ladle.pending = some p ∧ s.ladle.armed = true ∧ ((p.targeted = false ∨ p.target ≤ pourCounter s p)) ∧ ((nbit k 0 && nbit k 1) = true ∨ (nbit
        k 0 && nbit k 2) = true ∨ (nbit k 1 && nbit k 2) = true)) ∧
    (∃ (s : State) (p : Pour),
      s.ladle.pending = some p ∧ (s.ladle.armed = false ∨ (p.targeted = true ∧ pourCounter s p < p.target))) :=
  ⟨⟨sleepPour, pour, ⟨rfl, rfl, fun h => (by cases h), by decide +kernel⟩⟩,
   ⟨goodPour, pour, (runLists goodPour (pourView goodPour pour) (candidateFlux goodPour (pourView goodPour pour) (pourBlock goodPour pour)) false).1,
     ⟨rfl, rfl, fun h => (by cases h), by decide +kernel, Prod.ext rfl (by decide +kernel), by decide⟩⟩,
   ⟨annPour, { pour with kind := .anneal }, (runLists annPour (pourView annPour { pour with kind := .anneal }) (candidateFlux annPour (pourView
     annPour { pour with kind := .anneal }) (pourBlock annPour { pour with kind := .anneal })) false).1, ⟨rfl, rfl, fun _ r h => (by cases h), by
     decide +kernel, Prod.ext rfl (by decide +kernel), rfl⟩⟩,
   ⟨badPour, pour, (runLists badPour (pourView badPour pour) (candidateFlux badPour (pourView badPour pour) (pourBlock badPour pour)) false).1,
     { block := 6, check := 1, owner := 4 }, ⟨rfl, rfl, fun h => (by cases h), by decide +kernel, Prod.ext rfl (by decide +kernel)⟩⟩,
   ⟨inLadle { pending := some pour, armed := true }, pour, 4, ⟨rfl, rfl, by decide, by decide, by decide, by decide, by decide +kernel, by decide, by
     decide⟩⟩,
   ⟨inLadle { pending := some pour, armed := true }, pour, 3, ⟨rfl, rfl, by decide⟩⟩,
   ⟨inLadle { pending := some pour }, pour, ⟨rfl, by decide⟩⟩⟩

theorem test_hyp_CommittedWordsComeIntoForceTogether :
    ∃ (s : State) (p : Pour),
      Sparse.wf cfgDefault s.ladle.act = true ∧ Sparse.wf cfgDefault s.ladle.stg = true ∧ (∀ e ∈ pourPairs s p, e.1 % 4 = 0) ∧ sealedOf s p = [] :=
  ⟨{ up with ladle := { stg := [(0x20000, 1)], touched := [(0x20000, 1)] } }, pour, by decide⟩

theorem test_hyp_ManagementReadsAndWrites :
    (∃ (s : State) (path : PathId) (a n : Nat),
      servesRead s path (a + 4 * (n - 1)) = true) ∧
    (∃ (s : State) (path : PathId) (a : Nat),
      servesRead s path a = true ∧ a % 4 = 0 ∧ hasRole s path 0 = true) ∧
    (∃ (s t u : State) (path : PathId) (a n c : Nat) (w : Word) (ws : List Word),
      gatedRead s path a = (t, 0, w) ∧ gatedReads path n (a + 4) t = (u, c, ws)) ∧
    (∃ (s : State) (path : PathId) (a n : Nat),
      servesRead s path (a + 4 * n) = true ∧ a % 4 = 0 ∧ hasRole s path 0 = false) ∧
    (∃ (s : State) (path : PathId) (a : Nat) (v : Word),
      serves s path = true ∧ a % 4 = 0 ∧ writeRefused s path a v = none ∧ a ≠ 0x800) ∧
    (∃ (s : State) (path : PathId) (a : Nat) (v : Word),
      serves s path = true ∧ a % 4 = 0 ∧ writeRefused s path a v = none ∧ a = 0x800) ∧
    (∃ (s t : State) (path : PathId) (a : Nat) (v : Word) (ws : List Word),
      serves s path = true ∧ a % 4 = 0 ∧ firstRefused s path a (v :: ws) = none ∧ a ≠ 0x800 ∧ busWrite s path a v = (t, 0)) ∧
    (∃ (s : State) (path : PathId) (a c role ad : Nat) (ws : List Word),
      serves s path = true ∧ a % 4 = 0 ∧ firstRefused s path a ws = some (c, role, ad)) ∧
    (∃ (s : State) (path : PathId) (a : Nat),
      serves s path = true ∧ a % 4 ≠ 0) ∧
    (∃ (s : State) (path : PathId),
      serves s path = true ∧ hasRole s path 1 = true) ∧
    (∃ (s : State) (path : PathId),
      serves s path = true ∧ hasRole s path 1 = false) :=
  ⟨⟨up, .spi, 0, 1, by decide⟩,
   ⟨up, .spi, 8, by decide⟩,
   ⟨up, _, _, .internal, 0xC, 1, _, _, _, ⟨rfl, rfl⟩⟩,
   ⟨inMgmt { spiRoles := 0 }, .spi, 0, 0, by decide⟩,
   ⟨up, .internal, 0x104, 1, by decide⟩,
   ⟨up, .internal, 0x800, 1, by decide⟩,
   ⟨up, _, .internal, 0x104, 1, [], ⟨by decide, by decide, by decide, by decide, Prod.ext rfl (by decide +kernel)⟩⟩,
   ⟨up, .spi, 0x20000, 2, 1, 0x20000, [1], by decide⟩,
   ⟨up, .internal, 2, by decide⟩,
   ⟨up, .internal, by decide⟩,
   ⟨up, .spi, by decide⟩⟩

theorem test_hyp_WritesFollowTheAccessClass :
    (∃ (a : Nat),
      mailboxAddr a = false ∧ clsOf a = some .ro ∧ holdsW1c a = false) ∧
    (∃ (a : Nat),
      mailboxAddr a = false ∧ clsOf a = none) ∧
    (∃ (a : Nat),
      mailboxAddr a = false ∧ clsOf a = some .se) ∧
    (∃ (a : Nat),
      mailboxAddr a = false ∧ clsOf a = some .rw ∧ a ≠ 0x104 ∧ a ≠ 0x10014 ∧ a ≠ 0x100040) ∧
    (∃ (a : Nat),
      mailboxAddr a = false ∧ a = 0x104) ∧
    (∃ (a : Nat),
      mailboxAddr a = false ∧ a = 0x10014) ∧
    (∃ (a : Nat),
      mailboxAddr a = false ∧ a = 0x100040) ∧
    (∃ (a : Nat),
      mailboxAddr a = false ∧ (clsOf a = some .w1c ∨ (clsOf a = some .ro ∧ holdsW1c a = true))) ∧
    (∃ (a : Nat),
      mailboxAddr a = false ∧ clsOf a = some .wo) ∧
    (∃ (a : Nat),
      mailboxAddr a = false ∧ clsOf a = some .ls) :=
  ⟨⟨0, by decide⟩,
   ⟨0xFFFFFF0, by decide⟩,
   ⟨0xF0100, by decide⟩,
   ⟨0x80C, by decide⟩,
   ⟨0x104, by decide⟩,
   ⟨0x10014, by decide⟩,
   ⟨0x100040, by decide⟩,
   ⟨0x804, by decide⟩,
   ⟨0x14, by decide⟩,
   ⟨0x20000, by decide⟩⟩

theorem test_hyp_KeyAndTimeCommands :
    (∃ (s : State) (path : PathId) (v : Word),
      serves s path = true ∧ writeRefused s path 0x10000 v = none) ∧
    (∃ (s : State) (k : Fin 4),
      serves s (.eth k) = true ∧ hasRole s (.eth k) 6 = true) ∧
    (∃ (s : State) (k : Fin 4) (slot : Nat),
      serves s (.eth k) = true ∧ hasRole s (.eth k) 8 = true ∧ slot < 4) ∧
    (∃ (s : State) (path : PathId) (slot : Nat) (key : List Byte),
      serves s path = true ∧ (path = .spi ∨ path = .bar0) ∧ slot < 4 ∧ key.length = 97 ∧ nth s.fuse.anchors slot none = none) ∧
    (∃ (s : State) (path : PathId) (slot : Nat) (key : List Byte),
      serves s path = true ∧ (path = .spi ∨ path = .bar0) ∧ slot < 4 ∧ key.length = 97 ∧ nth s.fuse.anchors slot none ≠ none) :=
  ⟨⟨up, .internal, 16, by decide⟩,
   ⟨opened sess, 3, by decide⟩,
   ⟨opened sess, 0, 3, by decide⟩,
   ⟨up, .spi, 3, List.replicate 97 0, by decide⟩,
   ⟨{ up with fuse := { anchors := [some []] } }, .bar0, 0, List.replicate 97 0, by decide⟩⟩

theorem test_hyp_IngotCommands :
    (∃ (s : State) (path : PathId) (n : Nat),
      serves s path = true ∧ hasRole s path 7 = true ∧ n ≤ 16777216 ∧ n % 4 = 0 ∧ s.mgmt.update = none ∧ s.therm.flashOpen = true) ∧
    (∃ (s : State) (u : Update),
      s.mgmt.update = some u ∧ u.erased = false ∧ s.therm.flashOpen = true) ∧
    (∃ (s : State) (path : PathId) (ofs : Nat) (l : List Byte) (u : Update),
      serves s path = true ∧ hasRole s path 7 = true ∧ s.mgmt.update = some u ∧ u.erased = true ∧ u.waitData = none ∧ u.waitCommit = false ∧ l.length
        ≤ 1024 ∧ 4 ≤ ofs ∧ ofs + l.length ≤ u.length ∧ s.therm.flashOpen = true) ∧
    (∃ (s : State) (path : PathId) (ofs : Nat) (l : List Byte) (u : Update),
      serves s path = true ∧ hasRole s path 7 = true ∧ s.mgmt.update = some u ∧ u.erased = true ∧ u.waitData = none ∧ u.waitCommit = false ∧ l.length
        ≤ 1024 ∧ 4 ≤ ofs ∧ ofs + l.length ≤ u.length ∧ s.therm.flashOpen = false) ∧
    (∃ (s : State) (path : PathId) (u : Update),
      serves s path = true ∧ hasRole s path 7 = true ∧ s.mgmt.update = some u ∧ u.erased = true ∧ u.waitData = none ∧ u.waitCommit = false ∧
        s.therm.flashOpen = true) ∧
    (∃ (s : State) (path : PathId) (c : Nat),
      serves s path = true ∧ hasRole s path 7 = true ∧ s.mgmt.committed = some c ∧ 31 &&& pathMask s path = 31 ∧ s.ladle.pending = none) ∧
    (∃ (s : State) (path : PathId) (c : Nat),
      serves s path = true ∧ hasRole s path 7 = true ∧ s.mgmt.committed = some c ∧ 31 &&& pathMask s path ≠ 31) ∧
    (∃ (s : State) (u : Update),
      judgeCopy s u.copy true ≠ 0) :=
  ⟨⟨inTherm { flashOpen := true }, .internal, 16777216, by decide⟩,
   ⟨{ inMgmt { update := some { path := .internal, length := 4096, copy := 0, erased := false } } with therm := { flashOpen := true } },
     { path := .internal, length := 4096, copy := 0, erased := false }, ⟨rfl, rfl, rfl⟩⟩,
   ⟨{ inMgmt { update := some { path := .internal, length := 4096, copy := 0, erased := true } } with therm := { flashOpen := true } }, .internal, 4,
     [0], { path := .internal, length := 4096, copy := 0, erased := true }, ⟨by decide, by decide, rfl, by decide⟩⟩,
   ⟨{ inMgmt { update := some { path := .internal, length := 4096, copy := 0, erased := true } } with therm := { flashOpen := false } }, .internal,
     4, [0], { path := .internal, length := 4096, copy := 0, erased := true }, ⟨by decide, by decide, rfl, by decide⟩⟩,
   ⟨{ inMgmt { update := some { path := .internal, length := 4096, copy := 0, erased := true } } with therm := { flashOpen := true } }, .internal,
     { path := .internal, length := 4096, copy := 0, erased := true }, ⟨by decide, by decide, rfl, by decide⟩⟩,
   ⟨{ inMgmt { committed := some 1 } with log := {} }, .internal, 1, by decide⟩,
   ⟨inMgmt { committed := some 1, spiRoles := 0x3FF }, .spi, 1, by decide⟩,
   ⟨up, { path := .spi, length := 8, copy := 0, erased := false }, by decide +kernel⟩⟩

theorem test_hyp_NoAnchorNoIngot :
    ∃ (s : State),
      (∀ x ∈ s.fuse.anchors, x = none) :=
  ⟨up, by decide⟩

theorem test_hyp_SpiFrames :
    (∃ (s : State),
      s.mode.core = true) ∧
    (∃ (s : State) (l : List Byte) (e : Nat),
      s.mode.core = true ∧ spiForm 0x02 1 l = e ∧ e ≠ 0) ∧
    (∃ (s : State) (l : List Byte) (e : Nat),
      s.mode.core = true ∧ spiForm 0x03 0 l = e ∧ e ≠ 0) ∧
    (∃ (s : State) (l : List Byte),
      s.mode.core = true ∧ spiForm 0x02 1 l = 0 ∧ serves s .spi = true ∧ (pathWrite s .spi (beAt l 2 4) (beWords ((l.drop 6).take (4 * beAt l 1
        1)))).2 = 0) ∧
    (∃ (s : State) (l : List Byte) (w : Word) (u : State),
      s.mode.core = true ∧ spiForm 0x03 0 l = 0 ∧ beAt l 1 1 = 1 ∧ servesRead s .spi (beAt l 2 4) = true ∧ gatedRead s .spi (beAt l 2 4) = (u, 0, w))
        :=
  ⟨⟨up, by decide⟩,
   ⟨up, [3], 3, by decide⟩,
   ⟨up, [3], 2, by decide⟩,
   ⟨spiUp, (spiFrame [2, 1, 0, 0, 8, 12, 0, 0, 0, 1]), by decide +kernel⟩,
   ⟨spiUp, (spiFrame [3, 1, 0, 0, 0, 0]), _, _, ⟨by decide, by decide +kernel, by decide +kernel, by decide +kernel, rfl⟩⟩⟩

theorem test_hyp_SetPointsAndTraining :
    (∃ (s : State),
      s.hbm.st = 2 ∧ s.hbm.drained = false ∧ (∀ c ∈ s.run.chans, c.owner = none)) ∧
    (∃ (s : State),
      (∃ c ∈ s.run.chans, c.owner ≠ none)) ∧
    (∃ (s : State),
      s.hbm.st = 2 ∧ s.hbm.drained = true) ∧
    (∃ (s : State),
      s.hbm.st = 1 ∧ s.hbm.training = false ∧ ((s.hbm.passTick + hbmRetrain (s.rt 4) * 400000000 ≤ s.tb.tick ∨ 64 ≤ (s.hbm.temp -
        s.hbm.passTemp).natAbs))) ∧
    (∃ (s : State),
      s.hbm.training = true ∧ s.hbm.slots < 128 ∧ (s.hbm.slots = 0 ∨ s.hbm.slotAt + 20000 ≤ s.tb.tick)) ∧
    (∃ (s : State),
      s.hbm.training = true ∧ s.hbm.slots < 128 ∧ s.hbm.slots ≠ 0 ∧ s.tb.tick < s.hbm.slotAt + 20000) ∧
    (∃ (s : State),
      s.hbm.training = true ∧ s.hbm.slots = 128) ∧
    (∃ (s : State),
      s.hbm.retry = true ∧ s.hbm.st = 1 ∧ s.hbm.training = false ∧ s.hbm.passTick + 400000000 ≤ s.tb.tick) ∧
    (∃ (s : State),
      s.hbm.retry = true ∧ s.hbm.st = 1 ∧ s.hbm.training = false ∧ s.tb.tick < s.hbm.passTick + 400000000) :=
  ⟨⟨inHbm { st := 2 }, by decide⟩,
   ⟨inChan up { owner := some 3 }, by decide⟩,
   ⟨inHbm { st := 2, drained := true }, by decide⟩,
   ⟨inHbm { st := 1, temp := 64 }, by decide⟩,
   ⟨inHbm { training := true, slots := 127 }, by decide⟩,
   ⟨inHbm { training := true, slots := 1, slotAt := 2 ^ 56 }, by decide⟩,
   ⟨inHbm { training := true, slots := 128 }, by decide⟩,
   ⟨inHbm { retry := true, st := 1 }, by decide⟩,
   ⟨inHbm { retry := true, st := 1, passTick := 2 ^ 56 }, by decide⟩⟩

theorem test_hyp_RefreshAndTemperature :
    (∃ (s u : State) (h : Fin 16),
      u = flushCheck s h ∧ carrying u = true ∧ refreshDue u h = true) ∧
    (∃ (s u : State) (h : Fin 16),
      u = flushCheck s h ∧ carrying u = true ∧ refreshDue u h = false) ∧
    (∃ (s : State) (h : Fin 16),
      nth s.hbm.flushing h false = true ∧ debtNow s.hbm s.tb.tick h ≤ 7 * refreshT s.hbm) ∧
    (∃ (s : State) (h : Fin 16),
      nth s.hbm.flushing h false = false ∨ 7 * refreshT s.hbm < debtNow s.hbm s.tb.tick h) ∧
    (∃ (s : State) (h : Fin 16),
      8 * refreshT s.hbm < debtNow s.hbm s.tb.tick h ∧ nth s.hbm.flushing h false = false) ∧
    (∃ (s : State) (dusk : Bool),
      s.hbm.training = false ∧ (dusk = true ↔ s.mode.dev = 7 ∧ s.mode.duskStep = 5) ∧ ((dusk = true → s.hbm.st ≠ 4)) ∧ ((dusk = false → s.hbm.st = 1
        ∧ autoSelfRefresh s = true))) ∧
    (∃ (s : State),
      s.hbm.st ≠ 5) ∧
    (∃ (s : State),
      s.hbm.st = 5 ∧ s.hbm.srDusk = false) ∧
    (∃ (s : State) (x : Int),
      s.hbm.st ≠ 4 ∧ s.hbm.hot = false ∧ 680 ≤ x) ∧
    (∃ (s : State) (x : Int) (since : Nat),
      s.hbm.st ≠ 4 ∧ s.hbm.hot = true ∧ x < 648 ∧ s.hbm.coolSince = some since ∧ since + 3200000 ≤ s.tb.tick) ∧
    (∃ (s : State) (x : Int),
      s.hbm.st ≠ 4 ∧ s.hbm.hot = false ∧ x < 680) :=
  ⟨⟨inHbm { st := 1, debtAt := List.replicate 16 (2 ^ 56), debt := List.replicate 16 (62400), lastUse := List.replicate 16 (2 ^ 56) }, _, 0, ⟨rfl, by
    decide +kernel, by decide +kernel⟩⟩,
   ⟨inHbm { st := 1, debtAt := List.replicate 16 (2 ^ 56), debt := List.replicate 16 (-62400), lastUse := List.replicate 16 (2 ^ 56) }, _, 0, ⟨rfl,
     by decide +kernel, by decide +kernel⟩⟩,
   ⟨inHbm { st := 4, flushing := [true], debt := [54600] }, 0, by decide⟩,
   ⟨inHbm { st := 1, flushing := [] }, 0, by decide⟩,
   ⟨inHbm { st := 1, debtAt := List.replicate 16 (2 ^ 56), debt := List.replicate 16 (62401), lastUse := List.replicate 16 (2 ^ 56) }, 0, by decide⟩,
   ⟨{ cfg [(0x60010, 0x80000000)] with hbm := { st := 1 } }, false, by decide +kernel⟩,
   ⟨inHbm { st := 4 }, by decide⟩,
   ⟨inHbm { st := 5 }, by decide⟩,
   ⟨inHbm { st := 1 }, 680, by decide⟩,
   ⟨inHbm { st := 1, hot := true, coolSince := some 5 }, 647, 5, by decide⟩,
   ⟨inHbm { st := 1 }, 679, by decide⟩⟩

theorem test_hyp_HbmTransactions :
    (∃ (s : State) (r : Fin 16) (a : Nat) (w : Bool) (ecc parity : Nat) (p : HbmPlace),
      p = hbmPlace s.hbm.mapOrder (a / 64 * 64) ∧ canIssue s r (a / 64 * 64) = true ∧ sequenceAdmits (s.chanAt p.ch) w = true ∧ ((s.chanAt
        p.ch).locked = false ∨ (parity < 3 ∧ (w = true ∨ ecc ≠ 2)))) ∧
    (∃ (s : State) (r : Fin 16) (a : Nat) (w : Bool) (ecc parity : Nat) (p : HbmPlace),
      p = hbmPlace s.hbm.mapOrder (a / 64 * 64) ∧ canIssue s r (a / 64 * 64) = true ∧ sequenceAdmits (s.chanAt p.ch) w = true ∧ (s.chanAt
        p.ch).locked = true ∧ (3 ≤ parity ∨ (w = false ∧ ecc = 2))) ∧
    (∃ (s : State) (r : Fin 16) (a : Nat) (w : Bool),
      canIssue s r (a / 64 * 64) = false ∨ sequenceAdmits (s.chanAt (hbmPlace s.hbm.mapOrder (a / 64 * 64)).ch) w = false) ∧
    (∃ (s : State) (r a : Nat),
      hbmCapacity s ≤ a ∨ (s.chanAt (hbmPlace s.hbm.mapOrder a).ch).owner ≠ some r ∨ s.hbm.drained = true) ∧
    (∃ (parity : Nat),
      parity < 3) ∧
    (∃ (parity : Nat),
      3 ≤ parity) ∧
    (∃ (ecc parity : Nat),
      ecc ≠ 2 ∧ parity < 3) ∧
    (∃ (ecc parity : Nat),
      ecc = 2 ∨ 3 ≤ parity) :=
  ⟨⟨{ inChan up { owner := some 3, locked := false } with hbm := { st := 1 } }, 3, 16 * 2 ^ 30 - 1, true, 0, 0, _, ⟨rfl, by decide +kernel, by
    decide +kernel, by decide⟩⟩,
   ⟨{ inChan up { owner := some 3, locked := true } with hbm := { st := 1 } }, 3, 0, true, 0, 3, _, ⟨rfl, by decide +kernel, by decide +kernel, by
     decide, by decide⟩⟩,
   ⟨{ inChan up { owner := some 3, locked := true } with hbm := { st := 1 } }, 4, 0, true, by decide +kernel⟩,
   ⟨up, 3, 0, by decide +kernel⟩,
   ⟨2, by decide⟩,
   ⟨3, by decide⟩,
   ⟨1, 2, by decide⟩,
   ⟨2, 0, by decide⟩⟩

theorem test_hyp_RunnersAndTheLottery :
    (∃ (s : State) (r h : Fin 16),
      (s.run.tokenWait.any fun w => w.1 == (r : Nat) && w.2.1 == (h : Nat)) = false ∧ ((r : Nat) < 8 ∨ (temperLevel s = 0 ∧ s.run.tokenWait = []))) ∧
    (∃ (s : State) (r : Fin 16),
      8 ≤ (r : Nat) ∧ temperLevel s ≠ 0 ∧ s.run.tokenWait = [] ∧ 1 ≤ tokensNow s) ∧
    (∃ (s : State) (r : Fin 16),
      8 ≤ (r : Nat) ∧ temperLevel s ≠ 0 ∧ s.run.tokenWait = [] ∧ tokensNow s = 0) ∧
    (∃ (s : State) (r h : Fin 16),
      8 ≤ (r : Nat) ∧ s.run.tokenWait ≠ [] ∧ (s.run.tokenWait.any fun w => w.1 == (r : Nat) && w.2.1 == (h : Nat)) = false) ∧
    (∃ (s : State) (r h : Fin 16),
      (s.run.tokenWait.any fun w => w.1 == (r : Nat) && w.2.1 == (h : Nat)) = true) ∧
    (∃ (s : State) (r h : Fin 16),
      (s.chanAt h).owner = some (r : Nat)) ∧
    (∃ (s : State) (r h : Fin 16),
      (s.chanAt h).owner ≠ some (r : Nat)) ∧
    (∃ (s : State) (h r : Nat),
      (s.chanAt h).owner = none ∧ (s.chanAt h).drawn = none ∧ requesters s h = [r]) ∧
    (∃ (tk : Nat → Nat) (x : Nat) (req : List Nat),
      x < 65536 ∧ (∃ r ∈ req, tk r ≠ 0)) ∧
    (∃ (tk : Nat → Nat) (req : List Nat),
      (∀ r ∈ req, tk r = 0)) ∧
    (∃ (tk : Nat → Nat) (x : Nat) (pre post : List Nat) (r : Nat),
      (∀ q ∈ pre ++ r :: post, tk q ≠ 0) ∧ (pre.map tk).sum ≤ x * ((pre ++ r :: post).map tk).sum / 65536 ∧ x * ((pre ++ r :: post).map tk).sum /
        65536 < (pre.map tk).sum + tk r) ∧
    (∃ (c : ChanArb) (req : List Nat) (r : Nat), ∃ q,
      ceilingWinner c req = some r ∧ 8 ≤ r ∧ q ∈ req ∧ q ∈ c.atCeil) :=
  ⟨⟨up, 7, 0, by decide⟩,
   ⟨inTherm { level := 1 }, 8, by decide +kernel⟩,
   ⟨{ inTherm { level := 7 } with run := { tokens := 0, tokensAt := 2 ^ 56, tokenWait := [] } }, 15, by decide +kernel⟩,
   ⟨{ inTherm { level := 7 } with run := { tokens := 0, tokensAt := 2 ^ 56, tokenWait := [(14, 0, 1, false)] } }, 15, 0, by decide⟩,
   ⟨{ inTherm { level := 7 } with run := { tokens := 0, tokensAt := 2 ^ 56, tokenWait := [(15, 0, 1, false)] } }, 15, 0, by decide⟩,
   ⟨{ inChan up { owner := some 3, locked := true } with hbm := { st := 1 } }, 3, 15, by decide⟩,
   ⟨{ inChan up { owner := some 3, locked := true } with hbm := { st := 1 } }, 4, 15, by decide⟩,
   ⟨{ inChan up { waiting := [(9, 0)] } with hbm := { st := 1 } }, 0, 9, by decide⟩,
   ⟨fun _ => 1, 65535, [3, 4], by decide⟩,
   ⟨fun _ => 0, [1], by decide⟩,
   ⟨fun _ => 1, 65535, [3], [], 4, by decide⟩,
   ⟨{ atCeil := [9, 8] }, [8, 9], 9, 8, by decide⟩⟩

theorem test_hyp_LockedSequences :
    (∃ (s : State) (r h : Fin 16) (waits : Bool) (n : Nat),
      (r : Nat) < 14 ∨ waits = true ∨ waitsElsewhere s r h = true ∨ 8 < n) ∧
    (∃ (s : State) (r h : Fin 16) (n : Nat),
      14 ≤ (r : Nat) ∧ waitsElsewhere s r h = false ∧ n ≤ 8) ∧
    (∃ (s u : State) (r : Fin 16) (a parity : Nat) (d : List Byte) (p : HbmPlace),
      p = hbmPlace s.hbm.mapOrder (a / 64 * 64) ∧ canIssue s r (a / 64 * 64) = true ∧ (s.chanAt p.ch).locked = true ∧ u = countParity (finishWrite
        ((openRow s p).modArb p.ch fun c => { c with accepted := true }) p r (a / 64 * 64) d parity) p.ch (min parity 3) ∧ parity < 3) ∧
    (∃ (s u : State) (r : Fin 16) (a parity : Nat) (d : List Byte) (p : HbmPlace),
      p = hbmPlace s.hbm.mapOrder (a / 64 * 64) ∧ canIssue s r (a / 64 * 64) = true ∧ (s.chanAt p.ch).locked = true ∧ u = countParity (finishWrite
        ((openRow s p).modArb p.ch fun c => { c with accepted := true }) p r (a / 64 * 64) d parity) p.ch (min parity 3) ∧ 3 ≤ parity) ∧
    (∃ (s u : State) (r : Fin 16),
      u = s.modRun (fun x => { x with tokenWait := x.tokenWait.filter fun w => w.1 != (r : Nat) })) ∧
    (∃ (s : State),
      s.run.chans.length = 16) ∧
    (∃ (s : State) (l : List (Fin 16)),
      youngest (cycleLocks s (l.map (·.val))) = none) ∧
    (∃ (s : State) (l : List (Fin 16)) (r h at_ : Nat),
      youngest (cycleLocks s (l.map (·.val))) = some (r, h, at_)) ∧
    (∃ (s : State) (r h : Nat),
      s.run.rollback = some (r, h) ∧ (s.chanAt h).owner = some r) :=
  ⟨⟨up, 13, 0, false, 1, by decide⟩,
   ⟨up, 14, 0, 8, by decide⟩,
   ⟨{ inChan up { owner := some 3, locked := true } with hbm := { st := 1 } }, _, 3, 0, 2, [], _, ⟨rfl, by decide +kernel, by decide +kernel, rfl, by
     decide⟩⟩,
   ⟨{ inChan up { owner := some 3, locked := true } with hbm := { st := 1 } }, _, 3, 0, 3, [], _, ⟨rfl, by decide +kernel, by decide +kernel, rfl, by
     decide⟩⟩,
   ⟨up, _, 3, rfl⟩,
   ⟨up, by decide⟩,
   ⟨up, [1, 2], by decide⟩,
   ⟨{ inChan up { owner := some 3, locked := true } with hbm := { st := 1 } }, [3], 3, 0, 0, by decide⟩,
   ⟨{ inChan up { owner := some 3, locked := true } with hbm := { st := 1 }, run := { chans := List.replicate 16 { owner := some 3 }, rollback := some (3, 4) } }, 3, 4, by decide⟩⟩

theorem test_hyp_Surfaces :
    (∃ (s : State) (path : PathId) (v : Word),
      serves s path = true ∧ hasRole s path 2 = true ∧ nbits v.toNat 31 28 = 1) ∧
    (∃ (s : State) (path : PathId) (v : Word),
      serves s path = true ∧ hasRole s path 2 = true ∧ nbits v.toNat 31 28 = 2) ∧
    (∃ (s : State) (path : PathId) (v : Word),
      serves s path = true ∧ hasRole s path 2 = true ∧ nbits v.toNat 31 28 ≠ 1 ∧ nbits v.toNat 31 28 ≠ 2) ∧
    (∃ (s : State) (path : PathId),
      serves s path = true ∧ hasRole s path 2 = false) ∧
    (∃ (s : State) (i : Nat),
      s.surf.busy = true ∨ (s.surfAt i).st ≠ 0) ∧
    (∃ (s : State) (i : Nat),
      s.surf.busy = false ∧ (s.surfAt i).st = 0 ∧ mapArgs s (argSurface s) ≠ 0) ∧
    (∃ (s : State),
      s.surf.busy = true) ∧
    (∃ (s : State) (i : Nat),
      s.surf.busy = false ∧ (s.surfAt i).st ≠ 2) ∧
    (∃ (s : State) (i : Nat),
      s.surf.busy = false ∧ (s.surfAt i).st = 2) ∧
    (∃ (s : State) (i l1 : Nat) (pages l2s pool tp1 tp2 : List (Nat × Nat)),
      s.surf.busy = false ∧ (s.surfAt i).st = 0 ∧ mapArgs s (argSurface s) = 0 ∧ takePages (2 ^ (argSurface s).pageLog) (argSurface s).bytes
        s.surf.pool = (pages, pool, 0) ∧ takeRun (argSurface s).l1Bytes s.surf.tablePool = some (l1, tp1) ∧ takePages 4096 (4096 * (argSurface
        s).l1Count) tp1 = (l2s, tp2, 0)) ∧
    (∃ (s : State) (i : Nat) (x : Surface),
      (s.surf.surfs.find? fun e => e.2.st == 1) = some (i, x) ∧ s.surf.busy = true) ∧
    (∃ (s : State) (i : Fin 4096),
      (s.surfAt i).st = 3 ∧ (s.surfAt i).unreferenced = true) ∧
    (∃ (s : State) (i : Fin 4096),
      (s.surfAt i).unreferenced = false) ∧
    (∃ (s : State) (i : Fin 4096),
      (s.surfAt i).st = 4) :=
  ⟨⟨up, .internal, 0x10000000, by decide⟩,
   ⟨up, .internal, 0x20000000, by decide⟩,
   ⟨up, .internal, 0x30000000, by decide⟩,
   ⟨up, .spi, by decide⟩,
   ⟨inSurf { busy := true }, 0, by decide⟩,
   ⟨up, 0, by decide⟩,
   ⟨inSurf { busy := true }, by decide⟩,
   ⟨up, 0, by decide⟩,
   ⟨inSurf { surfs := [(0, { st := 2, size := 512, attr := 1 })] }, 0, by decide⟩,
   ⟨mapSt, 0, 4194304, [(0, 2097152)], [(4198400, 4096)], [], [(4198400, 1044480)], [(4202496, 1040384)], by decide +kernel⟩,
   ⟨{ up with surf := { surfs := [(3, { st := 1 })], busy := true } }, 3, { st := 1 }, ⟨rfl, rfl⟩⟩,
   ⟨inSurf { surfs := [(0, { st := 3, size := 512, attr := 1 })] }, 0, by decide⟩,
   ⟨inSurf { surfs := [(0, { st := 3, refs := [some 1] })] }, 0, by decide⟩,
   ⟨inSurf { surfs := [(0, { st := 4, size := 512, attr := 1 })] }, 0, by decide⟩⟩

theorem test_hyp_TranslationWalks :
    (∃ (s : State) (i : Fin 4096) (ofs : Nat) (r e : Fin 16),
      tlbFind s i (ofs / 2 ^ (s.surfAt i).pageLog) = none ∧ s.surf.walks.length < 8 ∧ ((r : Nat) < 9 ∨ 12 < (r : Nat) ∨ (r : Nat) = engineRunner e)) ∧
    (∃ (s : State) (i : Fin 4096) (ofs : Nat) (r e : Fin 16),
      tlbFind s i (ofs / 2 ^ (s.surfAt i).pageLog) = none ∧ s.surf.walks.length < 8 ∧ 9 ≤ (r : Nat) ∧ (r : Nat) ≤ 12 ∧ (r : Nat) ≠ engineRunner e) ∧
    (∃ (s u : State) (k : Nat) (w : Walk) (poison : Bool), ∃ z phys,
      s.surf.walks[k]? = some w ∧ u = s.modSurf (fun m => { m with walks := m.walks.eraseIdx k }) ∧ w.gone = false ∧ walkTables u w.surf w.offset
        false poison = (z, some phys)) ∧
    (∃ (s u : State) (k : Nat) (w : Walk) (poison : Bool), ∃ kind,
      s.surf.walks[k]? = some w ∧ u = s.modSurf (fun m => { m with walks := m.walks.eraseIdx k }) ∧ ((w.gone = true ∧ kind = 3) ∨ (w.gone = false ∧
        walkTables u w.surf w.offset false poison = (kind, none))) ∧ 9 ≤ w.runner ∧ w.runner ≤ 12) ∧
    (∃ (s u : State) (k : Nat) (w : Walk) (poison : Bool), ∃ kind,
      s.surf.walks[k]? = some w ∧ u = s.modSurf (fun m => { m with walks := m.walks.eraseIdx k }) ∧ ((w.gone = true ∧ kind = 3) ∨ (w.gone = false ∧
        walkTables u w.surf w.offset false poison = (kind, none))) ∧ w.runner = 8) ∧
    (∃ (s u : State) (k : Nat) (w : Walk) (poison : Bool), ∃ kind,
      s.surf.walks[k]? = some w ∧ u = s.modSurf (fun m => { m with walks := m.walks.eraseIdx k }) ∧ ((w.gone = true ∧ kind = 3) ∨ (w.gone = false ∧
        walkTables u w.surf w.offset false poison = (kind, none))) ∧ (w.runner < 8 ∨ 12 < w.runner)) ∧
    (∃ (s : State) (i ofs : Nat),
      (s.surfAt i).st = 2 ∧ (s.surfAt i).bytes ≤ ofs) ∧
    (∃ (s : State) (i : Nat),
      (s.surfAt i).st = 3) :=
  ⟨⟨up, 0, 0, 9, 3, by decide⟩,
   ⟨up, 0, 0, 9, 15, by decide⟩,
   ⟨walkSt, _, 0, walk 9, false, 0, 8192, ⟨rfl, rfl, rfl, by decide +kernel⟩⟩,
   ⟨inSurf { walks := [walk 9] }, _, 0, walk 9, false, 3, ⟨rfl, rfl, .inr ⟨rfl, by decide +kernel⟩, by decide, by decide⟩⟩,
   ⟨inSurf { walks := [walk 8] }, _, 0, walk 8, false, 3, ⟨rfl, rfl, .inr ⟨rfl, by decide +kernel⟩, rfl⟩⟩,
   ⟨inSurf { walks := [walk 13] }, _, 0, walk 13, false, 3, ⟨rfl, rfl, .inr ⟨rfl, by decide +kernel⟩, by decide⟩⟩,
   ⟨inSurf { surfs := [(0, { st := 2, size := 512, attr := 1 })] }, 0, 512 * 4096, by decide⟩,
   ⟨inSurf { surfs := [(0, { st := 3, size := 512, attr := 1 })] }, 0, by decide⟩⟩

theorem test_hyp_LoadsAreSent :
    (∃ (s : State) (o : Fin 4) (l : LoadRun) (rest : List LoadRun) (run : LoadRun) (words : List Nat),
      (s.portAt o).loads = l :: rest ∧ (s.portAt o).current = none ∧ (s.portAt o).link = 5 ∧ (s.portAt o).darkByLink = false ∧ words = loadWords
        (runBytes s o l) ∧ run = { l with seq := (s.portAt o).loadSeq, words := words.length, crc := crc32c (runBytes s o l) }) ∧
    (∃ (s : State) (o : Fin 4) (l : LoadRun) (words : List Nat),
      (s.portAt o).current = some l ∧ words = loadWords (runBytes s o l) ∧ l.words = words.length ∧ (s.portAt o).elastic = words.take elasticWords ∧
        (s.portAt o).unread = words.length - elasticWords) ∧
    (∃ (s : State) (o : Fin 4),
      (s.portAt o).current = none) ∧
    (∃ (s : State) (o : Fin 4) (l : LoadRun),
      ((s.portAt o).current = some l ∨ ((s.portAt o).current = none ∧ (s.portAt o).loads.head? = some l)) ∧ (s.seqAt o).holding = false ∧ (s.portAt
        o).darkByLink = false) :=
  ⟨⟨inPort { link := 5, loads := [oneLoad] }, 0, oneLoad, [], _, _, ⟨rfl, rfl, rfl, rfl, rfl, rfl⟩⟩,
   ⟨inPort { current := some oneLoad }, 0, oneLoad, _, ⟨rfl, rfl, by decide +kernel, by decide +kernel, by decide +kernel⟩⟩,
   ⟨up, 0, by decide⟩,
   ⟨inPort { current := some oneLoad }, 0, oneLoad, ⟨.inl rfl, rfl, rfl⟩⟩⟩

theorem test_hyp_LinkCommands :
    (∃ (s : State) (o : Fin 4) (c : PortCmd),
      (s.portAt o).cmd = some c ∧ c.tries < 3 ∧ (s.portAt o).current = none) ∧
    (∃ (s : State) (o : Fin 4) (c : PortCmd),
      (s.portAt o).cmd = some c ∧ c.tries < 3 ∧ (s.portAt o).current ≠ none) ∧
    (∃ (s : State) (o : Fin 4) (c : PortCmd),
      (s.portAt o).cmd = some c ∧ 3 ≤ c.tries) ∧
    (∃ (s : State) (o : Nat),
      (s.portAt o).cmd = none ∧ (s.portAt o).current = none) ∧
    (∃ (s : State) (o : Nat),
      (s.portAt o).cmd ≠ none ∨ (s.portAt o).current ≠ none) ∧
    (∃ (s : State) (path : PathId) (o : Fin 4),
      serves s path = true ∧ hasRole s path 9 = true ∧ (s.portAt o).link = 5) ∧
    (∃ (s : State) (path : PathId) (o : Fin 4),
      serves s path = true ∧ hasRole s path 9 = true ∧ (s.portAt o).link ≠ 5) ∧
    (∃ (s : State) (path : PathId) (o : Fin 4) (arg : Nat),
      serves s path = true ∧ hasRole s path 9 = true ∧ ((s.outAt o).mode ≠ 1 ∨ (s.outAt o).trans = true ∨ 2 < arg ∨ (arg = 2 ∧ isScan (s.rt o) o =
        true))) ∧
    (∃ (s : State) (path : PathId) (o : Fin 4) (arg : Nat),
      serves s path = true ∧ hasRole s path 9 = true ∧ (s.outAt o).mode = 1 ∧ (s.outAt o).trans = false ∧ isScan (s.rt o) o = true ∧ arg < 2) ∧
    (∃ (s : State) (path : PathId) (o : Fin 4) (arg : Nat),
      serves s path = true ∧ hasRole s path 9 = true ∧ (s.outAt o).mode = 1 ∧ (s.outAt o).trans = false ∧ isScan (s.rt o) o = false ∧ (s.portAt
        o).link = 5 ∧ arg = 0) ∧
    (∃ (s : State) (path : PathId) (o : Fin 4) (arg : Nat),
      serves s path = true ∧ hasRole s path 9 = true ∧ (s.outAt o).mode = 1 ∧ (s.outAt o).trans = false ∧ isScan (s.rt o) o = false ∧ (s.portAt
        o).link = 5 ∧ arg = 1) ∧
    (∃ (s : State) (path : PathId) (o : Fin 4) (arg : Nat),
      serves s path = true ∧ hasRole s path 9 = true ∧ (s.outAt o).mode = 1 ∧ (s.outAt o).trans = false ∧ isScan (s.rt o) o = false ∧ (s.portAt
        o).link = 5 ∧ arg = 2) ∧
    (∃ (s : State) (path : PathId) (o : Fin 4) (arg : Nat),
      serves s path = true ∧ hasRole s path 9 = true ∧ (s.outAt o).mode = 1 ∧ (s.outAt o).trans = false ∧ isScan (s.rt o) o = false ∧ (s.portAt
        o).link ≠ 5 ∧ arg ≤ 2) ∧
    (∃ (s : State) (path : PathId),
      serves s path = true ∧ hasRole s path 9 = false) :=
  ⟨⟨inPort { cmd := some { opcode := 1, arg := 0, seq := 1, tries := 2 } }, 0, { opcode := 1, arg := 0, seq := 1, tries := 2 }, ⟨rfl, by decide,
    rfl⟩⟩,
   ⟨inPort { cmd := some { opcode := 1, arg := 0, seq := 1, tries := 2 }, current := some oneLoad }, 0,
     { opcode := 1, arg := 0, seq := 1, tries := 2 }, ⟨rfl, by decide, by decide⟩⟩,
   ⟨inPort { cmd := some { opcode := 1, arg := 0, seq := 1, tries := 3 } }, 0, { opcode := 1, arg := 0, seq := 1, tries := 3 }, ⟨rfl, by decide⟩⟩,
   ⟨up, 0, by decide⟩,
   ⟨inPort { cmd := some { opcode := 1, arg := 0, seq := 1, tries := 0 } }, 0, by decide⟩,
   ⟨inPort { link := 5 }, .internal, 0, by decide⟩,
   ⟨up, .internal, 0, by decide⟩,
   ⟨up, .internal, 0, 3, by decide⟩,
   ⟨cfg [(aPortCfg 0, 0x80000000)], .internal, 0, 1, by decide⟩,
   ⟨inPort { link := 5 }, .internal, 0, 0, by decide⟩,
   ⟨inPort { link := 5 }, .internal, 0, 1, by decide⟩,
   ⟨inPort { link := 5 }, .internal, 0, 2, by decide⟩,
   ⟨up, .internal, 0, 2, by decide⟩,
   ⟨up, .spi, by decide⟩⟩

theorem test_hyp_MirrorLinks :
    (∃ (s : State) (o : Fin 4),
      isScan (s.rt o) o = true) ∧
    (∃ (s : State) (o : Fin 4) (l : List Byte),
      isScan (s.rt o) o = false ∧ bchCrcOk l = false) ∧
    (∃ (s : State) (o : Fin 4) (l : List Byte),
      isScan (s.rt o) o = false ∧ bchCrcOk l = true ∧ (l.headD 0).toNat = 1) ∧
    (∃ (s : State) (o : Fin 4) (l : List Byte),
      isScan (s.rt o) o = false ∧ bchCrcOk l = true ∧ (l.headD 0).toNat = 2) ∧
    (∃ (s : State) (o : Fin 4) (l : List Byte),
      isScan (s.rt o) o = false ∧ bchCrcOk l = true ∧ (l.headD 0).toNat = 3 ∧ (s.portAt o).link = 4 ∧ acceptsArray (s.rt o) o (parseIdent ((l.drop
        1).take 28)) = true) ∧
    (∃ (s : State) (o : Fin 4) (l : List Byte),
      isScan (s.rt o) o = false ∧ bchCrcOk l = true ∧ (l.headD 0).toNat = 3 ∧ (s.portAt o).link = 4 ∧ acceptsArray (s.rt o) o (parseIdent ((l.drop
        1).take 28)) = false ∧ (s.portAt o).mismatch = false) ∧
    (∃ (new : ArrayStatus),
      nbit new.flags 1 = false ∧ nbit new.flags 2 = false ∧ nbit new.flags 4 = false ∧ nbit new.flags 5 = false ∧ nbit new.flags 0 = false) ∧
    (∃ (new : ArrayStatus),
      nbit new.flags 1 = false ∧ nbit new.flags 2 = false ∧ nbit new.flags 4 = false ∧ nbit new.flags 5 = false ∧ nbit new.flags 0 = true) ∧
    (∃ (s : State) (o : Nat),
      (s.portAt o).link = 1 ∧ 2 ≤ (s.portAt o).validStatus) ∧
    (∃ (s : State) (o : Nat) (t : ArrayStatus),
      (s.portAt o).link = 2 ∧ t.laneLock &&& laneMask (s.rt o) o = laneMask (s.rt o) o) ∧
    (∃ (s : State) (o : Nat) (t : ArrayStatus),
      (s.portAt o).link = 3 ∧ nbit t.flags 3 = true) ∧
    (∃ (s : State) (o : Fin 4),
      1 ≤ (s.portAt o).link ∧ (s.portAt o).link ≤ 4 ∧ (s.portAt o).mismatch = false) ∧
    (∃ (s : State) (o : Fin 4),
      (s.portAt o).link = 0 ∧ isScan (s.rt o) o = false) ∧
    (∃ (s : State) (o : Fin 4),
      isScan (s.rt o) o = false ∧ (s.portAt o).link = 5) ∧
    (∃ (s : State) (o : Fin 4),
      ((isScan (s.rt o) o = false → (s.portAt o).link ≠ 5)) ∧ ((isScan (s.rt o) o = true → (s.scanAt o).jesd ≠ 2)) ∧ (s.outAt o).exit = .stopping ∧
        isScan (s.rt o) o = false) ∧
    (∃ (s : State) (o : Fin 4),
      ((isScan (s.rt o) o = false → (s.portAt o).link ≠ 5)) ∧ ((isScan (s.rt o) o = true → (s.scanAt o).jesd ≠ 2)) ∧ (s.outAt o).exit ≠ .stopping ∧
        isLit s o = true) ∧
    (∃ (s : State) (o : Fin 4),
      ((isScan (s.rt o) o = false → (s.portAt o).link ≠ 5)) ∧ ((isScan (s.rt o) o = true → (s.scanAt o).jesd ≠ 2)) ∧ (s.outAt o).exit ≠ .stopping ∧
        isLit s o = false) ∧
    (∃ (s : State) (o : Fin 4),
      ((isScan (s.rt o) o = false → (s.portAt o).link = 5)) ∧ ((isScan (s.rt o) o = true → (s.scanAt o).jesd = 2))) :=
  ⟨⟨cfg [(aPortCfg 0, 0x80000000)], 0, by decide⟩,
   ⟨up, 0, [], by decide⟩,
   ⟨up, 0, (bch 1), by decide +kernel⟩,
   ⟨up, 0, (bch 2), by decide +kernel⟩,
   ⟨inPort { link := 4 }, 0, (bchIdent), by decide +kernel⟩,
   ⟨inPort { link := 4 }, 0, (bch 3), by decide +kernel⟩,
   ⟨{}, by decide⟩,
   ⟨{ flags := 1 }, by decide⟩,
   ⟨inPort { link := 1, validStatus := 2 }, 0, by decide⟩,
   ⟨inPort { link := 2 }, 0, { laneLock := 2 ^ 32 - 1 }, by decide⟩,
   ⟨inPort { link := 3 }, 0, { flags := 8 }, by decide⟩,
   ⟨inPort { link := 4 }, 0, by decide⟩,
   ⟨up, 0, by decide⟩,
   ⟨inPort { link := 5 }, 0, by decide⟩,
   ⟨inOut { exit := .stopping }, 0, by decide⟩,
   ⟨inOut { mode := 4 }, 0, by decide⟩,
   ⟨up, 0, by decide⟩,
   ⟨inPort { link := 5 }, 0, by decide⟩⟩

theorem test_hyp_ScanLinks :
    (∃ (s : State) (o : Fin 4),
      isScan (s.rt o) o = true ∧ isJesdB (s.rt o) o = true ∧ (s.scanAt o).jesd ≠ 2) ∧
    (∃ (s : State) (o : Fin 4),
      isScan (s.rt o) o = true ∧ (s.scanAt o).jesd ≠ 2 ∧ (isJesdB (s.rt o) o = false ∨ (s.scanAt o).sends = .ilas)) ∧
    (∃ (s : State) (o : Fin 4),
      isJesdB (s.rt o) o = true ∧ (s.scanAt o).sends ≠ .ilas) ∧
    (∃ (s : State) (o : Fin 4),
      (s.scanAt o).jesd = 2) ∧
    (∃ (s u : State) (o : Fin 4) (filled : Nat), ∃ w rest,
      (s.scanAt o).jesd = 2 ∧ sampleRate (s.rt o) o ≠ 0 ∧ u = fillAhead o filled s ∧ (u.scanAt o).ahead = w :: rest) ∧
    (∃ (s u : State) (o : Fin 4) (filled : Nat),
      (s.scanAt o).jesd = 2 ∧ sampleRate (s.rt o) o ≠ 0 ∧ u = fillAhead o filled s ∧ (u.scanAt o).ahead = []) ∧
    (∃ (s : State) (o : Nat),
      (s.outAt o).mode ≠ 5) ∧
    (∃ (s : State) (o : Fin 4),
      (s.scanAt o).jesd ≠ 2) ∧
    (∃ (s : State) (o c : Nat),
      nth (s.scanAt o).nSamp c 0 = 0 ∨ nth (s.scanAt o).sumE c 0 < 256 * nth (s.scanAt o).nSamp c 0 ∨ chanAmp s o c = 0 ∨ s.tb.tick < (chanOf s.drive
        o c).heldUntil ∨ annealTakes s o = true) :=
  ⟨⟨cfg [(aPortCfg 0, 0x80000000)], 0, by decide⟩,
   ⟨cfg [(aPortCfg 0, 0x88000000)], 0, by decide⟩,
   ⟨inScan (cfg [(aPortCfg 0, 0x80000000)]) {}, 0, by decide⟩,
   ⟨inScan up { jesd := 2 }, 0, by decide⟩,
   ⟨inScan (cfg [(aPortCfg 0, 0x80000000)]) { jesd := 2, ahead := [{ t := 0, asked := [], codes := [] }] }, _, 0, 0, _, _, ⟨rfl, by decide, rfl,
     rfl⟩⟩,
   ⟨inScan (cfg [(aPortCfg 0, 0x80000000)]) { jesd := 2 }, _, 0, 0, ⟨rfl, by decide, rfl, rfl⟩⟩,
   ⟨up, 0, by decide⟩,
   ⟨up, 0, by decide⟩,
   ⟨up, 0, 0, by decide⟩⟩

theorem test_hyp_BeamMotion :
    (∃ (s : State) (o : Fin 4),
      (s.scanAt o).fast = 1) ∧
    (∃ (s : State) (o : Fin 4),
      (s.scanAt o).fast = 1 ∨ (s.scanAt o).fast = 2) ∧
    (∃ (s : State) (o : Fin 4),
      (s.scanAt o).driveOn = true ∧ (s.scanAt o).first = true) ∧
    (∃ (s : State) (o : Fin 4) (t peak : Nat) (e t0 p : Int) (low phase : Nat),
      (s.scanAt o).driveOn = true ∧ (s.scanAt o).first = false ∧ trackStep (s.scanAt o).t0 (s.scanAt o).pHat ((t : Int) * 256 / 25) = (e, t0, p) ∧
        low = (if peak * 256 < (s.rt o).fld (aScanBw o) 7 0 * faxAmp (s.rt o) o then (s.scanAt o).lowPeaks + 1 else 0) ∧ phase = (if 4 * (s.rt o).fld
        (aScanBw o) 15 8 * 256 < e.natAbs then (s.scanAt o).phaseErrs + 1 else 0) ∧ (s.scanAt o).fast ≠ 3 ∧ e.natAbs ≤ 20 * 256 ∧ 255 ≤ (s.scanAt
        o).smallErr) ∧
    (∃ (s : State) (o : Fin 4) (t peak : Nat) (e t0 p : Int) (low phase : Nat),
      (s.scanAt o).driveOn = true ∧ (s.scanAt o).first = false ∧ trackStep (s.scanAt o).t0 (s.scanAt o).pHat ((t : Int) * 256 / 25) = (e, t0, p) ∧
        low = (if peak * 256 < (s.rt o).fld (aScanBw o) 7 0 * faxAmp (s.rt o) o then (s.scanAt o).lowPeaks + 1 else 0) ∧ phase = (if 4 * (s.rt o).fld
        (aScanBw o) 15 8 * 256 < e.natAbs then (s.scanAt o).phaseErrs + 1 else 0) ∧ (s.scanAt o).fast ≠ 3 ∧ 20 * 256 < e.natAbs) ∧
    (∃ (s : State) (o : Fin 4) (t peak : Nat) (e t0 p : Int) (low phase : Nat),
      (s.scanAt o).driveOn = true ∧ (s.scanAt o).first = false ∧ trackStep (s.scanAt o).t0 (s.scanAt o).pHat ((t : Int) * 256 / 25) = (e, t0, p) ∧
        low = (if peak * 256 < (s.rt o).fld (aScanBw o) 7 0 * faxAmp (s.rt o) o then (s.scanAt o).lowPeaks + 1 else 0) ∧ phase = (if 4 * (s.rt o).fld
        (aScanBw o) 15 8 * 256 < e.natAbs then (s.scanAt o).phaseErrs + 1 else 0) ∧ (s.scanAt o).fast = 3 ∧ e.natAbs ≤ 200 * 256 ∧ periodInRange
        (s.rt o) o p = true) ∧
    (∃ (s : State) (o : Fin 4) (t peak : Nat) (e t0 p : Int) (low phase : Nat),
      (s.scanAt o).driveOn = true ∧ (s.scanAt o).first = false ∧ trackStep (s.scanAt o).t0 (s.scanAt o).pHat ((t : Int) * 256 / 25) = (e, t0, p) ∧
        low = (if peak * 256 < (s.rt o).fld (aScanBw o) 7 0 * faxAmp (s.rt o) o then (s.scanAt o).lowPeaks + 1 else 0) ∧ phase = (if 4 * (s.rt o).fld
        (aScanBw o) 15 8 * 256 < e.natAbs then (s.scanAt o).phaseErrs + 1 else 0) ∧ (s.scanAt o).fast = 3 ∧ ((200 * 256 < e.natAbs ∧ 3 ≤ (s.scanAt
        o).bigErr) ∨ periodInRange (s.rt o) o p = false)) ∧
    (∃ (s : State) (o : Fin 4),
      crossingLost s o = false) ∧
    (∃ (s : State) (o : Fin 4),
      crossingLost s o = true ∧ (s.scanAt o).fast = 3) ∧
    (∃ (s : State) (o : Fin 4),
      crossingLost s o = true ∧ (s.scanAt o).fast ≠ 3) ∧
    (∃ (s : State) (o : Fin 4) (mean prev f : Nat),
      (s.scanAt o).slowFire = some f ∧ f ≤ 25 * s.tb.tick ∧ 25 * s.tb.tick < f + 25 * scanTact (s.rt o) o ∧ (s.scanAt o).slowMean = some prev ∧ mean
        < prev + (s.rt o).fld (aScanBw o) 27 16) ∧
    (∃ (s : State) (o : Fin 4) (mean prev f : Nat),
      (s.scanAt o).slowFire = some f ∧ f ≤ 25 * s.tb.tick ∧ 25 * s.tb.tick < f + 25 * scanTact (s.rt o) o ∧ (s.scanAt o).slowMean = some prev ∧ prev
        + (s.rt o).fld (aScanBw o) 27 16 ≤ mean) ∧
    (∃ (s : State) (o : Fin 4),
      (∀ f, (s.scanAt o).slowFire = some f → 25 * s.tb.tick < f ∨ f + 25 * scanTact (s.rt o) o ≤ 25 * s.tb.tick)) ∧
    (∃ (s : State) (o : Nat),
      watched s o = false) ∧
    (∃ (s : State) (o w : Nat),
      watched s o = true ∧ nbit (nth s.guard.beam o 0) w = false) ∧
    (∃ (s : State) (o w : Nat),
      watched s o = true ∧ nbit (nth s.guard.beam o 0) w = true) ∧
    (∃ (s : State) (o : Nat),
      watched s o = true ∧ o < s.guard.beam.length) :=
  ⟨⟨inScan up { fast := 1 }, 0, by decide⟩,
   ⟨inScan up { fast := 2 }, 0, by decide⟩,
   ⟨inScan up { driveOn := true }, 0, by decide⟩,
   ⟨axis 2 255 0, 0, 500000, 0, 0, 5120000, 5120000, 0, 0, by decide +kernel⟩,
   ⟨axis 2 0 0, 0, 1000000, 0, 5120000, 5760000, 5200000, 0, 1, by decide +kernel⟩,
   ⟨axis 3 0 0, 0, 500000, 0, 0, 5120000, 5120000, 0, 0, by decide +kernel⟩,
   ⟨axis 3 0 3, 0, 1000000, 0, 5120000, 5760000, 5200000, 0, 1, by decide +kernel⟩,
   ⟨inScan up { lastCross := 25 * 2 ^ 56, pHat := 5120000 }, 0, by decide +kernel⟩,
   ⟨inScan up { fast := 3 }, 0, by decide +kernel⟩,
   ⟨up, 0, by decide +kernel⟩,
   ⟨slow, 0, 5, 5, 25 * 2 ^ 56, by decide⟩,
   ⟨slow, 0, 6, 5, 25 * 2 ^ 56, by decide⟩,
   ⟨up, 0, fun _ h => by cases h⟩,
   ⟨up, 0, by decide⟩,
   ⟨inOut { mode := 3 }, 0, 4, by decide⟩,
   ⟨{ inOut { mode := 3 } with guard := { beam := [16, 0, 0, 0] } }, 0, 4, by decide⟩,
   ⟨inOut { mode := 3 }, 3, by decide⟩⟩

theorem test_hyp_PhotodiodesFeedTheLoop :
    (∃ (s : State) (k : Fin 8),
      isScan (s.rt ((s.rt 4).fld (aPdMap k) 25 24)) ((s.rt 4).fld (aPdMap k) 25 24) = true) ∧
    (∃ (s : State) (k : Fin 8),
      isScan (s.rt ((s.rt 4).fld (aPdMap k) 25 24)) ((s.rt 4).fld (aPdMap k) 25 24) = false) ∧
    (∃ (s : State) (o c : Nat),
      loopHeld s o c = true) ∧
    (∃ (s : State) (k : Fin 8) (senses : List Nat) (x : PdState),
      x = nth s.drive.pds k {} ∧ x.faulted = false ∧ (s.rt 4).bit (aPdMap k) 31 = true ∧ ((∃ t, x.satSince = some t ∧ t + 4000 ≤ s.tb.tick) ∨ ((∃ t,
        x.dimSince = some t ∧ t + 4000 ≤ s.tb.tick) ∧ currentsFlow s ((s.rt 4).fld (aPdMap k) 25 24) k senses = true))) ∧
    (∃ (s : State) (k : Fin 8) (x : PdState),
      x = nth s.drive.pds k {} ∧ x.faulted = false ∧ (s.rt 4).bit (aPdMap k) 31 = true ∧ ((∀ t, x.satSince = some t → s.tb.tick < t + 4000)) ∧ ((∀ t,
        x.dimSince = some t → s.tb.tick < t + 4000))) ∧
    (∃ (s : State) (path : PathId),
      serves s path = true ∧ hasRole s path 1 = true) :=
  ⟨⟨cfg [(aPortCfg 0, 0x80000000)], 0, by decide⟩,
   ⟨up, 7, by decide⟩,
   ⟨up, 0, 0, by decide⟩,
   ⟨{ cfg [(aPdMap 7, 0x80000000)] with drive := { pds := List.replicate 8 { satSince := some 0 } } }, 7, [], _, ⟨rfl, rfl, by decide, .inl ⟨0, rfl,
     by decide⟩⟩⟩,
   ⟨cfg [(aPdMap 7, 0x80000000)], 7, _, ⟨rfl, rfl, by decide, fun _ h => (by cases h), fun _ h => by cases h⟩⟩,
   ⟨up, .internal, by decide⟩⟩

theorem test_hyp_StringsRunAndFail :
    (∃ (m : WordMap) (nn : Nat) (x : StringState) (t u : Nat),
      swA m nn x t = true ∧ swB m nn x u = true) ∧
    (∃ (s : State) (nn : Nat),
      ((List.range 24).find? fun nn => (s.strAt nn).st == 1) = some nn ∧ s.therm.droop = false ∧ admitReady s nn = true) ∧
    (∃ (s : State) (nn : Nat),
      ((List.range 24).find? fun nn => (s.strAt nn).st == 1) = some nn ∧ s.therm.droop = false ∧ admitReady s nn = false) ∧
    (∃ (s : State) (nn : Nat),
      ((List.range 24).find? fun nn => (s.strAt nn).st == 1) = some nn ∧ s.therm.droop = true ∧ s.drive.paused = false) ∧
    (∃ (s : State) (nn : Nat),
      ((List.range 24).find? fun nn => (s.strAt nn).st == 1) = some nn ∧ s.therm.droop = true ∧ s.drive.paused = true) ∧
    (∃ (s : State) (nn : Nat), ∃ t,
      admitReady s nn = true ∧ s.drive.lastAdmit = some t) ∧
    (∃ (s : State) (nn : Fin 24),
      (s.strAt nn).st = 2) ∧
    (∃ (s : State) (nn : Fin 24),
      (s.strAt nn).st ≠ 2) ∧
    (∃ (s : State) (nn : Fin 24) (isns vhr vk : List Nat) (m : WordMap) (x : StringState) (iAvg vkMean vStr r : Nat),
      m = strCfg s nn ∧ x = s.strAt nn ∧ liveString m s.drive nn = true ∧ diagMin (s.rt 4) ≤ x.cmd ∧ x.clamped = false ∧ x.cmd ≠ 0 ∧ x.cmdAt + 800 ≤
        s.tb.tick ∧ ((x.holdCur = none ∨ x.probe.isSome)) ∧ iAvg = meanOf (lateSamples 5 isns) ∧ vkMean = meanOf (lateSamples 80 vk) ∧ vStr = (meanOf
        (lateSamples 80 vhr) * m.fld (aStrSw nn) 31 24 - vkMean) / 10 ∧ r = windowOutcome x (m.fld (aStrSw nn) 23 16) iAvg vStr vkMean (nth x.learned
        (match x.probe with | some cur => ampBin cur | none => ampBin (chanAmp s (strOut m nn) (strChan m nn))) []) ∧ r ≠ 8) ∧
    (∃ (s : State) (nn : Fin 24) (isns vhr vk : List Nat) (m : WordMap) (x : StringState) (iAvg vkMean vStr r : Nat),
      m = strCfg s nn ∧ x = s.strAt nn ∧ liveString m s.drive nn = true ∧ diagMin (s.rt 4) ≤ x.cmd ∧ x.clamped = false ∧ x.cmd ≠ 0 ∧ x.cmdAt + 800 ≤
        s.tb.tick ∧ ((x.holdCur = none ∨ x.probe.isSome)) ∧ iAvg = meanOf (lateSamples 5 isns) ∧ vkMean = meanOf (lateSamples 80 vk) ∧ vStr = (meanOf
        (lateSamples 80 vhr) * m.fld (aStrSw nn) 31 24 - vkMean) / 10 ∧ r = windowOutcome x (m.fld (aStrSw nn) 23 16) iAvg vStr vkMean (nth x.learned
        (match x.probe with | some cur => ampBin cur | none => ampBin (chanAmp s (strOut m nn) (strChan m nn))) []) ∧ r = 1) ∧
    (∃ (s : State) (nn : Fin 24) (isns vhr vk : List Nat) (m : WordMap) (x : StringState) (iAvg vkMean vStr r : Nat),
      m = strCfg s nn ∧ x = s.strAt nn ∧ liveString m s.drive nn = true ∧ diagMin (s.rt 4) ≤ x.cmd ∧ x.clamped = false ∧ x.cmd ≠ 0 ∧ x.cmdAt + 800 ≤
        s.tb.tick ∧ ((x.holdCur = none ∨ x.probe.isSome)) ∧ iAvg = meanOf (lateSamples 5 isns) ∧ vkMean = meanOf (lateSamples 80 vk) ∧ vStr = (meanOf
        (lateSamples 80 vhr) * m.fld (aStrSw nn) 31 24 - vkMean) / 10 ∧ r = windowOutcome x (m.fld (aStrSw nn) 23 16) iAvg vStr vkMean (nth x.learned
        (match x.probe with | some cur => ampBin cur | none => ampBin (chanAmp s (strOut m nn) (strChan m nn))) []) ∧ r = 2) ∧
    (∃ (s : State) (nn : Fin 24) (isns vhr vk : List Nat) (m : WordMap) (x : StringState) (iAvg vkMean vStr r : Nat),
      m = strCfg s nn ∧ x = s.strAt nn ∧ liveString m s.drive nn = true ∧ diagMin (s.rt 4) ≤ x.cmd ∧ x.clamped = false ∧ x.cmd ≠ 0 ∧ x.cmdAt + 800 ≤
        s.tb.tick ∧ ((x.holdCur = none ∨ x.probe.isSome)) ∧ iAvg = meanOf (lateSamples 5 isns) ∧ vkMean = meanOf (lateSamples 80 vk) ∧ vStr = (meanOf
        (lateSamples 80 vhr) * m.fld (aStrSw nn) 31 24 - vkMean) / 10 ∧ r = windowOutcome x (m.fld (aStrSw nn) 23 16) iAvg vStr vkMean (nth x.learned
        (match x.probe with | some cur => ampBin cur | none => ampBin (chanAmp s (strOut m nn) (strChan m nn))) []) ∧ r = 8) ∧
    (∃ (s : State) (nn : Fin 24) (isns vhr vk : List Nat) (m : WordMap) (x : StringState) (iAvg vkMean vStr r : Nat),
      m = strCfg s nn ∧ x = s.strAt nn ∧ liveString m s.drive nn = true ∧ diagMin (s.rt 4) ≤ x.cmd ∧ x.clamped = false ∧ x.cmd ≠ 0 ∧ x.cmdAt + 800 ≤
        s.tb.tick ∧ ((x.holdCur = none ∨ x.probe.isSome)) ∧ iAvg = meanOf (lateSamples 5 isns) ∧ vkMean = meanOf (lateSamples 80 vk) ∧ vStr = (meanOf
        (lateSamples 80 vhr) * m.fld (aStrSw nn) 31 24 - vkMean) / 10 ∧ r = windowOutcome x (m.fld (aStrSw nn) 23 16) iAvg vStr vkMean (nth x.learned
        (match x.probe with | some cur => ampBin cur | none => ampBin (chanAmp s (strOut m nn) (strChan m nn))) []) ∧ r = 0) ∧
    (∃ (s : State) (nn : Fin 24) (x : Nat),
      liveString (strCfg s nn) s.drive nn = true ∧ senseOf (s.strAt nn).cmd + 3276 / 10 < x) ∧
    (∃ (s : State) (nn : Fin 24) (x : Nat),
      liveString (strCfg s nn) s.drive nn = false ∨ x ≤ senseOf (s.strAt nn).cmd + 3276 / 10) ∧
    (∃ (s : State) (path : PathId) (nn : Fin 24),
      serves s path = true ∧ hasRole s path 1 = true ∧ (s.strAt nn).failed = true ∧ (s.strAt nn).cause ∈ [1, 2, 3, 7]) ∧
    (∃ (s : State) (path : PathId) (nn : Fin 24),
      serves s path = true ∧ hasRole s path 1 = true ∧ (s.strAt nn).failed = true ∧ (s.strAt nn).cause ∉ [1, 2, 3, 7]) ∧
    (∃ (s : State) (nn : Fin 24) (vk : Nat),
      (s.strAt nn).cmd ≠ 0 ∧ 2 * vk < headroomTarget (strCfg s nn) nn) ∧
    (∃ (s : State) (nn : Fin 24) (vk : Nat),
      (s.strAt nn).cmd = 0 ∨ headroomTarget (strCfg s nn) nn ≤ 2 * vk) ∧
    (∃ (s : State) (nn : Nat),
      nn < s.drive.strings.length ∧ (s.strAt nn).failed = false) :=
  ⟨⟨[(0xC0108, 100)], 0, { stageOn := true, duty := 100 }, 0, 200, by decide +kernel⟩,
   ⟨inStr up { st := 1 }, 0, by decide⟩,
   ⟨{ up with drive := { strings := List.replicate 24 { st := 1 } }, therm := { pend := 1 } }, 0, by decide⟩,
   ⟨{ up with drive := { strings := List.replicate 24 { st := 1 }, paused := false }, therm := { droop := true } }, 0, by decide⟩,
   ⟨{ up with drive := { strings := List.replicate 24 { st := 1 }, paused := true }, therm := { droop := true } }, 0, by decide⟩,
   ⟨{ up with drive := { lastAdmit := some 0 } }, 0, 0, by decide⟩,
   ⟨inStr up { st := 2 }, 23, by decide⟩,
   ⟨up, 0, by decide⟩,
   ⟨inStr (cfg [(0xC0100, 0x80000000), (0xC0104, 0x10000)]) { st := 3, cmd := 65535, volts := 41 }, 0, List.replicate 25 65535, [], List.replicate 3
     255, _, _, _, _, _, _, ⟨rfl, rfl, by decide, by decide, by decide, by decide, by decide, by decide, rfl, rfl, rfl, rfl, by decide +kernel⟩⟩,
   ⟨inStr (cfg [(0xC0100, 0x80000000), (0xC0104, 0x10000)]) { st := 3, cmd := 65535, volts := 1 }, 0, [], [], [], _, _, _, _, _, _, ⟨rfl, rfl, by
     decide, by decide, by decide, by decide, by decide, by decide, rfl, rfl, rfl, rfl, by decide +kernel⟩⟩,
   ⟨inStr (cfg [(0xC0100, 0x80000000), (0xC0104, 0x10000)]) { st := 3, cmd := 65535, volts := 41 }, 0, List.replicate 25 65535, [], List.replicate 3
     255, _, _, _, _, _, _, ⟨rfl, rfl, by decide, by decide, by decide, by decide, by decide, by decide, rfl, rfl, rfl, rfl, by decide +kernel⟩⟩,
   ⟨inStr (cfg [(0xC0100, 0x80000000), (0xC0104, 0x10000)]) { st := 3, cmd := 65535, volts := 0, lamps := 1, learned := List.replicate 8 [100] }, 0,
     List.replicate 25 65535, [], List.replicate 3 255, _, _, _, _, _, _, ⟨rfl, rfl, by decide, by decide, by decide, by decide, by decide, by
     decide, rfl, rfl, rfl, rfl, by decide +kernel⟩⟩,
   ⟨inStr (cfg [(0xC0100, 0x80000000), (0xC0104, 0x10000)]) { st := 3, cmd := 65535, volts := 0 }, 0, List.replicate 25 65535, [], List.replicate 3
     255, _, _, _, _, _, _, ⟨rfl, rfl, by decide, by decide, by decide, by decide, by decide, by decide, rfl, rfl, rfl, rfl, by decide +kernel⟩⟩,
   ⟨inStr (cfg [(0xC0100, 0x80000000), (0xC0104, 0x10000)]) { st := 3, cmd := 65535 }, 0, 4000, by decide +kernel⟩,
   ⟨up, 0, 0, by decide +kernel⟩,
   ⟨inStr up { failed := true, cause := 7 }, .internal, 23, by decide⟩,
   ⟨inStr up { failed := true, cause := 4 }, .internal, 23, by decide⟩,
   ⟨inStr (cfg [(0xC0108, 0xFF0000)]) { cmd := 1 }, 0, 0, by decide⟩,
   ⟨up, 0, 0, by decide⟩,
   ⟨up, 23, by decide⟩⟩

theorem test_hyp_ExternalTemperatures :
    (∃ (s : State) (x : Fin 12),
      (s.rt 4).bit (aExtCfg x) 31 = false) ∧
    (∃ (s : State) (x : Fin 12) (code st W H : Nat) (bad : Fin 4) (v : Rat) (e : ExtState),
      (s.rt 4).bit (aExtCfg x) 31 = true ∧ extTemp (s.rt 4) x code bad = (st, v) ∧ e = nth s.therm.exts x {} ∧ W = extWarn (s.rt 4) x ∧ H = extHalt
        (s.rt 4) x ∧ st = 1) ∧
    (∃ (s : State) (x : Fin 12) (code st W H : Nat) (bad : Fin 4) (v : Rat) (e : ExtState),
      (s.rt 4).bit (aExtCfg x) 31 = true ∧ extTemp (s.rt 4) x code bad = (st, v) ∧ e = nth s.therm.exts x {} ∧ W = extWarn (s.rt 4) x ∧ H = extHalt
        (s.rt 4) x ∧ st ≠ 1) ∧
    (∃ (s : State) (x : Fin 12) (code st W H : Nat) (bad : Fin 4) (v : Rat) (e : ExtState),
      (s.rt 4).bit (aExtCfg x) 31 = true ∧ extTemp (s.rt 4) x code bad = (st, v) ∧ e = nth s.therm.exts x {} ∧ W = extWarn (s.rt 4) x ∧ H = extHalt
        (s.rt 4) x ∧ W = 255) ∧
    (∃ (s : State) (x : Fin 12) (code st W H : Nat) (bad : Fin 4) (v : Rat) (e : ExtState),
      (s.rt 4).bit (aExtCfg x) 31 = true ∧ extTemp (s.rt 4) x code bad = (st, v) ∧ e = nth s.therm.exts x {} ∧ W = extWarn (s.rt 4) x ∧ H = extHalt
        (s.rt 4) x ∧ W ≠ 255) ∧
    (∃ (s : State) (x : Fin 12) (code st W H : Nat) (bad : Fin 4) (v : Rat) (e : ExtState),
      (s.rt 4).bit (aExtCfg x) 31 = true ∧ extTemp (s.rt 4) x code bad = (st, v) ∧ e = nth s.therm.exts x {} ∧ W = extWarn (s.rt 4) x ∧ H = extHalt
        (s.rt 4) x ∧ (H = 255 ∨ (st ≠ 1 ∧ W = 255))) ∧
    (∃ (s : State) (x : Fin 12) (code st W H : Nat) (bad : Fin 4) (v : Rat) (e : ExtState),
      (s.rt 4).bit (aExtCfg x) 31 = true ∧ extTemp (s.rt 4) x code bad = (st, v) ∧ e = nth s.therm.exts x {} ∧ W = extWarn (s.rt 4) x ∧ H = extHalt
        (s.rt 4) x ∧ H ≠ 255 ∧ (st = 1 ∨ W ≠ 255)) ∧
    (∃ (s : State) (b : Fin 6),
      (s.rt 4).bit (aLbCfg b) 31 = false) ∧
    (∃ (s : State) (b : Fin 6) (e : ExtState) (d : Nat) (t : Threshold) (change : Bool),
      (s.rt 4).bit (aLbCfg b) 31 = true ∧ nth s.therm.exts (boardInput (s.rt 4) b) {} = e ∧ d = (if e.st = 1 then derateOf (s.rt 4) b e.mean else
        (s.rt 4).fld (aLbDerate b) 15 8 * 128) ∧ (nth s.drive.boards b {}).trip.judge s.tb.tick (decide (8 * ((s.rt 4).fld (aLbDerate b) 7 0 : Int) ≤
        e.mean)) (decide (e.mean < 8 * ((s.rt 4).fld (aLbDerate b) 7 0 : Int) - 32)) = (t, change) ∧ change = false) ∧
    (∃ (s : State) (b : Fin 6) (e : ExtState) (d : Nat) (t : Threshold) (change : Bool),
      (s.rt 4).bit (aLbCfg b) 31 = true ∧ nth s.therm.exts (boardInput (s.rt 4) b) {} = e ∧ d = (if e.st = 1 then derateOf (s.rt 4) b e.mean else
        (s.rt 4).fld (aLbDerate b) 15 8 * 128) ∧ (nth s.drive.boards b {}).trip.judge s.tb.tick (decide (8 * ((s.rt 4).fld (aLbDerate b) 7 0 : Int) ≤
        e.mean)) (decide (e.mean < 8 * ((s.rt 4).fld (aLbDerate b) 7 0 : Int) - 32)) = (t, change) ∧ change = true ∧ t.entered = true) ∧
    (∃ (s : State) (b : Fin 6) (e : ExtState) (d : Nat) (t : Threshold) (change : Bool),
      (s.rt 4).bit (aLbCfg b) 31 = true ∧ nth s.therm.exts (boardInput (s.rt 4) b) {} = e ∧ d = (if e.st = 1 then derateOf (s.rt 4) b e.mean else
        (s.rt 4).fld (aLbDerate b) 15 8 * 128) ∧ (nth s.drive.boards b {}).trip.judge s.tb.tick (decide (8 * ((s.rt 4).fld (aLbDerate b) 7 0 : Int) ≤
        e.mean)) (decide (e.mean < 8 * ((s.rt 4).fld (aLbDerate b) 7 0 : Int) - 32)) = (t, change) ∧ change = true ∧ t.entered = false) :=
  ⟨⟨up, 0, by decide⟩,
   ⟨cfg [(0xD0200, 0x80004000), (0xD0204, 0xFFFF)], 0, 64 * 274, 1, 0xFFFF % 256, 0xFFFF / 256, 0, 64 * 274 / 64 - 27315 / 100, _, ⟨by decide, by
     decide +kernel, rfl, by decide, by decide, rfl⟩⟩,
   ⟨cfg [(0xD0200, 0x80004000), (0xD0204, 0xFFFF)], 0, 0, 2, 0xFFFF % 256, 0xFFFF / 256, 2, 0, _, ⟨by decide, by decide +kernel, rfl, by decide, by
     decide, by decide⟩⟩,
   ⟨cfg [(0xD0200, 0x80004000), (0xD0204, 0xFFFF)], 0, 0, 2, 0xFFFF % 256, 0xFFFF / 256, 2, 0, _, ⟨by decide, by decide +kernel, rfl, by decide, by
     decide, by decide⟩⟩,
   ⟨cfg [(0xD0200, 0x80004000), (0xD0204, 0)], 0, 0, 2, 0 % 256, 0 / 256, 2, 0, _, ⟨by decide, by decide +kernel, rfl, by decide, by decide, by
     decide⟩⟩,
   ⟨cfg [(0xD0200, 0x80004000), (0xD0204, 0xFFFF)], 0, 0, 2, 0xFFFF % 256, 0xFFFF / 256, 2, 0, _, ⟨by decide, by decide +kernel, rfl, by decide, by
     decide, by decide⟩⟩,
   ⟨cfg [(0xD0200, 0x80004000), (0xD0204, 0x00FF)], 0, 64 * 274, 1, 0x00FF % 256, 0x00FF / 256, 0, 64 * 274 / 64 - 27315 / 100, _, ⟨by decide, by
     decide +kernel, rfl, by decide, by decide, by decide, by decide⟩⟩,
   ⟨up, 5, by decide⟩,
   ⟨board {} 0, 0, { st := 1 }, 0x8000, {}, false, by decide +kernel⟩,
   ⟨board { since := some 5 } 400, 0, { st := 1, mean := 400 }, 0x8000, { entered := true }, true, by decide +kernel⟩,
   ⟨board { entered := true, since := some 5 } 0, 0, { st := 1 }, 0x8000, {}, true, by decide +kernel⟩⟩

theorem test_hyp_CapturedFrames :
    (∃ (s : State) (i : Fin 8) (fmt : CapFormat),
      captures s i = false ∨ formatAccepted s.act i (signalFormat i fmt) = false) ∧
    (∃ (s : State) (i : Fin 8) (fmt g f : CapFormat) (tRef fine rtp a : Nat),
      captures s i = true ∧ g = signalFormat i fmt ∧ formatAccepted s.act i g = true ∧ a = refInstant s i tRef fine rtp ∧ f = appliedFormat s.act i
        (if (i : Nat) < 6 then g else { streamFormat s.act i with transfer := g.transfer }) ∧ (inMaxW s.act i < f.w ∨ inMaxH s.act i < f.h)) ∧
    (∃ (s : State) (i : Fin 8) (fmt g f : CapFormat) (tRef fine rtp a : Nat),
      captures s i = true ∧ g = signalFormat i fmt ∧ formatAccepted s.act i g = true ∧ a = refInstant s i tRef fine rtp ∧ f = appliedFormat s.act i
        (if (i : Nat) < 6 then g else { streamFormat s.act i with transfer := g.transfer }) ∧ f.w ≤ inMaxW s.act i ∧ f.h ≤ inMaxH s.act i ∧ 6 ≤ (i :
        Nat) ∧ streamAgrees (streamFormat s.act i) g = false) ∧
    (∃ (s : State) (i : Fin 8) (fmt g f : CapFormat) (tRef fine rtp a : Nat),
      captures s i = true ∧ g = signalFormat i fmt ∧ formatAccepted s.act i g = true ∧ a = refInstant s i tRef fine rtp ∧ f = appliedFormat s.act i
        (if (i : Nat) < 6 then g else { streamFormat s.act i with transfer := g.transfer }) ∧ f.w ≤ inMaxW s.act i ∧ f.h ≤ inMaxH s.act i ∧ ((i :
        Nat) < 6 ∨ streamAgrees (streamFormat s.act i) g = true) ∧ inSealed s.act i = false) ∧
    (∃ (s : State) (i : Fin 8) (fmt g f : CapFormat) (tRef fine rtp a : Nat) (metas : Option (Nat × Nat)),
      captures s i = true ∧ g = signalFormat i fmt ∧ formatAccepted s.act i g = true ∧ a = refInstant s i tRef fine rtp ∧ f = appliedFormat s.act i
        (if (i : Nat) < 6 then g else { streamFormat s.act i with transfer := g.transfer }) ∧ f.w ≤ inMaxW s.act i ∧ f.h ≤ inMaxH s.act i ∧ ((i :
        Nat) < 6 ∨ streamAgrees (streamFormat s.act i) g = true) ∧ inSealed s.act i = true ∧ metas = none) ∧
    (∃ (i : Nat),
      i < 6) ∧
    (∃ (i : Nat),
      6 ≤ i) ∧
    (∃ (i : Nat) (f : CapFormat),
      f.pid = true ∨ 4 ≤ i) ∧
    (∃ (i : Nat) (f : CapFormat),
      i < 4 ∧ f.pid = false) ∧
    (∃ (s : State) (i : Nat),
      freeBuffer (s.inAt i) = none) ∧
    (∃ (s : State) (i : Nat), ∃ b,
      freeBuffer (s.inAt i) = some b) ∧
    (∃ (s : State) (i : Fin 8),
      (s.inAt i).run = none) ∧
    (∃ (s : State) (i : Fin 8) (skew : Bool), ∃ r,
      (s.inAt i).run = some r ∧ (skew = false ∨ (groupOf s.act i).length ≤ 1)) ∧
    (∃ (s : State) (i : Fin 8) (skew : Bool), ∃ r,
      (s.inAt i).run = some r ∧ skew = true ∧ 1 < (groupOf s.act i).length) ∧
    (∃ (s : State) (i : Nat) (r : CapRun),
      i < s.input.length ∧ r.buf < (s.inAt i).bufs.length) ∧
    (∃ (s : State) (i : Fin 8),
      captures s i = true ∧ (s.inAt i).st ≠ 1 ∧ signalGone s i = true) ∧
    (∃ (s : State) (i : Fin 8),
      captures s i = false ∨ (s.inAt i).st = 1 ∨ signalGone s i = false) ∧
    (∃ (s : State) (i : Fin 8),
      (s.inAt i).run.isSome = true) ∧
    (∃ (s : State) (i : Fin 8),
      6 ≤ (i : Nat) ∧ (s.inAt i).run.isSome = true ∧ packetLost s i = true) ∧
    (∃ (s : State) (i : Fin 8),
      packetLost s i = false) ∧
    (∃ (s : State) (i : Nat),
      (∀ e ∈ (s.inAt i).arrived, s.tb.tick < e.2 + s.act.half (aStream (i - 6) + 22) * 40000)) ∧
    (∃ (s : State) (i : Fin 8),
      (s.inAt i).run = none) ∧
    (∃ (s : State) (i : Nat),
      (s.inAt i).run.isSome = true) :=
  ⟨⟨up, 0, {}, by decide +kernel⟩,
   ⟨inCap [(0x30100 + 0x40 * 0, 0x80000000), (0x30104 + 0x40 * 0, 0)] { st := 2 }, 0,
     { w := 1920, h := 1080, color := 2, sampling := 2, depth := 10, rate := 2 },
     { w := 1920, h := 1080, color := 2, sampling := 2, depth := 10, rate := 2 }, _, 0, 0, 0, _, ⟨by decide +kernel, rfl, by decide +kernel, rfl,
     rfl, by decide +kernel⟩⟩,
   ⟨inCap [(0x30280, 0x80000000), (0x30284, 0x04380780)] { st := 2 }, 6, { w := 1920, h := 1080, color := 2, sampling := 2, depth := 10, rate := 2 },
     { w := 1920, h := 1080, color := 2, sampling := 2, depth := 10, rate := 2 }, _, 0, 0, 0, _, ⟨by decide +kernel, rfl, by decide +kernel, rfl,
     rfl, by decide +kernel, by decide +kernel, by decide, by decide +kernel⟩⟩,
   ⟨inCap [(0x30100 + 0x40 * 0, 0x80000000), (0x30104 + 0x40 * 0, 0x04380780)] { st := 2 }, 0,
     { w := 1920, h := 1080, color := 2, sampling := 2, depth := 10, rate := 2 },
     { w := 1920, h := 1080, color := 2, sampling := 2, depth := 10, rate := 2 }, _, 0, 0, 0, _, ⟨by decide +kernel, rfl, by decide +kernel, rfl,
     rfl, by decide +kernel, by decide +kernel, .inl (by decide), by decide +kernel⟩⟩,
   ⟨inCap [(0x30100 + 0x40 * 0, 0xC0000000), (0x30104 + 0x40 * 0, 0x04380780)] { st := 2 }, 0,
     { w := 1920, h := 1080, color := 2, sampling := 2, depth := 10, rate := 2 },
     { w := 1920, h := 1080, color := 2, sampling := 2, depth := 10, rate := 2 }, _, 0, 0, 0, _, none, ⟨by decide +kernel, rfl, by decide +kernel,
     rfl, rfl, by decide +kernel, by decide +kernel, .inl (by decide), by decide +kernel, rfl⟩⟩,
   ⟨5, by decide⟩,
   ⟨6, by decide⟩,
   ⟨5, {}, by decide⟩,
   ⟨3, { pid := false }, by decide⟩,
   ⟨up, 0, by decide⟩,
   ⟨inCap [] { bufs := [{}] }, 7, 0, by decide⟩,
   ⟨up, 0, by decide⟩,
   ⟨inCap [] { run := some capRun }, 0, false, capRun, ⟨rfl, by decide⟩⟩,
   ⟨inCap [(0x30100, 0x90000000)] { run := some capRun }, 0, true, capRun, ⟨rfl, rfl, by decide⟩⟩,
   ⟨inCap [] { bufs := [{}] }, 7, { buf := 0, base := 0, fmt := {}, tRef := 0, fine := 0, tc := 0, rtp := 0, key := none }, by decide⟩,
   ⟨inCap [(0x30100, 0x80000000)] { st := 3 }, 0, by decide +kernel⟩,
   ⟨up, 0, by decide +kernel⟩,
   ⟨inCap [] { run := some { buf := 0, base := 0, fmt := {}, tRef := 0, fine := 0, tc := 0, rtp := 0, key := none } }, 7, by decide⟩,
   ⟨inCap []
     { run := some { buf := 0, base := 0, fmt := {}, tRef := 0, fine := 0, tc := 0, rtp := 0, key := none }, packets := [(0, [])], arrived := [(0, 0)] }, 7, by decide +kernel⟩,
   ⟨up, 7, by decide⟩,
   ⟨inCap [] { arrived := [(0, 2 ^ 56 + 1)] }, 7, by decide +kernel⟩,
   ⟨up, 0, by decide⟩,
   ⟨inCap [] { run := some { buf := 0, base := 0, fmt := {}, tRef := 0, fine := 0, tc := 0, rtp := 0, key := none } }, 7, by decide⟩⟩

theorem test_hyp_NetworkAndSinkPorts :
    (∃ (s : State) (i : Fin 8) (net : Fin 2),
      6 ≤ (i : Nat) ∧ captures s i = true ∧ nbit (streamPaths s.act i) net = true ∧ (s.inAt i).run = none) ∧
    (∃ (s : State) (i : Fin 8) (net : Fin 2),
      6 ≤ (i : Nat) ∧ captures s i = true ∧ nbit (streamPaths s.act i) net = true ∧ (s.inAt i).run.isSome = true) ∧
    (∃ (s : State) (i : Fin 8) (net : Fin 2),
      6 ≤ (i : Nat) ∧ captures s i = true ∧ nbit (streamPaths s.act i) net = true ∧ nth (s.inAt i).pathDown net false = false ∧ pathQuiet s i net =
        true) ∧
    (∃ (s : State) (i : Fin 8) (net : Fin 2),
      6 ≤ (i : Nat) ∧ captures s i = true ∧ nbit (streamPaths s.act i) net = true ∧ (nth (s.inAt i).pathDown net false = true ∨ pathQuiet s i net =
        false)) ∧
    (∃ (s : State) (d : Nat),
      (s.rt 4).bit 0x30010 31 = false ∨ (s.rt 4).fld 0x30010 7 0 ≠ d) ∧
    (∃ (s : State) (ofs : Int) (d : Nat),
      (s.rt 4).bit 0x30010 31 = true ∧ (s.rt 4).fld 0x30010 7 0 = d ∧ s.ptp.valid = false ∧ (ofs - s.ptp.offset).natAbs ≤ 40 ∧ 15 ≤ s.ptp.consistent)
        ∧
    (∃ (s : State) (ofs : Int) (d : Nat),
      (s.rt 4).bit 0x30010 31 = true ∧ (s.rt 4).fld 0x30010 7 0 = d ∧ s.ptp.valid = false ∧ (ofs - s.ptp.offset).natAbs ≤ 40 ∧ s.ptp.consistent < 15)
        ∧
    (∃ (s : State) (ofs : Int) (d : Nat),
      (s.rt 4).bit 0x30010 31 = true ∧ (s.rt 4).fld 0x30010 7 0 = d ∧ s.ptp.valid = false ∧ 40 < (ofs - s.ptp.offset).natAbs) ∧
    (∃ (s : State) (d : Nat),
      (s.rt 4).bit 0x30010 31 = true ∧ (s.rt 4).fld 0x30010 7 0 = d ∧ s.ptp.valid = true) ∧
    (∃ (s : State),
      s.ptp.st ≤ 1 ∨ s.ptp.st = 4 ∨ s.tb.tick < s.ptp.lastSync + 1200000000) ∧
    (∃ (s : State),
      1 < s.ptp.st ∧ s.ptp.st ≠ 4 ∧ s.ptp.lastSync + 1200000000 ≤ s.tb.tick) ∧
    (∃ (s : State) (net : Fin 2) (l r : List Byte),
      phyRate s.act net ≠ 0 ∧ (arpReply (portMac s.act net) (portIp s.act net) l).or (echoReply (portIp s.act net) l) = some r) ∧
    (∃ (s : State) (net : Fin 2) (l : List Byte),
      phyRate s.act net = 0 ∨ (arpReply (portMac s.act net) (portIp s.act net) l = none ∧ echoReply (portIp s.act net) l = none)) ∧
    (∃ (s : State) (i : Fin 2),
      captures s (4 + i) = true) ∧
    (∃ (s : State) (i : Fin 2),
      (s.inAt (4 + i)).hpdPulse = true ∧ (s.inAt (4 + i)).hpdAt + 800000 ≤ s.tb.tick) ∧
    (∃ (s : State) (i : Fin 2),
      (s.inAt (4 + i)).hpdPulse = false ∨ s.tb.tick < (s.inAt (4 + i)).hpdAt + 800000) :=
  ⟨⟨inCap [(0x30280, 0x80000000), (0x04000108, 0x00030000)] { st := 2 }, 6, 1, by decide⟩,
   ⟨inCap [(0x30280, 0x80000000), (0x04000108, 0x00030000)]
     { st := 2, run := some { buf := 0, base := 0, fmt := {}, tRef := 0, fine := 0, tc := 0, rtp := 0, key := none } }, 6, 0, by decide⟩,
   ⟨inCap [(0x30280, 0x80000000), (0x04000108, 0x00030000), (0x04000120, 60), (0x04000124, 60)] { st := 2 }, 6, 0, by decide +kernel⟩,
   ⟨inCap [(0x30280, 0x80000000), (0x04000108, 0x00030000), (0x04000120, 60), (0x04000124, 1)] { st := 2, pathAt := [2 ^ 56, 2 ^ 56] }, 6, 1, ⟨by
     decide, by decide +kernel, by decide +kernel, .inr (by decide +kernel)⟩⟩,
   ⟨up, 0, by decide⟩,
   ⟨{ (cfg [(0x30010, 0x80000003)]) with ptp := { consistent := 15 } }, 40, 3, by decide⟩,
   ⟨{ (cfg [(0x30010, 0x80000003)]) with ptp := { consistent := 14 } }, -40, 3, by decide⟩,
   ⟨cfg [(0x30010, 0x80000000)], 41, 0, by decide⟩,
   ⟨{ (cfg [(0x30010, 0x80000003)]) with ptp := { valid := true } }, 3, by decide⟩,
   ⟨{ up with ptp := { st := 2, lastSync := 2 ^ 56 } }, by decide⟩,
   ⟨{ up with ptp := { st := 2, lastSync := 2 ^ 56 - 1200000000 } }, by decide⟩,
   ⟨cfg [(0x04000004, 0x00010000)], 0, [0, 1, 8, 0, 6, 4, 0, 1] ++ List.replicate 20 0, _, ⟨by decide, rfl⟩⟩,
   ⟨up, 0, [], by decide⟩,
   ⟨inCap [(0x30200, 0x80000000)] { st := 2 }, 0, by decide⟩,
   ⟨inCap [] { hpdPulse := true, hpdAt := 2 ^ 56 - 800000 }, 1, by decide⟩,
   ⟨inCap [] { hpdPulse := true, hpdAt := 2 ^ 56 }, 1, by decide⟩⟩

theorem test_hyp_HostWindow :
    (∃ (s u : State) (addr n a b : Nat) (l : List (Nat × Nat)),
      hostPlaces false n addr (wakeHbm s) = (u, (0, a, b), l)) ∧
    (∃ (s u : State) (addr a b : Nat) (bytes : List Byte) (l : List (Nat × Nat)),
      hostPlaces true bytes.length addr (wakeHbm s) = (u, (0, a, b), l) ∧ (u.surfAt (l.headD (0, 0)).1).prot = false) ∧
    (∃ (s u : State) (addr a b : Nat) (bytes : List Byte) (l : List (Nat × Nat)), ∃ k,
      hostPlaces true bytes.length addr (wakeHbm s) = (u, (0, a, b), l) ∧ (u.surfAt (l.headD (0, 0)).1).prot = true ∧ surfaceKey u (l.headD (0, 0)).1
        = some k) ∧
    (∃ (s u : State) (addr a b : Nat) (bytes : List Byte) (l : List (Nat × Nat)),
      hostPlaces true bytes.length addr (wakeHbm s) = (u, (0, a, b), l) ∧ (u.surfAt (l.headD (0, 0)).1).prot = true ∧ surfaceKey u (l.headD (0, 0)).1
        = none) ∧
    (∃ (s u : State) (addr n k a b : Nat) (l : List (Nat × Nat)),
      hostPlaces false n addr (wakeHbm s) = (u, (k, a, b), l) ∧ k ≠ 0) ∧
    (∃ (s u : State) (addr k a b : Nat) (bytes : List Byte) (l : List (Nat × Nat)),
      hostPlaces true bytes.length addr (wakeHbm s) = (u, (k, a, b), l) ∧ k ≠ 0) ∧
    (∃ (s : State) (addr : Nat),
      addr < 2 ^ s.mgmt.bar2Log) ∧
    (∃ (s : State) (addr : Nat),
      2 ^ s.mgmt.bar2Log ≤ addr) ∧
    (∃ (s : State) (addr : Nat),
      hostSurface s addr = none) ∧
    (∃ (s : State) (addr i : Nat),
      hostSurface s addr = some i) ∧
    (∃ (addr size : Nat),
      (size = 4 ∨ size = 8) ∧ addr % size = 0) ∧
    (∃ (addr size : Nat),
      ¬((size = 4 ∨ size = 8) ∧ addr % size = 0)) :=
  ⟨⟨up, _, 0, 0, 0, 0, [], rfl⟩,
   ⟨up, _, 0, 0, 0, [], [], ⟨rfl, by decide⟩⟩,
   ⟨keyedSurf, _, 0, 0, 0, [], [], surfKey, ⟨rfl, by decide +kernel, by decide +kernel⟩⟩,
   ⟨protSt, _, 0, 0, 0, [], [], ⟨rfl, by decide +kernel, by decide +kernel⟩⟩,
   ⟨up, _, 0, 1, 1, 0, 0, [], ⟨rfl, by decide⟩⟩,
   ⟨up, _, 0, 1, 0, 0, [0], [], ⟨rfl, by decide⟩⟩,
   ⟨inMgmt { bar2Log := 30 }, 2 ^ 30 - 1, by decide⟩,
   ⟨inMgmt { bar2Log := 30 }, 2 ^ 30, by decide⟩,
   ⟨up, 0, by decide⟩,
   ⟨inSurf { surfs := [(0, { st := 2, size := 512, attr := 1 })] }, 0, 0, by decide +kernel⟩,
   ⟨0, 4, by decide⟩,
   ⟨2, 4, by decide⟩⟩

theorem test_hyp_ThermalLevel :
    (∃ (t : Threshold) (up : Bool),
      t.entered = false ∧ up = false) ∧
    (∃ (t : Threshold) (down : Bool),
      t.entered = true ∧ down = false) ∧
    (∃ (s : State),
      s.hbm.st ≠ 4 ∧ s.hbm.st ≠ 0) ∧
    (∃ (s u : State) (counts : List (Nat × Nat)) (l : List Sensor) (d : Int) (src : Nat) (sub : Bool) (failed : List Nat),
      convert { s with free := s.free + 1 } counts (Config.freeNat 2 s.free) = (l, d, src, sub) ∧ failed = (List.range 64).filter (fun i => (nth l i
        {}).st == 2 && (nth s.therm.sensors i {}).st != 2) ∧ u = failed.foldl (fun t i => raise t 0x0D06 (thermData i (nth l i {}).value 0))
        { s with free := s.free + 1, therm := { s.therm with sensors := l, tdie := d, src := src, subst := sub, converted := true, holdUntil := if failed = [] then s.therm.holdUntil else s.tb.tick + 800000000 } } ∧ (uncoveredDie l = none ∨ (s.therm.converted = true ∧ (uncoveredDie s.therm.sensors).isSome = true))) ∧
    (∃ (s u : State) (counts : List (Nat × Nat)) (l : List Sensor) (d : Int) (src : Nat) (sub : Bool) (failed : List Nat), ∃ k i,
      convert { s with free := s.free + 1 } counts (Config.freeNat 2 s.free) = (l, d, src, sub) ∧ failed = (List.range 64).filter (fun i => (nth l i
        {}).st == 2 && (nth s.therm.sensors i {}).st != 2) ∧ u = failed.foldl (fun t i => raise t 0x0D06 (thermData i (nth l i {}).value 0))
        { s with free := s.free + 1, therm := { s.therm with sensors := l, tdie := d, src := src, subst := sub, converted := true, holdUntil := if failed = [] then s.therm.holdUntil else s.tb.tick + 800000000 } } ∧ uncoveredDie l = some k ∧ (s.therm.converted = false ∨ uncoveredDie s.therm.sensors = none) ∧ (nth dieSensors k []).find? (fun j => (nth l j {}).st != 0) = some i) ∧
    (∃ (s : State),
      riseHolds s.therm = true ∧ s.therm.lastChange + (s.rt 4).fld 0xD0008 7 0 * 400000 ≤ s.tb.tick) ∧
    (∃ (s : State),
      (riseHolds s.therm = false ∨ s.tb.tick < s.therm.lastChange + (s.rt 4).fld 0xD0008 7 0 * 400000) ∧ fallHolds (s.rt 4) s.therm s.tb.tick = true
        ∧ s.therm.holdUntil = 0) ∧
    (∃ (s : State),
      (riseHolds s.therm = false ∨ s.tb.tick < s.therm.lastChange + (s.rt 4).fld 0xD0008 7 0 * 400000) ∧ (fallHolds (s.rt 4) s.therm s.tb.tick =
        false ∨ s.therm.holdUntil ≠ 0)) ∧
    (∃ (s : State),
      s.therm.holdUntil ≠ 0 ∧ s.therm.holdUntil ≤ s.tb.tick ∧ fallHolds (s.rt 4) s.therm s.tb.tick = true) ∧
    (∃ (s : State),
      s.therm.holdUntil ≠ 0 ∧ s.therm.holdUntil ≤ s.tb.tick ∧ fallHolds (s.rt 4) s.therm s.tb.tick = false) ∧
    (∃ (s : State),
      s.therm.holdUntil = 0 ∨ s.tb.tick < s.therm.holdUntil) :=
  ⟨⟨{}, false, by decide⟩,
   ⟨{ entered := true }, false, by decide⟩,
   ⟨inHbm { st := 1 }, by decide⟩,
   ⟨inTherm {}, _, List.replicate 64 (2, 2), _, _, _, _, _, ⟨rfl, rfl, rfl, by decide +kernel⟩⟩,
   ⟨inTherm {}, _, List.replicate 64 (0, 0), _, _, _, _, _, 0, 0, ⟨rfl, rfl, rfl, by decide +kernel, .inl rfl, by decide +kernel⟩⟩,
   ⟨inTherm { temper := { entered := true }, tdie := 816, level := 6 }, by decide⟩,
   ⟨inTherm { belowDone := true, level := 1 }, by decide⟩,
   ⟨inTherm { holdUntil := 1 }, by decide⟩,
   ⟨inTherm { holdUntil := 1, belowDone := true, level := 7 }, by decide⟩,
   ⟨inTherm { holdUntil := 1 }, by decide⟩,
   ⟨up, by decide⟩⟩

theorem test_hyp_JournalRecordsAreWritten :
    (∃ (s : State) (r : JrnRec) (b : List Byte),
      s.jrn.writing = some (r, b) ∧ r.kind = 1) ∧
    (∃ (s : State) (r : JrnRec) (b : List Byte),
      s.jrn.writing = some (r, b) ∧ r.kind ≠ 1) ∧
    (∃ (s : State) (r : JrnRec) (b : List Byte),
      s.jrn.writing = some (r, b) ∧ (r.kind = 6 ∨ r.kind = 8)) ∧
    (∃ (s : State) (r : JrnRec) (b : List Byte),
      s.jrn.writing = some (r, b) ∧ r.kind = 7) ∧
    (∃ (s : State) (r : JrnRec) (b : List Byte),
      s.jrn.writing = some (r, b) ∧ r.kind ≠ 6 ∧ r.kind ≠ 7 ∧ r.kind ≠ 8) ∧
    (∃ (s : State),
      s.jrn.writing = none) ∧
    (∃ (s : State),
      s.therm.flashOpen = true) ∧
    (∃ (s : State) (u : Update) (t : Nat),
      s.therm.flashOpen = false ∧ s.mgmt.update = some u ∧ s.ann.run = none ∧ u.waitAt = some t ∧ s.tb.tick < t + 4000000000) ∧
    (∃ (s : State) (u : Update) (t : Nat),
      s.therm.flashOpen = false ∧ s.mgmt.update = some u ∧ s.ann.run = none ∧ u.waitAt = some t ∧ t + 4000000000 ≤ s.tb.tick ∧ (u.waitData.isSome =
        true ∨ u.waitCommit = true)) ∧
    (∃ (s : State) (u : Update) (t : Nat),
      s.therm.flashOpen = false ∧ s.mgmt.update = some u ∧ s.ann.run = none ∧ u.waitAt = some t ∧ t + 4000000000 ≤ s.tb.tick ∧ u.waitData = none ∧
        u.waitCommit = false ∧ u.erased = false) ∧
    (∃ (s : State) (r : AnnRun),
      s.therm.flashOpen = false ∧ s.mgmt.update = none ∧ s.ann.run = some r) :=
  ⟨⟨inJrn { writing := some ({ kind := 1, flags := 0, tLocal := 0, tSecure := 0, code := 0, path := 0, session := 0, data := [], sev := 0 }, []) },
    { kind := 1, flags := 0, tLocal := 0, tSecure := 0, code := 0, path := 0, session := 0, data := [], sev := 0 }, [], ⟨rfl, by decide⟩⟩,
   ⟨inJrn { writing := some ({ kind := 2, flags := 0, tLocal := 0, tSecure := 0, code := 0, path := 0, session := 0, data := [], sev := 2 }, []) },
     { kind := 2, flags := 0, tLocal := 0, tSecure := 0, code := 0, path := 0, session := 0, data := [], sev := 2 }, [], ⟨rfl, by decide⟩⟩,
   ⟨inJrn { writing := some ({ kind := 8, flags := 0, tLocal := 0, tSecure := 0, code := 0, path := 0, session := 0, data := [], sev := 0 }, []) },
     { kind := 8, flags := 0, tLocal := 0, tSecure := 0, code := 0, path := 0, session := 0, data := [], sev := 0 }, [], ⟨rfl, by decide⟩⟩,
   ⟨inJrn { writing := some ({ kind := 7, flags := 0, tLocal := 0, tSecure := 0, code := 0, path := 0, session := 0, data := [], sev := 0 }, []) },
     { kind := 7, flags := 0, tLocal := 0, tSecure := 0, code := 0, path := 0, session := 0, data := [], sev := 0 }, [], ⟨rfl, by decide⟩⟩,
   ⟨inJrn { writing := some ({ kind := 2, flags := 0, tLocal := 0, tSecure := 0, code := 0, path := 0, session := 0, data := [], sev := 2 }, []) },
     { kind := 2, flags := 0, tLocal := 0, tSecure := 0, code := 0, path := 0, session := 0, data := [], sev := 2 }, [], ⟨rfl, by decide, by decide,
     by decide⟩⟩,
   ⟨up, by decide⟩,
   ⟨inTherm { flashOpen := true }, by decide⟩,
   ⟨{ inMgmt { update := some { path := .spi, length := 8, copy := 0, erased := true, waitData := some (4, []), waitAt := some (2 ^ 56) } } with therm := {} }, { path := .spi, length := 8, copy := 0, erased := true, waitData := some (4, []), waitAt := some (2 ^ 56) }, 2 ^ 56, ⟨rfl, rfl, rfl, rfl, by decide⟩⟩,
   ⟨{ inMgmt { update := some { path := .spi, length := 8, copy := 0, erased := true, waitData := some (4, []), waitAt := some (0) } } with therm := {} }, { path := .spi, length := 8, copy := 0, erased := true, waitData := some (4, []), waitAt := some (0) }, 0, ⟨rfl, rfl, rfl, rfl, by decide, .inl rfl⟩⟩,
   ⟨{ inMgmt { update := some { path := .spi, length := 8, copy := 0, erased := false, waitData := none, waitAt := some (0) } } with therm := {} },
     { path := .spi, length := 8, copy := 0, erased := false, waitData := none, waitAt := some (0) }, 0, ⟨rfl, rfl, rfl, rfl, by decide, rfl, rfl,
     rfl⟩⟩,
   ⟨inAnn run2, run2, ⟨rfl, rfl, rfl⟩⟩⟩

theorem test_hyp_DroopAndDomains :
    (∃ (i : Fin 64),
      senses i = false) ∧
    (∃ (s : State) (i : Fin 64) (count : Nat) (d : Rat) (t : ThermState),
      senses i = true ∧ d = dropOf (nth s.fuse.sensors i {}) (nth s.therm.rings i []) count ∧ t =
        { s.therm with rings := listSet s.therm.rings i ((count :: nth s.therm.rings i []).take 10000), estimates := listSet s.therm.estimates i d }
        ∧ s.therm.droop = false ∧ (droopMv (s.rt 4) : Rat) ≤ d) ∧
    (∃ (s : State) (i : Fin 64) (count : Nat) (d : Rat) (t : ThermState),
      senses i = true ∧ d = dropOf (nth s.fuse.sensors i {}) (nth s.therm.rings i []) count ∧ t =
        { s.therm with rings := listSet s.therm.rings i ((count :: nth s.therm.rings i []).take 10000), estimates := listSet s.therm.estimates i d }
        ∧ s.therm.droop = false ∧ d < (droopMv (s.rt 4) : Rat)) ∧
    (∃ (s : State) (i : Fin 64) (count : Nat) (d : Rat) (t : ThermState),
      senses i = true ∧ d = dropOf (nth s.fuse.sensors i {}) (nth s.therm.rings i []) count ∧ t =
        { s.therm with rings := listSet s.therm.rings i ((count :: nth s.therm.rings i []).take 10000), estimates := listSet s.therm.estimates i d }
        ∧ s.therm.droop = true) ∧
    (∃ (s : State) (t : Nat),
      s.therm.droop = true ∧ s.therm.calmSince = some t ∧ t + (s.rt 4).fld 0xD0020 15 8 * 400 ≤ s.tb.tick) ∧
    (∃ (s : State) (t : Nat),
      s.therm.droop = true ∧ s.therm.calmSince = some t ∧ s.tb.tick < t + (s.rt 4).fld 0xD0020 15 8 * 400) ∧
    (∃ (s : State),
      s.therm.droop = false ∨ s.therm.calmSince = none) ∧
    (∃ (s : State) (d : Nat),
      (List.range 26).find? (nbit s.therm.pend) = some d ∧ admissible s = true) ∧
    (∃ (s : State) (d : Nat),
      (List.range 26).find? (nbit s.therm.pend) = some d ∧ admissible s = false) ∧
    (∃ (s : State),
      (List.range 26).find? (nbit s.therm.pend) = none) ∧
    (∃ (s : State), ∃ t,
      s.drive.lastAdmit = some t) ∧
    (∃ (s : State) (d : Fin 26),
      nbit s.therm.awake d = true ∧ nth s.therm.wokenAt d 0 + 800 ≤ s.tb.tick) ∧
    (∃ (s : State) (d : Fin 26),
      nbit s.therm.awake d = false ∨ s.tb.tick < nth s.therm.wokenAt d 0 + 800) ∧
    (∃ (s : State) (d : Fin 26),
      domainUsed s d = true) ∧
    (∃ (s : State) (d : Fin 26),
      domainUsed s d = false) :=
  ⟨⟨63, by decide⟩,
   ⟨cfg [(0xD0020, 0)], 59, 0, _, _, ⟨by decide, rfl, rfl, rfl, by decide +kernel⟩⟩,
   ⟨cfg [(0xD0020, 50)], 48, 0, _, _, ⟨by decide, rfl, rfl, rfl, by decide +kernel⟩⟩,
   ⟨inTherm { droop := true }, 0, 0, _, _, ⟨by decide, rfl, rfl, rfl⟩⟩,
   ⟨inTherm { droop := true, calmSince := some 0 }, 0, by decide⟩,
   ⟨{ cfg [(0xD0020, 0x100)] with therm := { droop := true, calmSince := some (2 ^ 56) } }, 2 ^ 56, by decide⟩,
   ⟨up, by decide⟩,
   ⟨inTherm { pend := 32 }, 5, by decide⟩,
   ⟨inTherm { pend := 32, droop := true }, 5, by decide⟩,
   ⟨up, by decide⟩,
   ⟨{ up with drive := { lastAdmit := some 0 } }, 0, by decide⟩,
   ⟨inTherm { awake := 33554432 }, 25, by decide⟩,
   ⟨inTherm { wokenAt := List.replicate 32 (2 ^ 56) }, 25, .inr (by decide)⟩,
   ⟨cfg [(0x30100, 0x80000000)], 16, by decide +kernel⟩,
   ⟨up, 16, by decide +kernel⟩⟩

theorem test_hyp_AnnealRuns :
    (∃ (s : State) (path : PathId) (v : Word) (kind outs steps : Nat),
      serves s path = true ∧ hasRole s path 3 = true ∧ kind = nbits v.toNat 29 28 ∧ outs = (if kind = 2 then 0 else nbits v.toNat 27 24) ∧ steps =
        nbits v.toNat 7 0 ∧ refusesRun s kind outs steps = true) ∧
    (∃ (s : State) (path : PathId) (v : Word) (kind outs steps : Nat),
      serves s path = true ∧ hasRole s path 3 = true ∧ kind = nbits v.toNat 29 28 ∧ outs = (if kind = 2 then 0 else nbits v.toNat 27 24) ∧ steps =
        nbits v.toNat 7 0 ∧ refusesRun s kind outs steps = false) ∧
    (∃ (s : State) (path : PathId),
      serves s path = true ∧ hasRole s path 3 = true) ∧
    (∃ (s : State) (b : Bool),
      s.ann.dowser ≠ b) ∧
    (∃ (s : State),
      s.ann.run = none) ∧
    (∃ (s : State) (r : AnnRun),
      s.ann.run = some r) ∧
    (∃ (s : State) (o : Nat) (r : AnnRun),
      s.ann.run = some r ∧ r.kind ≠ 2 ∧ nbit r.outputs o = true ∧ r.ended = false) ∧
    (∃ (s : State) (o : Nat) (r : AnnRun),
      s.ann.run = some r ∧ (r.kind = 2 ∨ nbit r.outputs o = false ∨ r.ended = true)) ∧
    (∃ (s : State) (o : Nat) (r : AnnRun),
      s.ann.run = some r ∧ r.kind ≠ 2 ∧ nbit r.outputs o = true ∧ r.ended = false ∧ (s.outAt o).exit = .none_ ∧ (s.outAt o).mode ≠ 1 ∧ (s.tgAt
        o).running = true) ∧
    (∃ (s : State) (r : AnnRun),
      s.ann.run = some r ∧ r.begun = false ∧ ((r.kind = 0 → r.enteredAt + 80000 ≤ s.tb.tick ∧ ∀ o ∈ maskOutputs r.outputs, (s.outAt o).mode = 5 ∧
        stringsReady s o = true))) ∧
    (∃ (s : State) (r : AnnRun),
      s.ann.run = some r ∧ (r.begun = true ∨ (r.kind = 0 ∧ (s.tb.tick < r.enteredAt + 80000 ∨ ∃ o ∈ maskOutputs r.outputs, (s.outAt o).mode ≠ 5 ∨
        stringsReady s o = false)))) ∧
    (∃ (s : State) (r : AnnRun) (step o i : Nat) (rest : List (Nat × Nat)) (items : List Nat),
      s.ann.run = some r ∧ r.todo = (step, o) :: rest ∧ r.items = i :: items ∧ r.begun = true ∧ r.st = 2 ∧ r.post = false ∧ pointEnds s r step o =
        false) ∧
    (∃ (s : State) (r : AnnRun) (step o i : Nat) (rest : List (Nat × Nat)) (items : List Nat),
      s.ann.run = some r ∧ r.todo = (step, o) :: rest ∧ r.items = i :: items ∧ r.begun = true ∧ r.st = 2 ∧ r.post = false ∧ pointEnds s r step o =
        true ∧ r.kind ≠ 0) ∧
    (∃ (s : State) (r : AnnRun) (step o i : Nat) (rest : List (Nat × Nat)) (items : List Nat),
      s.ann.run = some r ∧ r.todo = (step, o) :: rest ∧ r.items = i :: items ∧ r.begun = true ∧ r.st = 2 ∧ r.post = false ∧ pointEnds s r step o =
        true ∧ r.kind = 0) ∧
    (∃ (s : State) (r : AnnRun) (step o : Nat),
      pointEnds s r step o = true ∧ r.kind = 1) ∧
    (∃ (s : State) (r : AnnRun) (step o : Nat),
      r.kind ≠ 1 ∧ r.since + pointTime s step o ≤ s.tb.tick) ∧
    (∃ (s : State) (r : AnnRun) (darks : List Nat) (again : Int), ∃ c i,
      s.ann.run = some r ∧ r.begun = true ∧ r.ended = false ∧ ((r.kind = 1 → r.stolen = true ∧ r.st = 2)) ∧ ((r.kind ≠ 1 → r.st = 1)) ∧ r.since +
        checkTime r ≤ s.tb.tick ∧ checkCause s r darks again (if r.kind = 1 then r.frame else r.post) = some (c, i)) ∧
    (∃ (s : State) (r : AnnRun) (darks : List Nat) (again : Int),
      s.ann.run = some r ∧ r.begun = true ∧ r.ended = false ∧ ((r.kind = 1 → r.stolen = true ∧ r.st = 2)) ∧ ((r.kind ≠ 1 → r.st = 1)) ∧ r.since +
        checkTime r ≤ s.tb.tick ∧ checkCause s r darks again (if r.kind = 1 then r.frame else r.post) = none) ∧
    (∃ (s : State) (r : AnnRun) (darks : List Nat) (k : Nat),
      k < 8 ∧ (s.rt 4).bit (aPdMap k) 31 = true ∧ (r.kind = 2 ∨ nbit r.outputs ((s.rt 4).fld (aPdMap k) 25 24) = true) ∧ (s.rt 4).fld 0xE0004 15 0 <
        nth darks k 0) ∧
    (∃ (s : State) (r : AnnRun),
      s.ann.run = some r ∧ s.tb.tick < r.since + checkTime r) ∧
    (∃ (s : State) (r : AnnRun),
      s.ann.run = some r ∧ r.waitPour = true ∧ r.waitAt + 4000000000 ≤ s.tb.tick) ∧
    (∃ (s : State) (r : AnnRun),
      s.ann.run = some r ∧ (r.waitPour = false ∨ s.tb.tick < r.waitAt + 4000000000)) ∧
    (∃ (s : State) (r : AnnRun),
      s.ann.run = some r ∧ r.checked = true ∧ s.ladle.armed = false ∧ s.therm.flashOpen = false) ∧
    (∃ (s : State) (r : AnnRun),
      s.ann.run = some r ∧ r.checked = true ∧ s.ladle.armed = false ∧ s.therm.flashOpen = true) :=
  ⟨⟨up, .internal, 0, 0, 0, 0, by decide⟩,
   ⟨up, .internal, 0xA0000001, 2, 0, 1, by decide⟩,
   ⟨up, .internal, by decide⟩,
   ⟨up, true, by decide⟩,
   ⟨up, by decide⟩,
   ⟨inAnn run2, run2, rfl⟩,
   ⟨inAnn { run2 with kind := 1, outputs := 1 }, 0, { run2 with kind := 1, outputs := 1 }, ⟨rfl, by decide, by decide, rfl⟩⟩,
   ⟨inAnn run2, 0, run2, ⟨rfl, .inl rfl⟩⟩,
   ⟨{ State_with up { mode := 2 } { running := true } with ann := { run := some { run2 with kind := 1, outputs := 1 } } }, 0,
     { run2 with kind := 1, outputs := 1 }, ⟨rfl, by decide, by decide, rfl, rfl, by decide, rfl⟩⟩,
   ⟨inAnn run2, run2, ⟨rfl, rfl, by decide⟩⟩,
   ⟨inAnn { run2 with begun := true }, { run2 with begun := true }, ⟨rfl, .inl rfl⟩⟩,
   ⟨inAnn { run2 with begun := true, st := 2, since := 2 ^ 56 }, { run2 with begun := true, st := 2, since := 2 ^ 56 }, 0, 0, 0, [], [], ⟨rfl, rfl,
     rfl, rfl, rfl, rfl, by decide +kernel⟩⟩,
   ⟨inAnn { run2 with begun := true, st := 2 }, { run2 with begun := true, st := 2 }, 0, 0, 0, [], [], ⟨rfl, rfl, rfl, rfl, rfl, rfl, by
     decide +kernel, by decide⟩⟩,
   ⟨inAnn { run2 with kind := 0, begun := true, st := 2 }, { run2 with kind := 0, begun := true, st := 2 }, 0, 0, 0, [], [], ⟨rfl, rfl, rfl, rfl,
     rfl, rfl, by decide +kernel, rfl⟩⟩,
   ⟨cfg [(aTgNum 0, 0x01000000), (aTgCfg 0, 1)],
     { kind := 1, outputs := 1, steps := 4, st := 2, begun := true, todo := [(2, 0)], items := [3], points := 64, frame := true, mark := ([3], 0, 0, none) }, 2, 0, ⟨by decide +kernel, rfl⟩⟩,
   ⟨up, run2, 0, 0, ⟨by decide, by decide +kernel⟩⟩,
   ⟨darkState, begunRun, [65535], 0, 1, 0, ⟨rfl, rfl, rfl, by decide, by decide, by decide, by decide +kernel⟩⟩,
   ⟨{ darkState with ladle := {} }, begunRun, [], 0, ⟨rfl, rfl, rfl, by decide, by decide, by decide, by decide +kernel⟩⟩,
   ⟨cfg [(0xC0400, 0x80000000)], { run2 with outputs := 1 }, [65535], 0, by decide⟩,
   ⟨inAnn { run2 with since := 2 ^ 56 }, { run2 with since := 2 ^ 56 }, ⟨rfl, by decide⟩⟩,
   ⟨inAnn { run2 with waitPour := true }, { run2 with waitPour := true }, ⟨rfl, rfl, by decide⟩⟩,
   ⟨inAnn { run2 with waitPour := true, waitAt := 2 ^ 56 }, { run2 with waitPour := true, waitAt := 2 ^ 56 }, ⟨rfl, .inr (by decide)⟩⟩,
   ⟨inAnn { run2 with checked := true }, { run2 with checked := true }, ⟨rfl, rfl, rfl, rfl⟩⟩,
   ⟨{ inAnn { run2 with checked := true } with therm := { flashOpen := true } }, { run2 with checked := true }, ⟨rfl, rfl, rfl, rfl⟩⟩⟩

theorem test_hyp_QuenchLatch :
    (∃ (src : Fin 12),
      (src : Nat) ≠ 3 ∧ (src : Nat) ≠ 4 ∧ (src : Nat) ≠ 10) ∧
    (∃ (s : State) (path : PathId),
      serves s path = true ∧ hasRole s path 4 = true) ∧
    (∃ (s : State) (t : Nat),
      (ilkReads (s.rt 4) s.guard.ilkA s.guard.ilkB).1 ≠ (ilkReads (s.rt 4) s.guard.ilkA s.guard.ilkB).2 ∧ s.guard.diffSince = some t ∧ t + 40000000 ≤
        s.tb.tick) ∧
    (∃ (s : State) (t : Nat),
      (ilkReads (s.rt 4) s.guard.ilkA s.guard.ilkB).1 ≠ (ilkReads (s.rt 4) s.guard.ilkA s.guard.ilkB).2 ∧ s.guard.diffSince = some t ∧ s.tb.tick < t
        + 40000000) ∧
    (∃ (s : State),
      (s.rt 4).bit 0xF0008 28 = true ∧ drivesQuenchN s = false) ∧
    (∃ (s : State) (low : Bool),
      low = false ∨ (s.rt 4).bit 0xF0008 28 = false ∨ drivesQuenchN s = true) ∧
    (∃ (s : State),
      s.mode.dev = 0) ∧
    (∃ (s : State),
      s.mode.dev ≠ 0) ∧
    (∃ (s : State),
      (∀ o ∈ outputs, (nth s.guard.zones o {}).resident = true → crc32 (zoneResident s o (nth s.guard.zones o {}).w (nth s.guard.zones o {}).h) =
        zoneExpect s.act o)) ∧
    (∃ (s : State) (o sig : Nat),
      o ∈ outputs ∧ (nth s.guard.zones o {}).resident = true ∧ ((∀ p ∈ outputs, p ≠ o → (nth s.guard.zones p {}).resident = false)) ∧ sig = crc32
        (zoneResident s o (nth s.guard.zones o {}).w (nth s.guard.zones o {}).h) ∧ sig ≠ zoneExpect s.act o) ∧
    (∃ (s : State),
      s.mode.dev = 1 ∨ s.mode.dev = 5) ∧
    (∃ (s : State) (src : Nat),
      hasSource s src = true) ∧
    (∃ (s : State) (src : Nat),
      hasSource s src = false) ∧
    (∃ (s : State) (path : PathId),
      serves s path = true ∧ hasRole s path 5 = true ∧ s.aod.latch = false) ∧
    (∃ (s : State) (path : PathId),
      serves s path = true ∧ hasRole s path 5 = true ∧ s.aod.latch = true ∧ blockingSource s = none) ∧
    (∃ (s : State) (path : PathId), ∃ b,
      serves s path = true ∧ hasRole s path 5 = true ∧ s.aod.latch = true ∧ blockingSource s = some b) ∧
    (∃ (s : State),
      hasSource s 7 = true) ∧
    (∃ (s : State),
      s.aod.cls = 2) ∧
    (∃ (s : State),
      s.aod.latch = true ∧ (s.rt 4).bit 0xF0008 30 = true ∧ s.aod.sources = 1 ∧ ilkHeld s = true ∧ s.guard.disc = false) ∧
    (∃ (s : State),
      s.aod.latch = true ∧ (s.rt 4).bit 0xF0008 29 = true ∧ s.aod.sources = 128 ∧ qnHeld s = true) ∧
    (∃ (s : State),
      s.aod.latch = true ∧ s.aod.sources = 1 ∧ (ilkHeld s = false ∨ s.guard.disc = true ∨ (s.rt 4).bit 0xF0008 30 = false)) ∧
    (∃ (s : State),
      s.aod.latch = true ∧ s.aod.sources = 128 ∧ (qnHeld s = false ∨ (s.rt 4).bit 0xF0008 29 = false)) ∧
    (∃ (s : State),
      s.aod.latch = true ∧ s.aod.sources ≠ 1 ∧ s.aod.sources ≠ 128) ∧
    (∃ (s : State),
      s.aod.latch = false) :=
  ⟨⟨11, by decide⟩,
   ⟨up, .internal, by decide⟩,
   ⟨{ up with guard := { ilkA := true, diffSince := some 0 } }, 0, by decide⟩,
   ⟨{ up with guard := { ilkA := true, diffSince := some (2 ^ 56) } }, 2 ^ 56, by decide⟩,
   ⟨cfg [(0xF0008, 0x10000000)], by decide⟩,
   ⟨up, true, by decide⟩,
   ⟨State.reset, by decide⟩,
   ⟨up, by decide⟩,
   ⟨up, by decide⟩,
   ⟨{ cfg [(0xF0100, badWord)] with guard := { zones := [{ resident := true }] } }, 0, emptyZones, ⟨by decide, rfl, by decide, rfl, badWord_nat⟩⟩,
   ⟨up, by decide⟩,
   ⟨State.reset, 11, by decide⟩,
   ⟨up, 3, by decide⟩,
   ⟨up, .internal, by decide⟩,
   ⟨{ up with aod := { latch := true, sources := 1, first := 0 } , guard := { ilkA := true, ilkB := true, safeSince := some 0 } }, .internal, by
     decide⟩,
   ⟨{ up with aod := { latch := true, sources := 1, first := 0 }  }, .internal, 0, by decide⟩,
   ⟨{ up with aod := { latch := true, sources := 128, first := 0 }  }, by decide⟩,
   ⟨{ up with aod := { cls := 2 } }, by decide⟩,
   ⟨{ cfg [(0xF0008, 0x40000000)] with aod := { latch := true, sources := 1, first := 0 }, guard := { ilkA := true, ilkB := true, safeSince := some 0 } }, by decide⟩,
   ⟨{ cfg [(0xF0008, 0x20000000)] with aod := { latch := true, sources := 128, first := 7 }, guard := { qnHighSince := some 0 } }, by decide⟩,
   ⟨{ up with aod := { latch := true, sources := 1, first := 0 } }, by decide⟩,
   ⟨{ up with aod := { latch := true, sources := 128, first := 7 } }, by decide⟩,
   ⟨{ up with aod := { latch := true, sources := 3, first := 0 }  }, by decide⟩,
   ⟨up, by decide⟩⟩

theorem test_hyp_KeysAndTheirProtection :
    (∃ (s t : State) (path : PathId) (k : Kdm) (r : Nat),
      serves s path = true ∧ hasRole s path 8 = true ∧ k = readKdm s.act ∧ judgeKdm s k = (r, t)) ∧
    (∃ (s t : State) (k : Kdm) (r : Nat),
      judgeKdm s k = (r, t) ∧ r ≠ 0) ∧
    (∃ (s t : State) (k : Kdm) (r : Nat),
      judgeKdm s k = (r, t) ∧ s.cruc.st ≠ 0) ∧
    (∃ (s t : State) (k : Kdm) (r : Nat),
      judgeKdm s k = (r, t) ∧ s.cruc.st = 0 ∧ k.formOk = false) ∧
    (∃ (s t : State) (k : Kdm) (r : Nat),
      judgeKdm s k = (r, t) ∧ s.cruc.st = 0 ∧ k.formOk = true ∧ beAt k.bytes 4 16 ≠ s.fuse.devId) ∧
    (∃ (s t : State) (k : Kdm) (r : Nat),
      judgeKdm s k = (r, t) ∧ s.cruc.st = 0 ∧ k.formOk = true ∧ beAt k.bytes 4 16 = s.fuse.devId ∧ nth s.mgmt.issuers k.slot.issuer none = none) ∧
    (∃ (s : State) (path : PathId),
      serves s path = true ∧ hasRole s path 8 = true ∧ s.cruc.st = 0) ∧
    (∃ (s : State) (path : PathId),
      serves s path = true ∧ hasRole s path 8 = true ∧ s.cruc.st = 0) ∧
    (∃ (s : State) (path : PathId),
      serves s path = true ∧ hasRole s path 8 = true ∧ s.cruc.st ≠ 0) ∧
    (∃ (s : State) (path : PathId),
      serves s path = true ∧ hasRole s path 2 = true) ∧
    (∃ (s : State),
      s.cruc.rngFail = false) ∧
    (∃ (s : State),
      s.cruc.rngFail = true) ∧
    (∃ (s : State) (m : Fin 5),
      (m : Nat) ≤ 1 ∧ s.cruc.sessions.length = 4) ∧
    (∃ (m : Fin 5),
      (m : Nat) = 1 ∨ (m : Nat) = 2) ∧
    (∃ (m : Fin 5),
      2 ≤ (m : Nat)) ∧
    (∃ (m : Fin 5),
      3 ≤ (m : Nat)) ∧
    (∃ (s : State) (t : Nat),
      s.cruc.st = 1 ∧ s.cruc.rangeSince = some t ∧ t + 400000 ≤ s.tb.tick) ∧
    (∃ (s : State) (t : Nat),
      s.cruc.st = 1 ∧ s.cruc.rangeSince = some t ∧ s.tb.tick < t + 400000) ∧
    (∃ (s : State),
      s.cruc.st ≠ 1) :=
  ⟨⟨up, _, .internal, _, _, ⟨by decide, by decide, rfl, rfl⟩⟩,
   ⟨inCruc { st := 1 }, inCruc { st := 1 }, readKdm [], 7, ⟨rfl, by decide⟩⟩,
   ⟨inCruc { st := 2 }, inCruc { st := 2 }, readKdm [], 7, ⟨rfl, by decide⟩⟩,
   ⟨up, up, { readKdm [] with bytes := [] }, 1, ⟨rfl, rfl, rfl⟩⟩,
   ⟨{ up with fuse := { devId := 7 } }, { up with fuse := { devId := 7 } }, kdmMsg, 2, ⟨rfl, rfl, by decide, by decide⟩⟩,
   ⟨{ up with fuse := { devId := 1 } }, _, kdmMsg, _, ⟨rfl, rfl, by decide, by decide +kernel, rfl⟩⟩,
   ⟨up, .internal, by decide⟩,
   ⟨up, .internal, by decide⟩,
   ⟨inCruc { st := 1 }, .internal, by decide⟩,
   ⟨up, .internal, by decide⟩,
   ⟨up, by decide⟩,
   ⟨inCruc { rngFail := true }, by decide⟩,
   ⟨up, 1, by decide⟩,
   ⟨2, by decide⟩,
   ⟨2, by decide⟩,
   ⟨4, by decide⟩,
   ⟨inCruc { st := 1, rangeSince := some 0 }, 0, by decide⟩,
   ⟨inCruc { st := 1, rangeSince := some (2 ^ 56) }, 2 ^ 56, by decide⟩,
   ⟨up, by decide⟩⟩

theorem test_hyp_Sessions :
    (∃ (s : State) (path : PathId) (l : List Byte),
      carries s path = true ∧ s.cruc.st = 0 ∧ s.cruc.rngFail = false ∧ s.cruc.helloFrom ≤ s.tb.tick ∧ (∃ x ∈ s.cruc.sessions, x = none) ∧ (l.length ≠
        130 ∨ l.getD 0 0 ≠ 4 ∨ operatorKey s (beAt l 129 1) = none)) ∧
    (∃ (s : State) (path : PathId) (l : List Byte),
      carries s path = true ∧ s.cruc.st = 0 ∧ s.cruc.rngFail = false ∧ s.cruc.helloFrom ≤ s.tb.tick ∧ (∃ x ∈ s.cruc.sessions, x = none) ∧ l.length =
        130 ∧ l.getD 0 0 = 4 ∧ operatorKey s (beAt l 129 1) ≠ none ∧ s.cruc.shake = none) ∧
    (∃ (s : State) (path : PathId),
      carries s path = true ∧ (s.cruc.st ≠ 0 ∨ s.cruc.rngFail = true ∨ s.tb.tick < s.cruc.helloFrom ∨ (∀ x ∈ s.cruc.sessions, x ≠ none))) ∧
    (∃ (s : State) (path : PathId) (l pub : List Byte) (h : Handshake) (k : Nat),
      carries s path = true ∧ s.cruc.shake = some h ∧ h.carrier = path ∧ s.tb.tick ≤ h.at_ + 400000000 ∧ s.cruc.sessions.findIdx? Option.isNone =
        some k ∧ operatorKey s h.op = some pub ∧ (s.cruc.st ≠ 0 ∨ l.length ≠ 96 ∨ Config.ecdsaVerify pub l (h.hello ++ h.challenge) = false)) ∧
    (∃ (s : State) (path : PathId) (h : Handshake),
      carries s path = true ∧ s.cruc.shake = some h ∧ h.carrier ≠ path) ∧
    (∃ (s : State) (path : PathId) (h : Handshake),
      carries s path = true ∧ s.cruc.shake = some h ∧ h.carrier = path ∧ h.at_ + 400000000 < s.tb.tick) ∧
    (∃ (s : State) (path : PathId) (h : Handshake),
      carries s path = true ∧ s.cruc.shake = some h ∧ h.carrier = path ∧ s.tb.tick ≤ h.at_ + 400000000 ∧ (s.cruc.sessions.findIdx? Option.isNone =
        none ∨ operatorKey s h.op = none)) ∧
    (∃ (s : State) (path : PathId),
      carries s path = false) ∧
    (∃ (s : State),
      s.cruc.shake = none) ∧
    (∃ (s : State) (h : Handshake),
      s.cruc.shake = some h ∧ h.at_ + 400000000 ≤ s.tb.tick) ∧
    (∃ (s : State) (h : Handshake),
      s.cruc.shake = some h ∧ s.tb.tick < h.at_ + 400000000) ∧
    (∃ (s : State),
      7 ≤ (s.cruc.shakeFails.filter fun t => decide (s.tb.tick < t + minute)).length) ∧
    (∃ (s : State),
      (s.cruc.shakeFails.filter fun t => decide (s.tb.tick < t + minute)).length < 7) ∧
    (∃ (s : State) (k : Fin 4) (seq : Nat) (body mac : List Byte) (x : Session),
      nth s.cruc.sessions k none = some x ∧ carries s x.carrier = true ∧ s.cruc.st = 0 ∧ mac = Config.hmac256 x.kHD (macInput k seq body) ∧ x.rx <
        seq ∧ seq < 2 ^ 64 ∧ x.lastResp ≠ [] ∧ beNat (body.take 8) = x.lastReq) ∧
    (∃ (s : State) (k : Fin 4) (seq : Nat) (body mac : List Byte) (x : Session),
      nth s.cruc.sessions k none = some x ∧ carries s x.carrier = true ∧ s.cruc.st = 0 ∧ mac = Config.hmac256 x.kHD (macInput k seq body) ∧ x.rx <
        seq ∧ seq < 2 ^ 64 ∧ (x.lastResp = [] ∨ beNat (body.take 8) ≠ x.lastReq)) ∧
    (∃ (s : State) (k : Fin 4) (seq : Nat) (body mac : List Byte) (x : Session),
      nth s.cruc.sessions k none = some x ∧ carries s x.carrier = true ∧ s.cruc.st = 0 ∧ mac = Config.hmac256 x.kHD (macInput k seq body) ∧ x.rx <
        seq ∧ seq < 2 ^ 64 ∧ body = []) ∧
    (∃ (s : State) (k : Fin 4) (seq : Nat) (body mac : List Byte) (x : Session),
      nth s.cruc.sessions k none = some x ∧ carries s x.carrier = true ∧ s.cruc.st = 0 ∧ (seq ≤ x.rx ∨ 2 ^ 64 ≤ seq) ∧ mac = Config.hmac256 x.kHD
        (macInput k seq body) ∧ body = []) ∧
    (∃ (s : State) (k : Fin 4) (seq : Nat) (body mac : List Byte) (x : Session),
      nth s.cruc.sessions k none = some x ∧ carries s x.carrier = true ∧ s.cruc.st = 0 ∧ mac ≠ Config.hmac256 x.kHD (macInput k seq body) ∧ body =
        []) ∧
    (∃ (s : State) (k : Fin 4) (x : Session),
      nth s.cruc.sessions k none = some x ∧ (2 ^ 32 ≤ x.rx ∨ 2 ^ 32 ≤ x.tx)) ∧
    (∃ (s : State) (k : Fin 4) (x : Session),
      nth s.cruc.sessions k none = some x ∧ x.rx < 2 ^ 32 ∧ x.tx < 2 ^ 32 ∧ x.opened + 1440 * minute ≤ s.tb.tick) ∧
    (∃ (s : State) (k : Fin 4) (x : Session),
      nth s.cruc.sessions k none = some x ∧ x.rx < 2 ^ 32 ∧ x.tx < 2 ^ 32 ∧ s.tb.tick < x.opened + 1440 * minute ∧ x.last + minute ≤ s.tb.tick) ∧
    (∃ (s : State) (k : Fin 4) (x : Session),
      nth s.cruc.sessions k none = some x ∧ x.rx < 2 ^ 32 ∧ x.tx < 2 ^ 32 ∧ s.tb.tick < x.opened + 1440 * minute ∧ s.tb.tick < x.last + minute) ∧
    (∃ (s : State) (k : Fin 4),
      nth s.cruc.sessions k none = none) ∧
    (∃ (s : State) (k : Nat) (x : Session),
      nth s.cruc.sessions k none = some x ∧ k < s.cruc.sessions.length) :=
  ⟨⟨up, .spi, [], by decide +kernel⟩,
   ⟨{ up with mgmt := { operators := [some { roles := 0, outMask := 0, key := [] }] } }, .spi, 4 :: List.replicate 129 0, by decide +kernel⟩,
   ⟨inCruc { helloFrom := 2 ^ 57 }, .spi, by decide⟩,
   ⟨{ up with cruc := { shake := some { shake with at_ := 2 ^ 56 } }, mgmt := { operators := [some { roles := 0, outMask := 0, key := [] }] } },
     .spi, [], [], { shake with at_ := 2 ^ 56 }, 0, ⟨by decide, rfl, rfl, by decide, rfl, rfl, .inr (.inl (by decide))⟩⟩,
   ⟨inCruc { shake := some { shake with at_ := 0 } }, .bar0, { shake with at_ := 0 }, ⟨by decide, rfl, by decide⟩⟩,
   ⟨inCruc { shake := some { shake with at_ := 0 } }, .spi, { shake with at_ := 0 }, ⟨by decide, rfl, rfl, by decide⟩⟩,
   ⟨inCruc { shake := some { shake with at_ := 2 ^ 56 } }, .spi, { shake with at_ := 2 ^ 56 }, ⟨by decide, rfl, rfl, by decide, .inr rfl⟩⟩,
   ⟨up, .internal, by decide⟩,
   ⟨up, by decide⟩,
   ⟨inCruc { shake := some { shake with at_ := 0 } }, { shake with at_ := 0 }, ⟨rfl, by decide⟩⟩,
   ⟨inCruc { shake := some { shake with at_ := 2 ^ 56 } }, { shake with at_ := 2 ^ 56 }, ⟨rfl, by decide⟩⟩,
   ⟨inCruc { shakeFails := List.replicate 7 (2 ^ 56) }, by decide⟩,
   ⟨up, by decide⟩,
   ⟨opened { sess with lastResp := [0] }, 3, 6, List.replicate 8 0, _, { sess with lastResp := [0] }, ⟨rfl, by decide, rfl, rfl, by decide, by
     decide, by decide, by decide⟩⟩,
   ⟨opened sess, 3, 6, [], _, sess, ⟨rfl, by decide, rfl, rfl, by decide, by decide, .inl rfl⟩⟩,
   ⟨opened sess, 3, 6, [], _, sess, ⟨rfl, by decide, rfl, rfl, by decide, by decide, rfl⟩⟩,
   ⟨opened sess, 3, 5, [], _, sess, ⟨rfl, by decide, rfl, by decide, rfl, rfl⟩⟩,
   ⟨opened sess, 3, 6, [], Config.hmac256 [] (macInput (3 : Fin 4) 6 []) ++ [0], sess, ⟨rfl, by decide, rfl, append_ne _, rfl⟩⟩,
   ⟨opened { sess with tx := 2 ^ 32 }, 3, { sess with tx := 2 ^ 32 }, by decide⟩,
   ⟨opened sess, 3, sess, by decide⟩,
   ⟨opened { sess with opened := 2 ^ 56 }, 3, { sess with opened := 2 ^ 56 }, by decide⟩,
   ⟨opened { sess with opened := 2 ^ 56, last := 2 ^ 56 }, 3, { sess with opened := 2 ^ 56, last := 2 ^ 56 }, by decide⟩,
   ⟨up, 0, by decide⟩,
   ⟨opened sess, 0, sess, ⟨rfl, by decide⟩⟩⟩

theorem test_hyp_DawnRunsAndEnds :
    (∃ (s : State),
      s.mode.dev = 0 ∧ s.mode.dawnStep = 1 ∧ s.mode.fail = 0 ∧ s.mode.core = false) ∧
    (∃ (s : State) (ok : Bool) (x : Sfdp),
      s.mode.dev = 0 ∧ s.mode.core = true ∧ s.mode.dawnStep = 4 ∧ s.mode.fail = 0 ∧ startFlash (flashRead ok x) = none) ∧
    (∃ (s : State) (ok : Bool) (x : Sfdp), ∃ fm pg un,
      s.mode.dev = 0 ∧ s.mode.core = true ∧ s.mode.dawnStep = 4 ∧ s.mode.fail = 0 ∧ startFlash (flashRead ok x) = some (fm, pg, un) ∧ (∀ a ∈
        s.fuse.anchors, a = none)) ∧
    (∃ (s : State) (ok : Bool) (x : Sfdp) (p : Fin 16), ∃ fm pg un,
      s.mode.dev = 0 ∧ s.mode.core = true ∧ s.mode.dawnStep = 4 ∧ s.mode.fail = 0 ∧ startFlash (flashRead ok x) = some (fm, pg, un) ∧ (∃ a ∈
        s.fuse.anchors, a ≠ none) ∧ (p : Nat) = 0) ∧
    (∃ (s : State) (ok : Bool) (x : Sfdp) (p : Fin 16), ∃ fm pg un,
      s.mode.dev = 0 ∧ s.mode.core = true ∧ s.mode.dawnStep = 4 ∧ s.mode.fail = 0 ∧ startFlash (flashRead ok x) = some (fm, pg, un) ∧ (∃ a ∈
        s.fuse.anchors, a ≠ none) ∧ (p : Nat) ≠ 0) ∧
    (∃ (s : State),
      s.mode.dev ≠ 0 ∨ s.mode.core = false ∨ s.mode.dawnStep ≠ 4 ∨ s.mode.fail ≠ 0) ∧
    (∃ (x : Sfdp),
      x.density < 2 ^ 26 ∨ 2 ^ 30 < x.density ∨ (∀ e ∈ x.erases, e < 4096)) ∧
    (∃ (x : Sfdp) (fm pg un : Nat), ∃ e,
      startFlash (some x) = some (fm, pg, un) ∧ 4096 ≤ e ∧ e ∈ x.erases) ∧
    (∃ (s : State),
      s.mode.dev ≠ 0 ∨ s.mode.dawnStep ≠ 1 ∨ s.mode.fail ≠ 0 ∨ s.mode.core = true) ∧
    (∃ (s : State),
      s.mode.dev = 0 ∧ s.mode.fail = 0 ∧ s.mode.dawnStep = 10 ∧ s.ladle.pending = none) ∧
    (∃ (s : State),
      s.mode.dev ≠ 0 ∨ s.mode.fail ≠ 0 ∨ s.mode.dawnStep ≠ 10 ∨ s.ladle.pending ≠ none) ∧
    (∃ (k : Nat),
      k < 12) ∧
    (∃ (s : State),
      s.mode.dev = 0 ∧ s.aod.sources ≠ 0) ∧
    (∃ (s : State),
      s.mode.dev = 0 ∧ s.aod.sources = 0) :=
  ⟨⟨State.reset, by decide⟩,
   ⟨inMode { core := true, dawnStep := 4 }, false, { density := 0, modes := 0, page := 0, erases := [] }, by decide⟩,
   ⟨inMode { core := true, dawnStep := 4 }, true, { density := 2 ^ 26, modes := 7, page := 256, erases := [4096] }, 3, 256, 4096, by decide⟩,
   ⟨{ inMode { core := true, dawnStep := 4 } with fuse := { anchors := [some []] } }, true,
     { density := 2 ^ 26, modes := 7, page := 256, erases := [4096] }, 0, 3, 256, 4096, by decide⟩,
   ⟨{ inMode { core := true, dawnStep := 4 } with fuse := { anchors := [some []] } }, true,
     { density := 2 ^ 26, modes := 7, page := 256, erases := [4096] }, 15, 3, 256, 4096, by decide⟩,
   ⟨up, by decide⟩,
   ⟨{ density := 0, modes := 0, page := 0, erases := [] }, by decide⟩,
   ⟨{ density := 2 ^ 26, modes := 7, page := 256, erases := [4096] }, 3, 256, 4096, 4096, by decide⟩,
   ⟨up, by decide⟩,
   ⟨inMode { dawnStep := 10 }, by decide⟩,
   ⟨up, by decide⟩,
   ⟨11, by decide⟩,
   ⟨State.reset, by decide⟩,
   ⟨{ State.reset with aod := { sources := 0 } }, by decide⟩⟩

theorem test_hyp_ModesAndDusk :
    (∃ (s : State) (path : PathId),
      serves s path = true ∧ hasRole s path 9 = true) ∧
    (∃ (s : State) (path : PathId),
      serves s path = true ∧ hasRole s path 9 = false) ∧
    (∃ (s : State) (o : Nat),
      showFails s o = []) ∧
    (∃ (s : State) (o : Nat),
      showFails s o = [5]) ∧
    (∃ (s : State) (o : Nat), ∃ c l,
      showFails s o = c :: l ∧ c :: l ≠ [5]) ∧
    (∃ (s : State),
      s.mode.dev = 7) ∧
    (∃ (s : State) (o : Nat),
      s.mode.dev ≠ 7 ∧ ((s.outAt o).entry.isSome = true ∨ ((s.outAt o).trans = false ∧ (s.outAt o).mode ≠ 5))) ∧
    (∃ (s : State) (o : Nat),
      s.mode.dev ≠ 7 ∧ (s.outAt o).entry = none ∧ (s.outAt o).trans = true) ∧
    (∃ (s : State) (o : Nat),
      s.mode.dev ≠ 7 ∧ (s.outAt o).entry = none ∧ (s.outAt o).trans = false ∧ (s.outAt o).mode = 5) ∧
    (∃ (s : State) (o : Nat),
      showFails s o = [] ∧ isScan s.act o = false) ∧
    (∃ (s : State) (o : Fin 4) (t : Nat),
      (s.outAt o).entry = some t ∧ t + 800000000 ≤ s.tb.tick) ∧
    (∃ (s : State) (o : Fin 4) (t : Nat),
      (s.outAt o).entry = some t ∧ s.tb.tick < t + 800000000) ∧
    (∃ (s : State) (o : Fin 4),
      (s.outAt o).entry = none) ∧
    (∃ (s : State) (o : Fin 4) (t : Nat),
      (s.outAt o).held = some t ∧ t + 400000000 ≤ s.tb.tick) ∧
    (∃ (s : State) (o : Fin 4) (t : Nat),
      (s.outAt o).held = some t ∧ s.tb.tick < t + 400000000) ∧
    (∃ (s : State) (o : Fin 4),
      (s.outAt o).held = none) ∧
    (∃ (s : State) (o : Nat),
      o < s.mode.outs.length ∧ (s.outAt o).exit = .none_ ∧ (s.outAt o).mode ≠ 1 ∧ (s.tgAt o).running = true ∧ o < s.tg.length) ∧
    (∃ (s : State) (path : PathId),
      serves s path = true ∧ hasRole s path 9 = true ∧ s.mode.dev ≠ 7 ∧ s.mode.dev ≠ 0) ∧
    (∃ (s : State) (path : PathId),
      serves s path = true ∧ hasRole s path 9 = false) ∧
    (∃ (s : State),
      s.mode.dev = 7) ∧
    (∃ (s : State),
      s.mode.dev ≠ 7) ∧
    (∃ (s : State),
      s.mode.dev ≠ 7 ∨ (s.mode.duskStep ≠ 6 ∧ s.mode.duskCause ≠ 2)) ∧
    (∃ (s : State),
      s.mode.dev = 7 ∧ (s.mode.duskStep = 6 ∨ s.mode.duskCause = 2)) ∧
    (∃ (s : State),
      s.mode.dev = 7 ∧ s.mode.duskStep = 4 ∧ s.therm.flashOpen = false ∧ s.mode.duskAt + 4000000000 ≤ s.tb.tick) ∧
    (∃ (s : State),
      s.mode.dev ≠ 7 ∨ s.mode.duskStep ≠ 4 ∨ s.therm.flashOpen = true ∨ s.tb.tick < s.mode.duskAt + 4000000000) ∧
    (∃ (s : State),
      s.mode.dev = 7 ∧ s.mode.duskStep = 5 ∧ s.hbm.training = false) ∧
    (∃ (s : State),
      s.mode.dev ≠ 7 ∨ s.mode.duskStep ≠ 5 ∨ s.hbm.training = true) ∧
    (∃ (s : State) (path : PathId),
      s.mode.core = true ∧ s.mode.dev = 7 ∧ (path = .spi ∨ path = .bar0) ∧ hasRole s path 9 = true) :=
  ⟨⟨up, .internal, by decide⟩,
   ⟨up, .spi, by decide⟩,
   ⟨ready 5, 0, by decide +kernel⟩,
   ⟨ready 0, 0, by decide +kernel⟩,
   ⟨up, 3, 3, [4, 6, 5], by decide +kernel⟩,
   ⟨inMode { dev := 7 }, by decide⟩,
   ⟨up, 0, by decide⟩,
   ⟨inOut { trans := true }, 0, by decide⟩,
   ⟨inOut { mode := 5 }, 0, by decide⟩,
   ⟨ready 5, 0, by decide⟩,
   ⟨inOut { entry := some (0) }, 3, 0, by decide⟩,
   ⟨inOut { entry := some (2 ^ 56) }, 3, 2 ^ 56, by decide⟩,
   ⟨up, 3, by decide⟩,
   ⟨inOut { held := some (0) }, 0, 0, by decide⟩,
   ⟨inOut { held := some (2 ^ 56) }, 0, 2 ^ 56, by decide⟩,
   ⟨up, 0, by decide⟩,
   ⟨State_with up { mode := 2 } { running := true }, 3, by decide⟩,
   ⟨up, .internal, by decide⟩,
   ⟨up, .spi, by decide⟩,
   ⟨inMode { dev := 7 }, by decide⟩,
   ⟨up, by decide⟩,
   ⟨up, by decide⟩,
   ⟨inMode { dev := 7, duskStep := 6 }, by decide⟩,
   ⟨inMode { dev := 7, duskStep := 4 }, by decide⟩,
   ⟨up, by decide⟩,
   ⟨inMode { dev := 7, duskStep := 5 }, by decide⟩,
   ⟨up, by decide⟩,
   ⟨{ inMode { dev := 7, core := true } with mgmt := { spiRoles := 0x3FF } }, .spi, by decide⟩⟩

/-- A handshake that a signature over `m` answers, of an operator with a key. -/
def shaken (pub m : List Byte) : State :=
  { up with cruc := { shake := some { shake with hello := m } }, mgmt := { operators := [some { roles := 0, outMask := 0, key := pub }] } }
/-- An acceptance meets its hypotheses once some signature is judged either way: what the free judgement answers is not the model's. -/
theorem test_hyp_Sessions_signature (b : Bool) (pub l m : List Byte) (hl : l.length = 96) (hv : Config.ecdsaVerify pub l m = b) :
    ∃ (s : State) (h : Handshake) (k : Nat), carries s .spi = true ∧ s.cruc.shake = some h ∧ h.carrier = .spi ∧
      s.cruc.sessions.findIdx? Option.isNone = some k ∧ operatorKey s h.op = some pub ∧ s.cruc.st = 0 ∧ l.length = 96 ∧
      Config.ecdsaVerify pub l (h.hello ++ h.challenge) = b :=
  ⟨shaken pub m, { shake with hello := m }, 0, rfl, rfl, rfl, rfl, rfl, rfl, hl, (congrArg (Config.ecdsaVerify pub l) (List.append_nil m)).trans hv⟩
/-- A device of the identity 1 that knows an issuer. -/
def keyed (pub : List Byte) : State := { up with fuse := { devId := 1 }, mgmt := { issuers := [some pub] } }
/-- A key message is stored once its signature is judged good and its key unwraps. -/
theorem test_hyp_KeysAndTheirProtection_stored (pub key : List Byte)
    (hv : Config.ecdsaVerify pub (kdmMsg.bytes.drop 200) (kdmMsg.bytes.take 200) = true)
    (hu : Config.aesUnwrap (kdmKek (keyed pub) kdmMsg) ((kdmMsg.bytes.drop 160).take 40) = some key) :
    ∃ (s t : State) (k : Kdm), judgeKdm s k = (0, t) := by
  refine ⟨keyed pub, (judgeKdm (keyed pub) kdmMsg).2, kdmMsg, Prod.ext ?_ rfl⟩
  rw [judgeKdm, if_neg (by exact fun h => h rfl), if_neg (by decide), if_neg (by exact fun h => h rfl)]
  rw [show nth (keyed pub).mgmt.issuers kdmMsg.slot.issuer none = some pub from rfl]
  simp only [hv, hu]
  rfl

/-! ## Values and single steps that the specification gives -/

/-- The state a command leaves. -/
def after (c : Instr) (s : State) : State := match exec c s with | .next t => t | _ => s

/-- R295, the worked example: 0x1_2345_6780 under order 3 and under order 0. -/
theorem test_hbm_place_order3 : hbmPlace 3 0x123456780 = ⟨10, 1, 0, 2, 1, 0x1234, 24⟩ := by decide
theorem test_hbm_place_order0 : ((hbmPlace 0 0x123456780).ch, (hbmPlace 0 0x123456780).bg, (hbmPlace 0 0x123456780).bank) = (14, 2, 2) := by decide
/-- R321, the worked example: RUNNER_09 wins at x = 40,000, and from 39,719 to 51,634. -/
def exampleTickets (r : Nat) : Nat := [32, 32, 32, 32, 0, 0, 0, 0, 16, 24, 24, 24, 24, 8, 4, 4].getD r 0
theorem test_lottery_example : [39718, 39719, 40000, 51634, 51635].map (fun x => lotteryWinner exampleTickets x [0, 1, 8, 9, 10, 15]) =
    [some 8, some 9, some 9, some 9, some 10] := by decide
/-- R517, R518, R396: the check words of the nine digits, from the definitions of those codes. -/
def digits : List Byte := [0x31, 0x32, 0x33, 0x34, 0x35, 0x36, 0x37, 0x38, 0x39]
theorem test_check_words : (crc32c digits, crc32 digits, crc16 digits) = (0xE3069283, 0xCBF43926, 0x29B1) := by decide +kernel
/-- R61, the signage scanner: 1600 × 900 with three channels takes 9,600 bytes a line and 8,640,000 a buffer. -/
def signage : WordMap := [(aFsLayout 3, 0xB3840640)]
theorem test_scan_buffer : (lineBytes signage 3, bufBytesScan signage 3) = (9600, 8640000) := by decide
/-- R59, the cinema channel: 4096 × 2160 planes of 1,105,920 bytes. -/
theorem test_plane_bytes : planeBytes [(aFsLayout 1, 0x18701000)] 1 = 1105920 := by decide
/-- R359: a threshold is entered once its condition has held for 8 ms. -/
theorem test_threshold_dwell : (Threshold.judge { since := some 0 } 3199999 true false, Threshold.judge { since := some 0 } 3200000 true false) =
    (({ since := some 0 }, false), ({ entered := true }, true)) := by decide
/-- R65 and the idle step of the log: with no command waiting TICK counts one. -/
theorem test_idle_tick : (match step up with | .next t => t.tb.tick | _ => 0) = 2 ^ 56 + 1 := by decide
/-- R406: a trip sets the latch and its source. -/
theorem test_quenchTrip : ((after (.quenchTrip ⟨3, 0, 0⟩) up).aod.latch, (after (.quenchTrip ⟨3, 0, 0⟩) up).aod.sources, (after (.quenchTrip ⟨3, 0, 0⟩) up).aod.first) = (true, 8, 3) := by decide +kernel
/-- R80: an event posted for a time goes into its queue. -/
theorem test_eventPost : ((after (.eventPost 0 1 0 4000 0 0) up).seqAt 0).queue.map (·.fire) = [2 ^ 56 + 4000] := by decide +kernel
/-- R305: at 85 °C the stack is hot. -/
theorem test_hbmTempRead : (after (.hbmTempRead 680) (inHbm { st := 1 })).hbm.hot = true := by decide +kernel
/-- R325: a lock request of a Runner below RUNNER_14 is refused. -/
theorem test_lockRequest : (after (.lockRequest 13 0 false 1) up).run.refused.getD 13 0 = 1 := by decide +kernel
/-- R319: a request of a free channel with no other request is granted. -/
theorem test_runnerRequest : ((after (.runnerRequest 3 7) (inHbm { st := 1 })).chanAt 7).owner = some 3 := by decide +kernel
/-- R138: a command whose echo stays out is sent again. -/
theorem test_commandEchoTimeout : ((after (.commandEchoTimeout 0) (inPort { cmd := some { opcode := 1, arg := 0, seq := 1, tries := 1 } })).portAt 0).cmd.map
    (·.tries) = some 2 := by decide +kernel
/-- R122: the string at the head of the queue begins its ramp. -/
theorem test_stringAdmit : ((after .stringAdmit (inStr up { st := 1 })).strAt 0).st = 2 := by decide +kernel
/-- R340: a surface that is mapped is being revoked after FREE. -/
theorem test_surfCmdFree : ((after (.surfCmdFree .internal 0) (inSurf { surfs := [(0, { st := 2 })] })).surfAt 0).st = 3 := by decide +kernel
/-- R489: DUSK is entered on the command. -/
theorem test_modeCmdDusk : (after (.modeCmdDusk .internal) up).mode.dev = 7 := by decide +kernel
/-- R462: an access whose address is no multiple of 4 has RESULT 1. -/
theorem test_mgmtWrite_misaligned : (after (.mgmtWrite .internal 2 [0]) up).mgmt.answerStatus = 1 := by decide +kernel
/-- R403: with MODE 0 the interlock is safe when both inputs are high. -/
theorem test_ilkSafe : (ilkSafe { up with guard := { ilkA := true, ilkB := true } }, ilkSafe { up with guard := { ilkA := true } }) = (true, false) := by
  decide +kernel
/-- R473: RESET_N begins Dawn with the latch set. -/
theorem test_resetNAssert : ((after .resetNAssert up).mode.dev, (after .resetNAssert up).aod.latch) = (0, true) := by decide +kernel

/-! ## Ill-formed commands -/

theorem test_illformed_eventPost_0 : Instr.wf (.eventPost 0 16 0 0 0 0) = false := by decide
theorem test_illformed_eventPost_1 : Instr.wf (.eventPost 0 0 256 0 0 0) = false := by decide
theorem test_illformed_eventPost_2 : Instr.wf (.eventPost 0 0 0 (2 ^ 56) 0 0) = false := by decide
theorem test_illformed_eventPost_3 : Instr.wf (.eventPost 0 0 0 0 25 0) = false := by decide
theorem test_illformed_eventPost_4 : Instr.wf (.eventPost 0 0 0 0 0 (2 ^ 48)) = false := by decide
theorem test_illformed_sprueSpill : Instr.wf (.sprueSpill 16384 true) = false := by decide
theorem test_illformed_lsWrite : Instr.wf (.lsWrite .spi (2 ^ 32) 0) = false := by decide
theorem test_illformed_registerWrite : Instr.wf (.registerWrite .spi (2 ^ 32) 0) = false := by decide
theorem test_illformed_rlvMessageReceive : Instr.wf (.rlvMessageReceive [] 0) = false := by decide
theorem test_illformed_rlvForward : Instr.wf (.rlvForward []) = false := by decide
theorem test_illformed_portCmdStatusReq : Instr.wf (.portCmdStatusReq .spi 0 256) = false := by decide
theorem test_illformed_portCmdTestPattern : Instr.wf (.portCmdTestPattern .spi 0 256) = false := by decide
theorem test_illformed_pdSample : Instr.wf (.pdSample 0 (2 ^ 16)) = false := by decide
theorem test_illformed_pdFault : Instr.wf (.pdFault 0 ⟨2 ^ 16, []⟩) = false := by decide
theorem test_illformed_captureFrameStart_0 : Instr.wf (.captureFrameStart 0 {} 0 25 ⟨none, none⟩ 0 none) = false := by decide
theorem test_illformed_captureFrameStart_1 : Instr.wf (.captureFrameStart 0 {} 0 0 ⟨some (2 ^ 32), none⟩ 0 none) = false := by decide
theorem test_illformed_captureFrameStart_2 : Instr.wf (.captureFrameStart 0 {} 0 0 ⟨none, some (2 ^ 32)⟩ 0 none) = false := by decide
theorem test_illformed_captureFrameStart_3 : Instr.wf (.captureFrameStart 0 {} 0 0 ⟨none, none⟩ (2 ^ 32) none) = false := by decide
theorem test_illformed_ethPacketReceive_0 : Instr.wf (.ethPacketReceive 0 0 0 []) = false := by decide
theorem test_illformed_ethPacketReceive_1 : Instr.wf (.ethPacketReceive 6 0 (2 ^ 32) []) = false := by decide
theorem test_illformed_capPktLoss : Instr.wf (.capPktLoss 0) = false := by decide
theorem test_illformed_capPathLost : Instr.wf (.capPathLost 0 0) = false := by decide
theorem test_illformed_ptpMessage : Instr.wf (.ptpMessage 0 256) = false := by decide
theorem test_illformed_dpAuxRequest_0 : Instr.wf (.dpAuxRequest 0 false false (2 ^ 20) [] 1) = false := by decide
theorem test_illformed_dpAuxRequest_1 : Instr.wf (.dpAuxRequest 0 true false 0 (List.replicate 17 0) 1) = false := by decide +kernel
theorem test_illformed_dpAuxRequest_2 : Instr.wf (.dpAuxRequest 0 false false 0 [] 17) = false := by decide
theorem test_illformed_hostAccessErr : Instr.wf (.hostAccessErr 0 4 true) = false := by decide
theorem test_illformed_hbmTransaction : Instr.wf (.hbmTransaction 0 0 0 true (List.replicate 65 0) 0 0) = false := by decide +kernel
theorem test_illformed_lockCommit_0 : Instr.wf (.lockCommit 14 0 (List.replicate 65 0) 0) = false := by decide +kernel
theorem test_illformed_lockCommit_1 : Instr.wf (.lockCommit 0 0 [] 0) = false := by decide
theorem test_illformed_sensorConversion : Instr.wf (.sensorConversion []) = false := by decide
theorem test_illformed_annealCheckDone : Instr.wf (.annealCheckDone [] 0) = false := by decide
theorem test_illformed_kdmDiscard : Instr.wf (.kdmDiscard .spi (2 ^ 16)) = false := by decide
theorem test_illformed_sessionHello_0 : Instr.wf (.sessionHello .spi (2 ^ 32) 0 []) = false := by decide
theorem test_illformed_sessionHello_1 : Instr.wf (.sessionHello .spi 0 (2 ^ 16) []) = false := by decide
theorem test_illformed_sessionRequest_0 : Instr.wf (.sessionRequest 0 (2 ^ 64) [] (List.replicate 32 0)) = false := by decide +kernel
theorem test_illformed_sessionRequest_1 : Instr.wf (.sessionRequest 0 0 (List.replicate 1425 0) (List.replicate 32 0)) = false := by decide +kernel
theorem test_illformed_sessionRequest_2 : Instr.wf (.sessionRequest 0 0 [] []) = false := by decide
theorem test_illformed_sessionResend_0 : Instr.wf (.sessionResend 0 (2 ^ 64) [] (List.replicate 32 0)) = false := by decide +kernel
theorem test_illformed_sessionResend_1 : Instr.wf (.sessionResend 0 0 (List.replicate 1425 0) (List.replicate 32 0)) = false := by decide +kernel
theorem test_illformed_sessionResend_2 : Instr.wf (.sessionResend 0 0 [] []) = false := by decide
theorem test_illformed_sessionClose_0 : Instr.wf (.sessionClose 0 (2 ^ 64) (List.replicate 32 0)) = false := by decide +kernel
theorem test_illformed_sessionClose_1 : Instr.wf (.sessionClose 0 0 []) = false := by decide
theorem test_illformed_mgmtRead_0 : Instr.wf (.mgmtRead .spi (2 ^ 32) 1) = false := by decide
theorem test_illformed_mgmtRead_1 : Instr.wf (.mgmtRead .spi 0 0) = false := by decide
theorem test_illformed_mgmtWrite_0 : Instr.wf (.mgmtWrite .spi (2 ^ 32) [0]) = false := by decide
theorem test_illformed_mgmtWrite_1 : Instr.wf (.mgmtWrite .spi 0 []) = false := by decide
theorem test_illformed_mgmtPour : Instr.wf (.mgmtPour .spi 0 (2 ^ 64)) = false := by decide
theorem test_illformed_ingotBegin : Instr.wf (.ingotBegin .spi (2 ^ 32)) = false := by decide
theorem test_illformed_ingotData_0 : Instr.wf (.ingotData .spi (2 ^ 32) []) = false := by decide
theorem test_illformed_ingotData_1 : Instr.wf (.ingotData .spi 0 (List.replicate 1025 0)) = false := by decide +kernel
theorem test_illformed_mgmtTime : Instr.wf (.mgmtTime .spi (2 ^ 64)) = false := by decide
theorem test_illformed_dawnLanesDone : Instr.wf (.dawnLanesDone false ⟨0, 0, 0, []⟩ 0 []) = false := by decide

end Sys2Proof.Tests
end

section
/-! SUPPORT. Every command completes and only grows the core of the state: one lemma for each command, family by family, each over
the laws of the operations that the command calls. -/
namespace Sys2Proof.Machine

variable {a : FuseState × List Instr × Memory × Memory × Memory × List Nat × List Nat} {s : State}

/-- The outcome of a command run in `s`: it completes, and the state it leaves only grows the core of `s`. -/
def NextGrows (s : State) (r : Host.Outcome State Fault Refusal) : Prop := ∃ t, r = .next t ∧ Grows s.core t.core

@[simp] theorem nextGrows_next {t : State} : NextGrows s (.next t) ↔ Grows s.core t.core := by
  simp [NextGrows]

@[simp] theorem nextGrows_ite (c : Prop) [Decidable c] (x y : Host.Outcome State Fault Refusal) :
    NextGrows s (if c then x else y) ↔ (c → NextGrows s x) ∧ (¬ c → NextGrows s y) := by
  split <;> simp [*]

/-! ### Operations -/

/-- An update of the drive that keeps the number of strings, whatever the state it is made in. -/
@[simp] theorem core_drive_of_forall (s : State) (f : DriveState → DriveState) (h : ∀ d, (f d).strings.length = d.strings.length) :
    (s.modDrive f).core = s.core := core_drive _ _ (h _)
/-- An update of the modes that keeps the number of outputs, whatever the state it is made in. -/
@[simp] theorem core_mode_of_forall (s : State) (f : ModeState → ModeState) (h : ∀ d, (f d).outs.length = d.outs.length) :
    (s.modMode f).core = s.core := core_mode _ _ (h _)
/-- An update of the HBM3 controller that keeps the stack's content, whatever the state it is made in. -/
@[simp] theorem core_hbm_of_forall (s : State) (f : HbmState → HbmState) (h : ∀ d, (f d).mem = d.mem) :
    (s.modHbm f).core = s.core := core_hbm _ _ (h _)

@[simp] theorem settleDebts_mem (h : HbmState) (now : Nat) : (settleDebts h now).mem = h.mem := by simp [settleDebts]
@[simp] theorem zeroDebts_mem (h : HbmState) (now : Nat) : (zeroDebts h now).mem = h.mem := by simp [zeroDebts]
@[simp] theorem closeChannel_mem (h : HbmState) (ch : Nat) : (closeChannel h ch).mem = h.mem := by simp [closeChannel]
@[simp] theorem endPass_mem (h : HbmState) (now : Nat) : (endPass h now).mem = h.mem := by simp [endPass]

theorem grows_withRole (path : PathId) (role addr : Nat) (f : State → State) (hf : ∀ t, Grows a t.core → Grows a (f t).core)
    (h : Grows a s.core) : Grows a (withRole s path role addr f).core := by
  unfold withRole
  split
  · exact h
  · split
    · exact hf _ h
    · simpa using h

theorem grows_extConversion (x code : Nat) (bad : Fin 4) (h : Grows a s.core) : Grows a (extConversion x code bad s).core := by
  simp [extConversion, h]

theorem wf_buildTables (i : Nat) (x : Surface) (m : Memory) (h : Memory.wf ramDefault m = true) :
    Memory.wf ramDefault (buildTables i x m) = true :=
  Memory.wf_foldl _ _ (fun _ _ => Memory.wf_store _ _ _ _) _ _ (Memory.wf_foldl _ _ (fun _ _ => Memory.wf_store _ _ _ _) _ _ h)

theorem wf_storeFrame (s : State) (f : FrameUC) (o : Nat) (h : Memory.wf ramDefault s.fs = true) :
    Memory.wf ramDefault (storeFrame s f o) = true := by
  unfold storeFrame
  dsimp only
  split
  · exact Memory.wf_foldl _ _ (fun _ _ => Memory.wf_store _ _ _ _) _ _ h
  · exact Memory.wf_foldl _ _ (fun _ _ => Memory.wf_store _ _ _ _) _ _ h

/-- A frame made out of the frame store of `s` replaces that of a later state. -/
theorem grows_storeFrame {t : State} (f : FrameUC) (o : Nat) (h : Grows s.core t.core) :
    Grows s.core { t with fs := storeFrame s f o }.core := by
  obtain ⟨hfuse, hqueue, hok⟩ := h
  refine ⟨hfuse, hqueue, fun w => ?_⟩
  obtain ⟨hflash, -, hrest⟩ := hok w
  obtain ⟨-, hfs, -⟩ := w
  exact ⟨hflash, wf_storeFrame _ _ _ hfs, hrest⟩

/-- Bytes stored at the places a host access resolved to. -/
theorem grows_hostStore (l : List (Nat × Nat)) (bs : List Byte) (h : Grows a s.core) :
    Grows a (s.modHbm fun x => { x with
      mem := (List.zip l bs).foldl (fun m e => Sparse.set ramDefault m e.1.2 e.2) x.mem }).core :=
  grows_hbm _ (Memory.wf_foldl _ _ (fun _ _ => Sparse.wf_set _ _ _ _) _ _) h

/-! ### Ingot -/

@[simp] theorem nextGrows_execIngotEraseDone : NextGrows s (execIngotEraseDone s) := by
  unfold execIngotEraseDone
  split <;> simp

/-! ### Thermal -/

@[simp] theorem nextGrows_execTemperLevelStep : NextGrows s (execTemperLevelStep s) := by
  simp [execTemperLevelStep]
@[simp] theorem nextGrows_execSensorFailHoldEnd : NextGrows s (execSensorFailHoldEnd s) := by
  simp [execSensorFailHoldEnd]
@[simp] theorem nextGrows_execJournalWriteDone : NextGrows s (execJournalWriteDone s) := by
  unfold execJournalWriteDone
  split
  · simp
  · simp only [nextGrows_next, core_journalKick]
    refine grows_journalAdvance ?_
    simp only [core_ite, core_mode_of_forall, core_aod, core_jrn, ite_self, implies_true]
    exact grows_flash _ (Memory.wf_store _ _ _ _) (Grows.refl _)
@[simp] theorem nextGrows_execDroopSample (i count : Nat) : NextGrows s (execDroopSample i count s) := by
  simp [execDroopSample]
@[simp] theorem nextGrows_execDroopClear : NextGrows s (execDroopClear s) := by
  simp [execDroopClear]
@[simp] theorem nextGrows_execDomainWakeRequest (d : Nat) : NextGrows s (execDomainWakeRequest d s) := by
  simp [execDomainWakeRequest]
@[simp] theorem nextGrows_execDomainWakeAdmit : NextGrows s (execDomainWakeAdmit s) := by
  unfold execDomainWakeAdmit
  split <;> simp
@[simp] theorem nextGrows_execDomainUsable (d : Nat) : NextGrows s (execDomainUsable d s) := by
  simp [execDomainUsable]
@[simp] theorem nextGrows_execDomainSleep (d : Nat) : NextGrows s (execDomainSleep d s) := by
  simp [execDomainSleep]

/-! ### Modes -/

@[simp] theorem nextGrows_execModeCmdShow (path : PathId) (outs : Nat) : NextGrows s (execModeCmdShow path outs s) := by
  simp [execModeCmdShow]
@[simp] theorem nextGrows_execModeCmdStandby (path : PathId) (outs : Nat) : NextGrows s (execModeCmdStandby path outs s) := by
  simp [execModeCmdStandby]
@[simp] theorem nextGrows_execModeCmdDusk (path : PathId) : NextGrows s (execModeCmdDusk path s) := by
  simp [execModeCmdDusk]
@[simp] theorem nextGrows_execEntryTimeout (o : Nat) : NextGrows s (execEntryTimeout o s) := by
  unfold execEntryTimeout
  split <;> simp
@[simp] theorem nextGrows_execHeldRequestTimeout (o : Nat) : NextGrows s (execHeldRequestTimeout o s) := by
  unfold execHeldRequestTimeout
  split <;> simp

/-! ### Guard -/

@[simp] theorem nextGrows_execZoneSigCheck : NextGrows s (execZoneSigCheck s) := by
  refine nextGrows_next.2 (grows_foldl _ (fun t o ht => ?_) _ (Grows.refl _))
  simp [ht]
@[simp] theorem nextGrows_execIlkInputChange (a b : Bool) : NextGrows s (execIlkInputChange a b s) := by
  simp [execIlkInputChange]
@[simp] theorem nextGrows_execIlkDiscrepancy : NextGrows s (execIlkDiscrepancy s) := by
  simp [execIlkDiscrepancy]
@[simp] theorem nextGrows_execQuenchNInput (low : Bool) : NextGrows s (execQuenchNInput low s) := by
  simp [execQuenchNInput]
@[simp] theorem nextGrows_execGuardCmdQuench (path : PathId) : NextGrows s (execGuardCmdQuench path s) := by
  simp [execGuardCmdQuench]
@[simp] theorem nextGrows_execCoreLost (vcoreLow : Bool) : NextGrows s (execCoreLost vcoreLow s) := by
  simp [execCoreLost]
@[simp] theorem nextGrows_execGuardCmdRelease (path : PathId) : NextGrows s (execGuardCmdRelease path s) := by
  exact nextGrows_next.2 (grows_withRole _ _ _ _ (fun _ ht => grows_requestRelease _ ht) (Grows.refl _))
@[simp] theorem nextGrows_execQuenchAutoRelease : NextGrows s (execQuenchAutoRelease s) := by
  simp [execQuenchAutoRelease]

/-! ### Drive -/

@[simp] theorem nextGrows_execPdFault (k : Nat) (r : PdReading) : NextGrows s (execPdFault k r s) := by
  simp [execPdFault]
@[simp] theorem nextGrows_execPdFaultClear (path : PathId) (v : Word) : NextGrows s (execPdFaultClear path v s) := by
  simp [execPdFaultClear]
@[simp] theorem nextGrows_execMeasurementWindowEnd (nn : Nat) (isns vhr vk : List Nat) :
    NextGrows s (execMeasurementWindowEnd nn isns vhr vk s) := by
  simp [execMeasurementWindowEnd]
@[simp] theorem nextGrows_execStringOvercurrent (nn sense : Nat) : NextGrows s (execStringOvercurrent nn sense s) := by
  simp [execStringOvercurrent]
@[simp] theorem nextGrows_execStringOverlimit (nn sense : Nat) : NextGrows s (execStringOverlimit nn sense s) := by
  simp [execStringOverlimit]
@[simp] theorem nextGrows_execQuenchTrip (c : TripCause) : NextGrows s (execQuenchTrip c s) := by
  unfold execQuenchTrip
  split <;> simp
@[simp] theorem nextGrows_execStringFailClear (path : PathId) (nn : Nat) : NextGrows s (execStringFailClear path nn s) := by
  simp [execStringFailClear]
@[simp] theorem nextGrows_execHeadroomLow (nn vk : Nat) : NextGrows s (execHeadroomLow nn vk s) := by
  simp [execHeadroomLow]
@[simp] theorem nextGrows_execLampBoardTempUpdate (b : Nat) : NextGrows s (execLampBoardTempUpdate b s) := by
  simp [execLampBoardTempUpdate]
@[simp] theorem nextGrows_execStringAdmit : NextGrows s (execStringAdmit s) := by
  unfold execStringAdmit
  split <;> simp
@[simp] theorem nextGrows_execStringReady (nn : Nat) : NextGrows s (execStringReady nn s) := by
  simp [execStringReady]
@[simp] theorem nextGrows_execStringRampTimeout (nn : Nat) : NextGrows s (execStringRampTimeout nn s) := by
  simp [execStringRampTimeout]

/-! ### Scan -/

@[simp] theorem nextGrows_execFastAxisCapture (o : Nat) : NextGrows s (execFastAxisCapture o s) := by
  simp [execFastAxisCapture]
@[simp] theorem nextGrows_execFastAxisCrossing (o t peak : Nat) : NextGrows s (execFastAxisCrossing o t peak s) := by
  simp [execFastAxisCrossing]
@[simp] theorem nextGrows_execFastStop (o : Nat) : NextGrows s (execFastStop o s) := by
  simp [execFastStop]
@[simp] theorem nextGrows_execScanLockTimeout (o : Nat) : NextGrows s (execScanLockTimeout o s) := by
  simp [execScanLockTimeout]
@[simp] theorem nextGrows_execSlowStallWindow (o mean : Nat) : NextGrows s (execSlowStallWindow o mean s) := by
  simp [execSlowStallWindow]
@[simp] theorem nextGrows_execScanSample (o filled : Nat) : NextGrows s (execScanSample o filled s) := by
  unfold execScanSample
  dsimp only
  repeat' split
  all_goals simp
@[simp] theorem nextGrows_execScanLineEnd (o : Nat) : NextGrows s (execScanLineEnd o s) := by
  simp [execScanLineEnd]
@[simp] theorem nextGrows_execPdSample (k code : Nat) : NextGrows s (execPdSample k code s) := by
  simp [execPdSample]

/-! ### Port -/

@[simp] theorem nextGrows_execLoadStart (o : Nat) : NextGrows s (execLoadStart o s) := by
  unfold execLoadStart
  dsimp only
  split <;> simp
@[simp] theorem nextGrows_execLoadDone (o : Nat) : NextGrows s (execLoadDone o s) := by
  unfold execLoadDone
  split <;> simp
@[simp] theorem nextGrows_execLoadLate (o : Nat) : NextGrows s (execLoadLate o s) := by
  unfold execLoadLate
  dsimp only
  split <;> simp
@[simp] theorem nextGrows_execCommandEchoTimeout (o : Nat) : NextGrows s (execCommandEchoTimeout o s) := by
  unfold execCommandEchoTimeout
  split <;> simp
@[simp] theorem nextGrows_execPortCmdStatusReq (path : PathId) (o kind : Nat) :
    NextGrows s (execPortCmdStatusReq path o kind s) := by
  simp [execPortCmdStatusReq]
@[simp] theorem nextGrows_execPortCmdTestPattern (path : PathId) (o arg : Nat) :
    NextGrows s (execPortCmdTestPattern path o arg s) := by
  simp [execPortCmdTestPattern]
@[simp] theorem nextGrows_execBringupStepTimeout (o : Nat) : NextGrows s (execBringupStepTimeout o s) := by
  simp [execBringupStepTimeout]
@[simp] theorem nextGrows_execBringupRestart (o : Nat) : NextGrows s (execBringupRestart o s) := by
  simp [execBringupRestart]
@[simp] theorem nextGrows_execBchFrameReceive (o : Nat) (bytes : List Byte) : NextGrows s (execBchFrameReceive o bytes s) := by
  unfold execBchFrameReceive
  repeat' split
  all_goals simp
@[simp] theorem nextGrows_execBchSilence (o : Nat) : NextGrows s (execBchSilence o s) := by
  simp [execBchSilence]
@[simp] theorem nextGrows_execLinkDownTimeout (o : Nat) : NextGrows s (execLinkDownTimeout o s) := by
  simp [execLinkDownTimeout]
@[simp] theorem nextGrows_execSyncNHigh (o : Nat) : NextGrows s (execSyncNHigh o s) := by
  simp [execSyncNHigh]
@[simp] theorem nextGrows_execJesdUp (o : Nat) : NextGrows s (execJesdUp o s) := by
  simp [execJesdUp]
@[simp] theorem nextGrows_execJesdDown (o : Nat) : NextGrows s (execJesdDown o s) := by
  simp [execJesdDown]
@[simp] theorem nextGrows_execJesdSyncError (o : Nat) : NextGrows s (execJesdSyncError o s) := by
  simp [execJesdSyncError]

/-! ### Sequencer -/

@[simp] theorem nextGrows_execEventPost (o : Nat) (cls idx fire fine payload : Nat) :
    NextGrows s (execEventPost o cls idx fire fine payload s) := by
  unfold execEventPost
  dsimp only
  repeat' split
  all_goals simp
@[simp] theorem nextGrows_execEventFire (o : Nat) (twinOk : Bool) : NextGrows s (execEventFire o twinOk s) := by
  unfold execEventFire
  split <;> simp
@[simp] theorem nextGrows_execSlackClear (path : PathId) (v : Word) : NextGrows s (execSlackClear path v s) := by
  simp [execSlackClear]
@[simp] theorem nextGrows_execTbTickLoRead (path : PathId) : NextGrows s (execTbTickLoRead path s) := by
  simp [execTbTickLoRead]
@[simp] theorem nextGrows_execFrameCntLoRead (path : PathId) (o : Nat) : NextGrows s (execFrameCntLoRead path o s) := by
  simp [execFrameCntLoRead]
@[simp] theorem nextGrows_execPtpOfsLoRead (path : PathId) : NextGrows s (execPtpOfsLoRead path s) := by
  simp [execPtpOfsLoRead]
@[simp] theorem nextGrows_execTbReferenceSample (err : Int) : NextGrows s (execTbReferenceSample err s) := by
  simp [execTbReferenceSample]
@[simp] theorem nextGrows_execTbRefLost : NextGrows s (execTbRefLost s) := by
  simp [execTbRefLost]
@[simp] theorem nextGrows_execTbHoldoverExit : NextGrows s (execTbHoldoverExit s) := by
  simp [execTbHoldoverExit]
@[simp] theorem nextGrows_execTbLocked : NextGrows s (execTbLocked s) := by
  simp [execTbLocked]

/-! ### Frame -/

@[simp] theorem nextGrows_execGenlockReference (o instant : Nat) : NextGrows s (execGenlockReference o instant s) := by
  simp [execGenlockReference]
@[simp] theorem nextGrows_execTgRefLost (o : Nat) : NextGrows s (execTgRefLost o s) := by
  simp [execTgRefLost]
@[simp] theorem nextGrows_execFrameBoundary (o : Nat) : NextGrows s (execFrameBoundary o s) := by
  simp [execFrameBoundary]
@[simp] theorem nextGrows_execTgRestart (o : Nat) : NextGrows s (execTgRestart o s) := by
  unfold execTgRestart
  split <;> simp [grows_restartTiming]
@[simp] theorem nextGrows_execFrameHeadPost (o : Nat) : NextGrows s (execFrameHeadPost o s) := by
  unfold execFrameHeadPost
  dsimp only
  split <;> simp
@[simp] theorem nextGrows_execDisableDone (k : Nat) : NextGrows s (execDisableDone k s) := by
  unfold execDisableDone
  split <;> simp

/-! ### Arbiter -/

@[simp] theorem nextGrows_execRunnerRequest (r h : Nat) : NextGrows s (execRunnerRequest r h s) := by
  simp [execRunnerRequest]
@[simp] theorem nextGrows_execRunnerRelease (r h : Nat) : NextGrows s (execRunnerRelease r h s) := by
  simp [execRunnerRelease]
@[simp] theorem nextGrows_execHbmTokenWaitEnd : NextGrows s (execHbmTokenWaitEnd s) := by
  simp [execHbmTokenWaitEnd]
@[simp] theorem nextGrows_execLockRequest (r h : Nat) (waits : Bool) (count : Nat) :
    NextGrows s (execLockRequest r h waits count s) := by
  simp [execLockRequest]
@[simp] theorem nextGrows_execRunnerReset (r : Nat) : NextGrows s (execRunnerReset r s) := by
  simp [execRunnerReset]
@[simp] theorem nextGrows_execWaitCycle (members : List (Fin 16)) : NextGrows s (execWaitCycle members s) := by
  unfold execWaitCycle
  split <;> simp
@[simp] theorem nextGrows_execLockRollback : NextGrows s (execLockRollback s) := by
  unfold execLockRollback
  split <;> simp

/-! ### Hbm -/

@[simp] theorem nextGrows_execHbmRefresh (ch : Nat) : NextGrows s (execHbmRefresh ch s) := by
  simp [execHbmRefresh]
@[simp] theorem nextGrows_execHbmRefreshDone (ch : Nat) : NextGrows s (execHbmRefreshDone ch s) := by
  simp [execHbmRefreshDone]
@[simp] theorem nextGrows_execHbmTempRead (temp : Int) : NextGrows s (execHbmTempRead temp s) := by
  simp [execHbmTempRead]
@[simp] theorem nextGrows_execHbmFspDrained : NextGrows s (execHbmFspDrained s) := by
  simp [execHbmFspDrained]
@[simp] theorem nextGrows_execHbmFspDone : NextGrows s (execHbmFspDone s) := by
  simp [execHbmFspDone]
@[simp] theorem nextGrows_execHbmRetrainStart : NextGrows s (execHbmRetrainStart s) := by
  simp [execHbmRetrainStart]
@[simp] theorem nextGrows_execHbmTrainSlot : NextGrows s (execHbmTrainSlot s) := by
  simp [execHbmTrainSlot]
@[simp] theorem nextGrows_execHbmTrainCommit (within : Bool) : NextGrows s (execHbmTrainCommit within s) := by
  simp [execHbmTrainCommit]
@[simp] theorem nextGrows_execHbmTrainRetry : NextGrows s (execHbmTrainRetry s) := by
  simp [execHbmTrainRetry]
@[simp] theorem nextGrows_execHbmTransaction (runner engine addr : Nat) (write : Bool) (data : List Byte) (ecc parity : Nat) :
    NextGrows s (execHbmTransaction runner engine addr write data ecc parity s) := by
  simp [execHbmTransaction]
@[simp] theorem nextGrows_execLockCommit (r addr : Nat) (data : List Byte) (parity : Nat) :
    NextGrows s (execLockCommit r addr data parity s) := by
  simp [execLockCommit]
@[simp] theorem nextGrows_execHbmSrEnter : NextGrows s (execHbmSrEnter s) := by
  simp [execHbmSrEnter]
@[simp] theorem nextGrows_execHbmSrExit (pattern train : Bool) : NextGrows s (execHbmSrExit pattern train s) := by
  simp [execHbmSrExit]

/-! ### Surface -/

@[simp] theorem nextGrows_execTlbMiss (i offset runner engine : Nat) (write : Bool) (o layer queue frag : Nat) :
    NextGrows s (execTlbMiss i offset runner engine write o layer queue frag s) := by
  simp [execTlbMiss]
@[simp] theorem nextGrows_execTlbWalkDone (k : Nat) (poison : Bool) : NextGrows s (execTlbWalkDone k poison s) := by
  unfold execTlbWalkDone
  dsimp only
  repeat' split
  all_goals simp
@[simp] theorem nextGrows_execSurfCmdMap (path : PathId) (i : Nat) : NextGrows s (execSurfCmdMap path i s) := by
  simp [execSurfCmdMap]
@[simp] theorem nextGrows_execSurfCmdFree (path : PathId) (i : Nat) : NextGrows s (execSurfCmdFree path i s) := by
  simp [execSurfCmdFree]
@[simp] theorem nextGrows_execSurfCmdBadOp (path : PathId) (v : Word) : NextGrows s (execSurfCmdBadOp path v s) := by
  simp [execSurfCmdBadOp]
@[simp] theorem nextGrows_execSurfMapped : NextGrows s (execSurfMapped s) := by
  unfold execSurfMapped
  split
  · split
    · simp
    · simp only [nextGrows_next, core_raise, core_surf, core_modSurfAt]
      exact grows_hbm _ (fun w => wf_buildTables _ _ _ (wf_zeroExtents _ _ w)) (Grows.refl _)
  · simp
@[simp] theorem nextGrows_execSurfRevokeDone (i : Nat) : NextGrows s (execSurfRevokeDone i s) := by
  simp [execSurfRevokeDone]
@[simp] theorem nextGrows_execSurfReclaimStart (i : Nat) : NextGrows s (execSurfReclaimStart i s) := by
  simp [execSurfReclaimStart]
@[simp] theorem nextGrows_execSurfReclaimed (i : Nat) : NextGrows s (execSurfReclaimed i s) := by
  unfold execSurfReclaimed
  dsimp only
  split
  · simp only [nextGrows_next, core_raise, core_surf, core_setSurf]
    split
    · exact grows_hbm _ (wf_zeroExtents _ _) (Grows.refl _)
    · exact Grows.refl _
  · simp

/-! ### Compose -/

@[simp] theorem nextGrows_execCompositionStart (o : Nat) : NextGrows s (execCompositionStart o s) := by
  simp [execCompositionStart, grows_compositionStart]
@[simp] theorem nextGrows_execWaitAllReady (o : Nat) : NextGrows s (execWaitAllReady o s) := by
  unfold execWaitAllReady
  split <;> simp [grows_startBinning]
@[simp] theorem nextGrows_execWaitRepeat (o : Nat) : NextGrows s (execWaitRepeat o s) := by
  unfold execWaitRepeat
  split <;> simp
@[simp] theorem nextGrows_execSprueSpill (queue : Nat) (ok : Bool) : NextGrows s (execSprueSpill queue ok s) := by
  unfold execSprueSpill
  dsimp only
  split
  · simp
  · split
    · simp only [nextGrows_next, core_composer]
      exact grows_hbm _ (Memory.wf_store _ _ _ _) (Grows.refl _)
    · repeat' split
      all_goals simp
@[simp] theorem nextGrows_execBinningDone (o : Nat) : NextGrows s (execBinningDone o s) := by
  unfold execBinningDone
  dsimp only
  split <;> simp
@[simp] theorem nextGrows_execTileDispatch (engine : Nat) : NextGrows s (execTileDispatch engine s) := by
  simp [execTileDispatch]
@[simp] theorem nextGrows_execTileCommit (engine : Nat) (refillOk : Bool) (stall : Nat) :
    NextGrows s (execTileCommit engine refillOk stall s) := by
  unfold execTileCommit
  repeat' split
  all_goals simp [grows_writeWarp]
@[simp] theorem nextGrows_execComposeLate (o : Nat) : NextGrows s (execComposeLate o s) := by
  unfold execComposeLate
  split <;> simp
@[simp] theorem nextGrows_execWarpTileStart (o tile : Nat) : NextGrows s (execWarpTileStart o tile s) := by
  unfold execWarpTileStart
  split <;> simp
@[simp] theorem nextGrows_execComposeFault (engine frag : Nat) : NextGrows s (execComposeFault engine frag s) := by
  unfold execComposeFault
  dsimp only
  repeat' split
  all_goals simp
@[simp] theorem nextGrows_execComposeRecovered (o : Nat) : NextGrows s (execComposeRecovered o s) := by
  simp [execComposeRecovered]
@[simp] theorem nextGrows_execLayerPresent (path : PathId) (v : Word) : NextGrows s (execLayerPresent path v s) := by
  simp [execLayerPresent]
@[simp] theorem nextGrows_execEncodeComplete (o : Nat) : NextGrows s (execEncodeComplete o s) := by
  unfold execEncodeComplete
  split
  · simp
  · simp only [nextGrows_ite, nextGrows_next]
    refine ⟨fun _ => Grows.refl _, fun _ => ⟨fun _ => grows_zoneFail _ _ (Grows.refl _), fun _ => ?_⟩⟩
    exact grows_storeFrame _ _ (by simp)

/-! ### Relvor -/

@[simp] theorem nextGrows_execRlvMessageReceive (bytes : List Byte) (arrival : Nat) :
    NextGrows s (execRlvMessageReceive bytes arrival s) := by
  unfold execRlvMessageReceive
  repeat' split
  all_goals simp
@[simp] theorem nextGrows_execRlvForward (bytes : List Byte) : NextGrows s (execRlvForward bytes s) := by
  simp [execRlvForward]
@[simp] theorem nextGrows_execRlvTimeSend : NextGrows s (execRlvTimeSend s) := by
  simp [execRlvTimeSend]
@[simp] theorem nextGrows_execRlvMarkSend (o slot : Nat) : NextGrows s (execRlvMarkSend o slot s) := by
  unfold execRlvMarkSend
  split <;> simp
@[simp] theorem nextGrows_execRlvLost : NextGrows s (execRlvLost s) := by
  simp [execRlvLost]

/-! ### Capture -/

@[simp] theorem nextGrows_execCaptureFrameStart (i : Nat) (fmt : CapFormat) (tRef fine : Nat) (tc : Timecodes) (rtp : Nat)
    (metas : Option (Nat × Nat)) :
    NextGrows s (execCaptureFrameStart i fmt tRef fine tc rtp metas s) := by
  simp [execCaptureFrameStart]
@[simp] theorem nextGrows_execCaptureFrameComplete (i : Nat) (skew : Bool) (words : List Nat) :
    NextGrows s (execCaptureFrameComplete i skew words s) := by
  unfold execCaptureFrameComplete
  split <;> simp
@[simp] theorem nextGrows_execCapSignalLost (i : Nat) : NextGrows s (execCapSignalLost i s) := by
  simp [execCapSignalLost]
@[simp] theorem nextGrows_execSignalChangeMidFrame (i : Nat) : NextGrows s (execSignalChangeMidFrame i s) := by
  simp [execSignalChangeMidFrame]
@[simp] theorem nextGrows_execEthPacketReceive (i net seq : Nat) (words : List Nat) :
    NextGrows s (execEthPacketReceive i net seq words s) := by
  simp [execEthPacketReceive]
@[simp] theorem nextGrows_execCapPktLoss (i : Nat) : NextGrows s (execCapPktLoss i s) := by
  simp [execCapPktLoss]
@[simp] theorem nextGrows_execCapPathLost (i net : Nat) : NextGrows s (execCapPathLost i net s) := by
  simp [execCapPathLost]
@[simp] theorem nextGrows_execPtpMessage (offset : Int) (domain : Nat) : NextGrows s (execPtpMessage offset domain s) := by
  simp [execPtpMessage]
@[simp] theorem nextGrows_execPtpLost : NextGrows s (execPtpLost s) := by
  simp [execPtpLost]
@[simp] theorem nextGrows_execEthArpIcmp (net : Nat) (bytes : List Byte) : NextGrows s (execEthArpIcmp net bytes s) := by
  unfold execEthArpIcmp
  dsimp only
  repeat' split
  all_goals simp
@[simp] theorem nextGrows_execDpAuxRequest (i : Nat) (write i2c : Bool) (addr : Nat) (bytes : List Byte) (len : Nat) :
    NextGrows s (execDpAuxRequest i write i2c addr bytes len s) := by
  simp [execDpAuxRequest]
@[simp] theorem nextGrows_execHpdPulseEnd (i : Nat) : NextGrows s (execHpdPulseEnd i s) := by
  simp [execHpdPulseEnd]
@[simp] theorem nextGrows_execHostAccessErr (addr size : Nat) (write : Bool) :
    NextGrows s (execHostAccessErr addr size write s) := by
  simp [execHostAccessErr]
@[simp] theorem nextGrows_execBar2Write (addr : Nat) (bytes : List Byte) : NextGrows s (execBar2Write addr bytes s) := by
  have hc := core_hostPlaces true bytes.length addr (wakeHbm s)
  unfold execBar2Write
  split
  · next e =>
    simp only [e, core_wakeHbm] at hc
    dsimp only
    repeat' split
    all_goals simp [grows_hostStore, hc]
  · next e =>
    simp only [e, core_wakeHbm] at hc
    simp [hc]
@[simp] theorem nextGrows_execBar2Read (addr len : Nat) : NextGrows s (execBar2Read addr len s) := by
  have hc := core_hostPlaces false len addr (wakeHbm s)
  unfold execBar2Read
  split <;> next e =>
    rw [e] at hc
    simp [hc]
@[simp] theorem nextGrows_execBar2Atomic (_addr : Nat) : NextGrows s (execBar2Atomic _addr s) := by
  simp [execBar2Atomic]
@[simp] theorem nextGrows_execPcieReset : NextGrows s (execPcieReset s) := by
  simp [execPcieReset]

/-! ### Ladle -/

@[simp] theorem nextGrows_execLsWrite (path : PathId) (addr : Nat) (v : Word) : NextGrows s (execLsWrite path addr v s) := by
  simp [execLsWrite]
@[simp] theorem nextGrows_execLadlePourRequest (path : PathId) (v : Word) : NextGrows s (execLadlePourRequest path v s) := by
  simp [execLadlePourRequest]
@[simp] theorem nextGrows_execLadlePourCancel (path : PathId) : NextGrows s (execLadlePourCancel path s) := by
  simp [execLadlePourCancel]
@[simp] theorem nextGrows_execPourChecksDone : NextGrows s (execPourChecksDone s) := by
  unfold execPourChecksDone
  split <;> simp [grows_checkPour]
@[simp] theorem nextGrows_execPourCommit (corrupt : Nat) : NextGrows s (execPourCommit corrupt s) := by
  unfold execPourCommit
  split <;> simp [grows_commitPour]
@[simp] theorem nextGrows_execLadleCopyDone : NextGrows s (execLadleCopyDone s) := by
  simp [execLadleCopyDone]

/-! ### Anneal -/

@[simp] theorem nextGrows_execAnnCtrlStart (path : PathId) (v : Word) : NextGrows s (execAnnCtrlStart path v s) := by
  simp [execAnnCtrlStart]
@[simp] theorem nextGrows_execAnnCtrlAbort (path : PathId) : NextGrows s (execAnnCtrlAbort path s) := by
  simp [execAnnCtrlAbort]
@[simp] theorem nextGrows_execAnnealStepsBegin : NextGrows s (execAnnealStepsBegin s) := by
  unfold execAnnealStepsBegin
  split <;> simp
@[simp] theorem nextGrows_execAnnealPointDone (values : List Int) : NextGrows s (execAnnealPointDone values s) := by
  unfold execAnnealPointDone
  repeat' split
  all_goals simp
@[simp] theorem nextGrows_execAnnealCheckDone (darks : List Nat) (again : Int) :
    NextGrows s (execAnnealCheckDone darks again s) := by
  unfold execAnnealCheckDone
  dsimp only
  repeat' split
  all_goals simp
@[simp] theorem nextGrows_execDowserChange (level : Bool) : NextGrows s (execDowserChange level s) := by
  simp [execDowserChange]
@[simp] theorem nextGrows_execAnnealPourWaitTimeout : NextGrows s (execAnnealPourWaitTimeout s) := by
  unfold execAnnealPourWaitTimeout
  split <;> simp
@[simp] theorem nextGrows_execCalBlockWriteDone : NextGrows s (execCalBlockWriteDone s) := by
  unfold execCalBlockWriteDone
  split <;> simp

/-! ### Crucible -/

@[simp] theorem nextGrows_execKdmSubmit (path : PathId) : NextGrows s (execKdmSubmit path s) := by
  simp [execKdmSubmit]
@[simp] theorem nextGrows_execKdmDiscard (path : PathId) (keyId : Nat) : NextGrows s (execKdmDiscard path keyId s) := by
  simp [execKdmDiscard]
@[simp] theorem nextGrows_execKdmPurge (path : PathId) : NextGrows s (execKdmPurge path s) := by
  simp [execKdmPurge]
@[simp] theorem nextGrows_execSealHostBind (path : PathId) (v : Word) : NextGrows s (execSealHostBind path v s) := by
  simp [execSealHostBind]
@[simp] theorem nextGrows_execDrbgReseed (healthy : Bool) : NextGrows s (execDrbgReseed healthy s) := by
  simp [execDrbgReseed]
@[simp] theorem nextGrows_execCrucMonitorTrip (m : Nat) : NextGrows s (execCrucMonitorTrip m s) := by
  simp [execCrucMonitorTrip]
@[simp] theorem nextGrows_execCrucResume : NextGrows s (execCrucResume s) := by
  simp [execCrucResume]
@[simp] theorem nextGrows_execSessionHello (path : PathId) (peer port : Nat) (bytes : List Byte) :
    NextGrows s (execSessionHello path peer port bytes s) := by
  simp [execSessionHello]
@[simp] theorem nextGrows_execSessionFinish (path : PathId) (bytes : List Byte) :
    NextGrows s (execSessionFinish path bytes s) := by
  simp [execSessionFinish]
@[simp] theorem nextGrows_execSessionStepTimeout : NextGrows s (execSessionStepTimeout s) := by
  unfold execSessionStepTimeout
  split <;> simp
@[simp] theorem nextGrows_execSessionResend (k seq : Nat) (body mac : List Byte) :
    NextGrows s (execSessionResend k seq body mac s) := by
  simp [execSessionResend]
@[simp] theorem nextGrows_execSessionClose (k seq : Nat) (mac : List Byte) : NextGrows s (execSessionClose k seq mac s) := by
  simp [execSessionClose]
@[simp] theorem nextGrows_execSessionTimeout (k : Nat) : NextGrows s (execSessionTimeout k s) := by
  unfold execSessionTimeout
  repeat' split
  all_goals simp

/-! ### Manage -/

@[simp] theorem nextGrows_execSensorConversion (counts : List (Nat × Nat)) : NextGrows s (execSensorConversion counts s) := by
  simp [execSensorConversion, grows_continueBody]
@[simp] theorem nextGrows_execExtConversion (x code : Nat) (bad : Fin 4) : NextGrows s (execExtConversion x code bad s) := by
  simp [execExtConversion, grows_continueBody, grows_extConversion]
@[simp] theorem nextGrows_execFlashWriteWaitTimeout : NextGrows s (execFlashWriteWaitTimeout s) := by
  simp [execFlashWriteWaitTimeout, grows_continueBody]
@[simp] theorem nextGrows_execSessionRequest (k : Fin 4) (seq : Nat) (body mac : List Byte) :
    NextGrows s (execSessionRequest k seq body mac s) := by
  simp [execSessionRequest, grows_sessionRequest]
@[simp] theorem nextGrows_execMgmtRead (path : PathId) (addr count : Nat) : NextGrows s (execMgmtRead path addr count s) := by
  simp [execMgmtRead]
@[simp] theorem nextGrows_execMgmtWrite (path : PathId) (addr : Nat) (words : List Word) :
    NextGrows s (execMgmtWrite path addr words s) := by
  simp [execMgmtWrite, grows_pathWrite]
@[simp] theorem nextGrows_execRegisterWrite (path : PathId) (addr : Nat) (v : Word) :
    NextGrows s (execRegisterWrite path addr v s) := by
  simp [execRegisterWrite, grows_pathWrite]
@[simp] theorem nextGrows_execEvtReadWrite (path : PathId) (v : Word) : NextGrows s (execEvtReadWrite path v s) := by
  simp [execEvtReadWrite]
@[simp] theorem nextGrows_execModeCmdRestart (path : PathId) : NextGrows s (execModeCmdRestart path s) := by
  simp [execModeCmdRestart, grows_pathWrite]
@[simp] theorem nextGrows_execMgmtPour (path : PathId) (v : Word) (target : Nat) :
    NextGrows s (execMgmtPour path v target s) := by
  simp [execMgmtPour]
@[simp] theorem nextGrows_execIngotBegin (path : PathId) (length : Nat) : NextGrows s (execIngotBegin path length s) := by
  have key := grows_withCommandRole path 7 (fun u => beginIngot u path length) (fun _ hu => grows_beginIngot _ _ hu) (Grows.refl s.core)
  simp [execIngotBegin, key]
@[simp] theorem nextGrows_execIngotData (path : PathId) (ofs : Nat) (bytes : List Byte) :
    NextGrows s (execIngotData path ofs bytes s) := by
  have key := grows_withCommandRole path 7 (fun u => dataIngot u ofs bytes) (fun _ hu => grows_dataIngot _ _ hu) (Grows.refl s.core)
  simp [execIngotData, key]
@[simp] theorem nextGrows_execIngotCommit (path : PathId) : NextGrows s (execIngotCommit path s) := by
  have key := grows_withCommandRole path 7 commitRequest (fun _ hu => grows_commitRequest hu) (Grows.refl s.core)
  simp [execIngotCommit, key]
@[simp] theorem nextGrows_execIngotApply (path : PathId) : NextGrows s (execIngotApply path s) := by
  simp [execIngotApply]
@[simp] theorem nextGrows_execMgmtTime (path : PathId) (ns : Nat) : NextGrows s (execMgmtTime path ns s) := by
  simp [execMgmtTime]
@[simp] theorem nextGrows_execRevoke (path : PathId) (slot : Nat) : NextGrows s (execRevoke path slot s) := by
  simp [execRevoke, grows_revokeSlot]
@[simp] theorem nextGrows_execProvision (path : PathId) (slot : Nat) (key : List Byte) :
    NextGrows s (execProvision path slot key s) := by
  simp [execProvision, grows_provisionSlot]
@[simp] theorem nextGrows_execSpiWriteFrame (bytes : List Byte) : NextGrows s (execSpiWriteFrame bytes s) := by
  simp [execSpiWriteFrame, grows_spiWrite]
@[simp] theorem nextGrows_execSpiReadFrame (bytes : List Byte) (ready : Bool) : NextGrows s (execSpiReadFrame bytes ready s) := by
  simp [execSpiReadFrame]
@[simp] theorem nextGrows_execSpiStatusFrame : NextGrows s (execSpiStatusFrame s) := by
  simp [execSpiStatusFrame]

/-! ### Dawn -/

@[simp] theorem nextGrows_execVauxRise : NextGrows s (execVauxRise s) := by
  simp [execVauxRise]
@[simp] theorem nextGrows_execResetNAssert : NextGrows s (execResetNAssert s) := by
  simp [execResetNAssert]
@[simp] theorem nextGrows_execVcoreReturn : NextGrows s (execVcoreReturn s) := by
  simp [execVcoreReturn]
@[simp] theorem nextGrows_execPwrfailNHighTimeout : NextGrows s (execPwrfailNHighTimeout s) := by
  simp [execPwrfailNHighTimeout]
@[simp] theorem nextGrows_execVauxLow : NextGrows s (execVauxLow s) := by
  simp [execVauxLow]
@[simp] theorem nextGrows_execDawnSuppliesValid (romFuseOk rngOk : Bool) :
    NextGrows s (execDawnSuppliesValid romFuseOk rngOk s) := by
  unfold execDawnSuppliesValid
  dsimp only
  repeat' split
  · simp
  · simp
  · simp
  · exact nextGrows_next.2 (Grows.refl s.core)
@[simp] theorem nextGrows_execDawnSupplyTimeout : NextGrows s (execDawnSupplyTimeout s) := by
  simp [execDawnSupplyTimeout]
@[simp] theorem nextGrows_execDawnLanesDone (sfdpOk : Bool) (sfdp : Sfdp) (fspPass : Nat) (eeproms : List (Option (List Byte))) :
    NextGrows s (execDawnLanesDone sfdpOk sfdp fspPass eeproms s) := by
  unfold execDawnLanesDone
  dsimp only
  split
  · simp
  · generalize hu : trainAll _ fspPass = u
    have hc : u.core = s.core := by
      rw [← hu, core_trainAll, core_readBoards]
      split <;> simp
    have hcopy := core_selectCopy u
    rw [hc] at hcopy
    split
    · simp [hc]
    · split
      · simp [hc]
      · split <;> next e =>
          rw [e] at hcopy
          simp [grows_dawnCopy, hcopy]
@[simp] theorem nextGrows_execDawnDone : NextGrows s (execDawnDone s) := by
  simp [execDawnDone, grows_finishDawn]
@[simp] theorem nextGrows_execPwrfailNFall : NextGrows s (execPwrfailNFall s) := by
  simp [execPwrfailNFall]
@[simp] theorem nextGrows_execDuskFlashTimeout : NextGrows s (execDuskFlashTimeout s) := by
  simp [execDuskFlashTimeout]
@[simp] theorem nextGrows_execDuskDone : NextGrows s (execDuskDone s) := by
  simp [execDuskDone, grows_endDusk]

/-! ### Every command, every step -/

/-- Every command completes and only grows the core: by the command's own lemma. -/
theorem nextGrows_exec (c : Instr) (s : State) : NextGrows s (exec c s) := by
  cases c <;> simp [exec]

theorem grows_of_exec {c : Instr} {t : State} (h : exec c s = .next t) : Grows s.core t.core := by
  have k := nextGrows_exec c s
  rwa [h, nextGrows_next] at k

/-- What a step does: a tick, or the front command run with the rest of the queue. -/
theorem step_cases {t : State} (h : step s = .next t) :
    t = idle s ∨ ∃ c rest, s.pending = c :: rest ∧ exec c { s with pending := rest } = .next t := by
  unfold step at h
  split at h
  · exact .inl (by injection h with h; exact h.symm)
  · next c rest hp => exact .inr ⟨c, rest, hp, h⟩

@[simp] theorem core_idle (s : State) : (idle s).core = s.core := by
  simp [idle]

/-- Every step grows the core of a state that differs from the one it starts in by the queue alone. -/
theorem step_grows {t : State} (h : step s = .next t) : ∃ rest, Grows { s with pending := rest }.core t.core := by
  obtain rfl | ⟨c, rest, -, hc⟩ := step_cases h
  · exact ⟨s.pending, by simp⟩
  · exact ⟨rest, grows_of_exec hc⟩

theorem coreOk_iff : coreOk s.core ↔ s.wellShaped ∧ s.memoriesWf :=
  ⟨fun ⟨hflash, hfs, hhbm, hshape⟩ => ⟨hshape, hflash, hfs, hhbm⟩,
   fun ⟨hshape, hflash, hfs, hhbm⟩ => ⟨hflash, hfs, hhbm, hshape⟩⟩

end Sys2Proof.Machine
end

section
/-! The statements on the shape of the state, its memories and its fuses. -/
namespace Sys2Proof.Machine

/-- Settles O4: the memories are empty at reset, and the shape is that of R8 by computation. -/
theorem resetIsWellFormed : Obligations.ResetIsWellFormed :=
  ⟨rfl, rfl, rfl, rfl⟩

/-- Settles O5: every step only grows the core, and growing keeps canonical memories and the shape. -/
theorem everyStepKeepsShapeAndMemories : Obligations.EveryStepKeepsShapeAndMemories := by
  intro s t hshape hmem h
  obtain ⟨rest, -, -, hok⟩ := step_grows h
  exact coreOk_iff.1 (hok (coreOk_iff.2 ⟨hshape, hmem⟩))

/-- Settles O6: every step only grows the core, and growing burns fuses only. -/
theorem everyStepOnlyBurnsFuses : Obligations.EveryStepOnlyBurnsFuses := by
  intro s t h
  obtain ⟨rest, hburnt, -, -⟩ := step_grows h
  exact hburnt

end Sys2Proof.Machine
end

section
/-! SUPPORT. What a tick does (R5, R22, R65): the hand-over of due events, output by output. -/
namespace Sys2Proof.Machine

/-- An event for the drive die whose fire time is no more than 32 ticks after `now` is marked as handed over (R22). -/
def handPost (now : Nat) (p : Post) : Post :=
  if (p.cls = 1 ∨ p.cls = 2) ∧ p.fire ≤ now + 32 then { p with handed := true } else p

/-- The same for every event of an output's queue. -/
def handQueue (now : Nat) (q : SeqState) : SeqState := { q with queue := q.queue.map (handPost now) }

/-- `t` is `s` with the due events of the outputs `l` handed over; the replica counter may have been drawn anew. -/
def HandedOver (l : List Nat) (s t : State) : Prop :=
  t = { s with
    seq := l.foldl (fun m o => upd m o (handQueue s.tb.tick)) s.seq
    drive := { s.drive with replicaFine := t.drive.replicaFine }
    free := t.free } ∧
  (t.drive.replicaFine = s.drive.replicaFine ∨ (-1 ≤ t.drive.replicaFine ∧ t.drive.replicaFine ≤ 1))

variable {s t u : State}

theorem HandedOver.refl (s : State) : HandedOver [] s s := ⟨rfl, .inl rfl⟩

theorem HandedOver.cons {o : Nat} {l : List Nat} (h : HandedOver [o] s t) (k : HandedOver l t u) : HandedOver (o :: l) s u := by
  obtain ⟨ht, hfine⟩ := h
  obtain ⟨hu, kfine⟩ := k
  have htick : t.tb.tick = s.tb.tick := by rw [ht]
  refine ⟨?_, ?_⟩
  · rw [hu, htick, ht]
    rfl
  · obtain h | h := kfine
    · rwa [h]
    · exact .inr h

/-- Updating an entry to itself changes nothing. -/
theorem upd_eq_self {α : Type} {l : List α} {i : Nat} {f : α → α} {d : α} (h : f (nth l i d) = nth l i d) : upd l i f = l := by
  refine List.ext_getElem? fun j => ?_
  simp only [upd, List.getElem?_modify]
  split
  · next e =>
    subst e
    cases hl : l[i]? with
    | none => rfl
    | some x =>
      have hx : nth l i d = x := by simp [nth, hl]
      rw [hx] at h
      simp [h]
  · simp

/-- The events that `handOver` takes are those that `handPost` marks anew. -/
theorem handPost_eq (now : Nat) (p : Post) :
    handPost now p = if (p.cls == 1 || p.cls == 2) && !p.handed && decide (p.fire ≤ now + 32) then { p with handed := true } else p := by
  unfold handPost
  by_cases hh : p.handed = true
  · have hp : { p with handed := true } = p := by rw [← hh]
    simp [hp]
  · simp [hh]

/-- An update of one output's events that keeps its waiting post keeps those of all outputs. -/
theorem waiting_modSeq (s : State) (o p : Nat) (f : SeqState → SeqState) (hf : ∀ q, (f q).waiting = q.waiting) :
    ((s.modSeq o f).seqAt p).waiting = (s.seqAt p).waiting := by
  simp only [State.seqAt, State.modSeq, nth, upd, List.getD_eq_getElem?_getD, List.getElem?_modify]
  split <;> cases s.seq[p]? <;> simp [hf]

theorem ackWaiting_of_none {o : Nat} (h : (s.seqAt o).waiting = none) : ackWaiting s o = s := by
  simp [ackWaiting, h]

/-- Where no post waits for room, a hand-over marks the due events of its output and nothing else. -/
theorem handOver_handedOver (o : Nat) (hw : (s.seqAt o).waiting = none) : HandedOver [o] s (handOver s o) := by
  unfold handOver
  dsimp only
  split
  · simp only [← handPost_eq]
    rw [ackWaiting_of_none]
    · refine ⟨rfl, .inr ?_⟩
      simp only [State.modSeq_drive, State.modDrive]
      omega
    · refine Eq.trans (waiting_modSeq _ o o (handQueue s.tb.tick) fun _ => rfl) ?_
      exact hw
  · next hd =>
    have hq : handQueue s.tb.tick (s.seqAt o) = s.seqAt o := by
      have : ∀ p ∈ (s.seqAt o).queue, handPost s.tb.tick p = p := by
        intro p hp
        rw [handPost_eq, if_neg fun h => hd (List.any_eq_true.2 ⟨p, hp, h⟩)]
      simp [handQueue, List.map_congr_left this]
    have hs : upd s.seq o (handQueue s.tb.tick) = s.seq := upd_eq_self hq
    refine ⟨?_, .inl rfl⟩
    simp [hs]

theorem waiting_handedOver {o : Nat} (h : HandedOver [o] s t) (p : Nat) : (t.seqAt p).waiting = (s.seqAt p).waiting := by
  rw [h.1]
  exact waiting_modSeq s o p _ fun _ => rfl

/-- Where no post waits for room, the hand-over of the outputs `l` marks their due events and nothing else. -/
theorem handedOver_foldl (l : List Nat) (hw : ∀ o, (s.seqAt o).waiting = none) : HandedOver l s (l.foldl handOver s) := by
  induction l generalizing s with
  | nil => exact HandedOver.refl s
  | cons o l ih =>
    have h := handOver_handedOver o (hw o)
    exact h.cons (ih fun p => (waiting_handedOver h p).trans (hw p))

/-- Marking the events of the four outputs, written as one map over the outputs. -/
theorem foldl_upd_outputs (f : SeqState → SeqState) (l : List SeqState) :
    outputs.foldl (fun m o => upd m o f) l = l.mapIdx fun o q => if o < 4 then f q else q := by
  refine List.ext_getElem? fun j => ?_
  simp only [outputs, List.foldl, upd, List.getElem?_modify, List.getElem?_mapIdx]
  obtain rfl | rfl | rfl | rfl | hj : j = 0 ∨ j = 1 ∨ j = 2 ∨ j = 3 ∨ 4 ≤ j := by omega
  · simp
  · simp
  · simp
  · simp
  · have : ∀ k, k < 4 → k ≠ j := by omega
    simp [this, Nat.not_lt.2 hj]

/-- TICK and the drive die's replica counted up by one (R5, R65). -/
def countTick (s : State) : State :=
  { s with tb := { s.tb with tick := s.tb.tick + 1 }, drive := { s.drive with replica := s.tb.tick + 1 } }

theorem tickPass_eq (s : State) : tickPass s = secondFault (outputs.foldl handOver (countTick s)) := rfl

theorem secondFault_of_none (h : s.log.second = none) : secondFault s = s := by
  simp [secondFault, h]

/-- With no deferred second fault, a tick counts and hands the due events over. -/
theorem tickPass_handedOver (hsecond : s.log.second = none) (hw : ∀ o, (s.seqAt o).waiting = none) :
    HandedOver outputs (countTick s) (tickPass s) := by
  have h : HandedOver outputs (countTick s) (outputs.foldl handOver (countTick s)) := handedOver_foldl outputs hw
  have hlog : (outputs.foldl handOver (countTick s)).log.second = none := by
    rw [h.1]
    exact hsecond
  rw [tickPass_eq, secondFault_of_none hlog]
  exact h

theorem step_idle (h : s.pending = []) : step s = .next (idle s) := by
  simp [step, h]

/-- Settles O2: every command completes by its own lemma, its growth of the core keeps the queue, and an idle step is a tick. -/
theorem commandsCompleteAndLeaveTheQueue : Obligations.CommandsCompleteAndLeaveTheQueue := by
  refine ⟨fun c s => ?_, fun c s t h => ?_, fun s hp hrun => ?_, fun s hp hrun hsecond hw => ?_⟩
  · obtain ⟨t, ht, -⟩ := nextGrows_exec c s
    exact ⟨t, ht⟩
  · obtain ⟨-, hqueue, -⟩ := grows_of_exec h
    exact hqueue
  · rw [step_idle hp, idle, hrun]
    rfl
  · obtain ⟨ht, hfine⟩ := tickPass_handedOver hsecond hw
    refine ⟨tickPass s, ?_, ?_, hfine⟩
    · rw [step_idle hp, idle, hrun]
      rfl
    · rw [foldl_upd_outputs] at ht
      exact ht

end Sys2Proof.Machine
end

section
/-! SUPPORT. Accesses by the management paths: what their gates do with a served request, and what a write does by the access class
of its address. -/
namespace Sys2Proof.Machine

variable {s t u : State} {path : PathId} {a : Nat} {v w : Word} {ws : List Word}

/-! ### Reads (R283, R457, R458, R489) -/

theorem execMgmtRead_served {n : Nat} (h : servesRead s path (a + 4 * (n - 1)) = true) :
    execMgmtRead path a n s = .next (answer (gatedReads path n a s).1 (gatedReads path n a s).2.1 (gatedReads path n a s).2.2 []) := by
  simp [execMgmtRead, h]

theorem gatedRead_aligned (ha : a % 4 = 0) (hr : hasRole s path 0 = true) :
    gatedRead s path a = ((readWord s path a).1, 0, (readWord s path a).2) := by
  simp [gatedRead, ha, hr]

theorem gatedRead_noRole (ha : a % 4 = 0) (hr : hasRole s path 0 = false) :
    gatedRead s path a = (refuseRole s path 0 a, 2, 0) := by
  simp [gatedRead, ha, hr]

/-- A word that is read is answered before the words read after it. -/
theorem gatedReads_succ {n c : Nat} (h : gatedRead s path a = (t, 0, w)) (k : gatedReads path n (a + 4) t = (u, c, ws)) :
    gatedReads path (n + 1) a s = (u, c, w :: ws) := by
  simp [gatedReads, h, k]

/-- Nothing is read once the path may not read. -/
theorem gatedReads_noRole (n : Nat) (ha : a % 4 = 0) (hr : hasRole s path 0 = false) :
    gatedReads path (n + 1) a s = (refuseRole s path 0 a, 2, []) := by
  simp [gatedReads, gatedRead_noRole ha hr]

/-! ### Writes (R9, R458, R461, R462) -/

theorem pathWrite_served (hs : serves s path = true) : pathWrite s path a ws = gatedWrite doorbell s path a ws := by
  simp [pathWrite, hs]

theorem gatedWrite_misaligned (bell : State → PathId → Word → State) (ha : a % 4 ≠ 0) :
    gatedWrite bell s path a ws = (raiseP s 0x030C 0 path, 1) := by
  simp [gatedWrite, ha, misaligned]

/-- A request of which one word is refused changes nothing but the record of the refusal. -/
theorem gatedWrite_refused (bell : State → PathId → Word → State) {c role ad : Nat} (ha : a % 4 = 0)
    (h : firstRefused s path a ws = some (c, role, ad)) : gatedWrite bell s path a ws = (refuseRole s path role ad, c) := by
  simp [gatedWrite, ha, h]

theorem gatedWrite_accepted (bell : State → PathId → Word → State) (ha : a % 4 = 0) (h : firstRefused s path a ws = none) :
    gatedWrite bell s path a ws = writeWords bell path a ws s := by
  simp [gatedWrite, ha, h]

theorem firstRefused_singleton (h : writeRefused s path a v = none) : firstRefused s path a [v] = none := by
  simp [firstRefused, h]

/-- One word elsewhere than at the doorbell: the class of its address decides. -/
theorem writeWords_singleton (bell : State → PathId → Word → State) (ha : a ≠ 0x800) :
    writeWords bell path a [v] s = busWrite s path a v := by
  simp only [writeWords, if_neg ha]
  split <;> next h => exact h.symm

theorem writeWords_doorbell (bell : State → PathId → Word → State) :
    writeWords bell path 0x800 [v] s = (bell s path v, 0) := by
  simp [writeWords]

/-- After a word that is written the next one is. -/
theorem writeWords_cons (bell : State → PathId → Word → State) (ha : a ≠ 0x800) (h : busWrite s path a v = (t, 0)) :
    writeWords bell path a (v :: ws) s = writeWords bell path (a + 4) ws t := by
  simp [writeWords, ha, h]

theorem withRole_served (role addr : Nat) (f : State → State) (hs : serves s path = true) :
    withRole s path role addr f = if hasRole s path role then f s else refuseRole s path role addr := by
  simp [withRole, hs]

/-- Settles O28, by the rules of the gates above. -/
theorem managementReadsAndWrites : Obligations.ManagementReadsAndWrites := by
  refine ⟨⟨?_, ?_, ?_, ?_⟩, ?_, ?_, ?_, ?_, ?_⟩
  · intro s path a n hs
    exact execMgmtRead_served hs
  · intro s path a hs ha hr
    refine (execMgmtRead_served (n := 1) hs).trans ?_
    rw [gatedReads_succ (gatedRead_aligned ha hr) rfl]
    rfl
  · intro s t u path a n c w ws h k
    exact gatedReads_succ h k
  · intro s path a n hs ha hr
    refine (execMgmtRead_served (n := n + 1) hs).trans ?_
    rw [gatedReads_noRole n ha hr]
  · intro s path a v hs ha hv
    have hw : pathWrite s path a [v] = writeWords doorbell path a [v] s := by
      rw [pathWrite_served hs, gatedWrite_accepted doorbell ha (firstRefused_singleton hv)]
    refine ⟨fun h => ?_, fun h => ?_⟩
    · rw [writeWords_singleton doorbell h] at hw
      simp [exec, execRegisterWrite, execMgmtWrite, hw]
    · subst h
      rw [writeWords_doorbell] at hw
      simp [exec, execRegisterWrite, execMgmtWrite, hw]
  · intro s t path a v ws hs ha hv h hw
    simp [exec, execMgmtWrite, pathWrite_served hs, gatedWrite_accepted doorbell ha hv, writeWords_cons doorbell h hw]
  · intro s path a c role ad ws hs ha hv
    simp [exec, execMgmtWrite, pathWrite_served hs, gatedWrite_refused doorbell ha hv]
  · intro s path a ws hs ha
    simp [exec, execMgmtWrite, pathWrite_served hs, gatedWrite_misaligned doorbell ha]
  · intro s path v hs
    refine ⟨fun hr => ?_, fun hr => ?_⟩
    · simp [exec, execEvtReadWrite, withRole_served _ _ _ hs, hr, writeEvtRead]
    · simp [exec, execEvtReadWrite, withRole_served _ _ _ hs, hr]

/-! ### What a write does by its access class (R9, R11, R467, R469, R496) -/

theorem busWrite_undefined (hm : mailboxAddr a = false) (h : clsOf a = none) : busWrite s path a v = (undefinedAddr s path a, 0) := by
  simp [busWrite, hm, h]

theorem busWrite_ro (hm : mailboxAddr a = false) (h : clsOf a = some .ro) :
    busWrite s path a v = (if holdsW1c a then writeW1c s path a v else s, 0) := by
  simp [busWrite, hm, h]

theorem busWrite_w1c (hm : mailboxAddr a = false) (h : clsOf a = some .w1c) : busWrite s path a v = (writeW1c s path a v, 0) := by
  simp [busWrite, hm, h]

theorem busWrite_rw (hm : mailboxAddr a = false) (h : clsOf a = some .rw) : busWrite s path a v = (writeRw s path a v, 0) := by
  simp [busWrite, hm, h]

theorem busWrite_se (hm : mailboxAddr a = false) (h : clsOf a = some .se) : busWrite s path a v = (refuseSe s path a, 5) := by
  simp [busWrite, hm, h]

theorem busWrite_ls (hm : mailboxAddr a = false) (h : clsOf a = some .ls) : busWrite s path a v = lsWrite s path a v := by
  simp [busWrite, hm, h]

theorem busWrite_wo (hm : mailboxAddr a = false) (h : clsOf a = some .wo) : busWrite s path a v = writeWo s path a v := by
  simp [busWrite, hm, h]

/-- A refused SE write leaves every word of the Ladle's maps. -/
theorem refuseSe_ladle (s : State) (path : PathId) (a : Nat) : (refuseSe s path a).ladle = s.ladle := by
  simp [refuseSe, journalRefusal]

/-- EVT_READ, LADLE_VIEW and KDM_HOST are RW registers outside the mailboxes. -/
theorem clsOf_rwRegisters : clsOf 0x104 = some .rw ∧ clsOf 0x10014 = some .rw ∧ clsOf 0x100040 = some .rw := by decide

/-- Settles O29, class by class. -/
theorem writesFollowTheAccessClass : Obligations.WritesFollowTheAccessClass := by
  intro s path a v hm
  obtain ⟨hevt, hview, hkdm⟩ := clsOf_rwRegisters
  refine ⟨?_, busWrite_undefined hm, ?_, ?_, ?_, ?_, ?_, ?_, busWrite_wo hm, busWrite_ls hm⟩
  · intro h hw
    simp [busWrite_ro hm h, hw]
  · intro h
    rw [busWrite_se hm h]
    exact ⟨rfl, rfl, refuseSe_ladle s path a⟩
  · intro h h1 h2 h3
    rw [busWrite_rw hm h, writeRw, if_neg h1, if_neg h2, if_neg h3]
    rfl
  · rintro rfl
    rw [busWrite_rw hm hevt]
    rfl
  · rintro rfl
    rw [busWrite_rw hm hview]
    rfl
  · rintro rfl
    rw [busWrite_rw hm hkdm]
    rfl
  · rintro (h | ⟨h, hw⟩)
    · exact busWrite_w1c hm h
    · rw [busWrite_ro hm h, if_pos hw]

end Sys2Proof.Machine
end

section
/-! SUPPORT. Two updates of one entry of a list, and of the sequencer of one output, as one update. -/
namespace Sys2Proof.Machine

variable {α : Type} {s : State}

/-- An update counts only by what it does to the entry that is there. -/
theorem upd_congr {l : List α} {i : Nat} {d : α} {f g : α → α} (h : f (nth l i d) = g (nth l i d)) : upd l i f = upd l i g := by
  refine List.ext_getElem? fun j => ?_
  simp only [upd, List.getElem?_modify]
  split
  · next e =>
    subst e
    cases hl : l[i]? with
    | none => rfl
    | some x =>
      have hx : nth l i d = x := by simp [nth, hl]
      rw [hx] at h
      simp [h]
  · rfl

theorem upd_upd (l : List α) (i : Nat) (f g : α → α) : upd (upd l i f) i g = upd l i (g ∘ f) :=
  List.modify_modify_eq f g i l

theorem modSeq_congr {o : Nat} {f g : SeqState → SeqState} (h : f (s.seqAt o) = g (s.seqAt o)) : s.modSeq o f = s.modSeq o g := by
  rw [State.modSeq, State.modSeq, upd_congr h]

theorem modSeq_modSeq (s : State) (o : Nat) (f g : SeqState → SeqState) : (s.modSeq o f).modSeq o g = s.modSeq o (g ∘ f) := by
  simp only [State.modSeq, upd_upd]

/-- An update that keeps a field keeps it whether the output is there or not. -/
theorem seqAt_modSeq {β : Type} (o : Nat) (f : SeqState → SeqState) (g : SeqState → β) (h : g (f (s.seqAt o)) = g (s.seqAt o)) :
    g ((s.modSeq o f).seqAt o) = g (s.seqAt o) := by
  by_cases ho : o < s.seq.length
  · rw [State.seqAt_same _ _ _ ho, h]
  · have : s.modSeq o f = s := by simp [State.modSeq, upd, List.modify_eq_self (by omega : s.seq.length ≤ o)]
    rw [this]

end Sys2Proof.Machine
end

section
/-! SUPPORT. What becomes of a post: acknowledged and queued, discarded, late, or waiting for room (R20 to R25, R88). -/
namespace Sys2Proof.Machine

variable {s : State} {o : Nat} {p : Post}

theorem lt_seq_length (h : s.wellShaped) (o : Fin 4) : (o : Nat) < s.seq.length := by
  simp only [State.wellShaped, State.shape, List.cons.injEq] at h
  omega

/-- The sequencer of an output the part does not have. -/
theorem seqAt_of_length_le (h : s.seq.length ≤ o) : s.seqAt o = {} := by
  simp [State.seqAt, nth, h]

theorem modSeq_of_length_le (f : SeqState → SeqState) (h : s.seq.length ≤ o) : s.modSeq o f = s := by
  simp [State.modSeq, upd, List.modify_eq_self h]

/-- A post leaves the wait: from then on it is discarded, late or in the queue (R23, R24, R88). -/
def acknowledge (s : State) (o : Nat) (p : Post) : State :=
  let slack : Int := (p.fire : Int) - s.tb.tick
  if discards s o p then s
  else if slack < minLead (s.rt o) o p.cls then holdFaultCore (countLate s o slack) o p.frame p.fire s.tb.tick
  else s.modSeq o fun q => { q with queue := insertPost { p with slack := slack } q.queue }

theorem ackWaiting_of_room (hw : (s.seqAt o).waiting = some p) (hr : hasRoom (s.seqAt o) = true) :
    ackWaiting s o = acknowledge (s.modSeq o fun q => { q with waiting := none }) o p := by
  simp only [ackWaiting, hw, hr, Bool.not_true, Bool.false_eq_true, if_false]
  rfl

theorem ackWaiting_of_full (hr : hasRoom (s.seqAt o) = false) : ackWaiting s o = s := by
  unfold ackWaiting
  split <;> simp [hr]

/-- The state in which a post reaches the timebase: counted, and waiting for its acknowledge. -/
theorem post_of_none (hw : (s.seqAt o).waiting = none) :
    post s o p = ackWaiting (s.modSeq o fun q => { q with
      posts := (s.seqAt o).posts + 1, waiting := some { p with ord := (s.seqAt o).posts } }) o := by
  simp only [post, hw, Option.isSome_none, Bool.false_eq_true, if_false]
  exact congrArg (ackWaiting · o) (modSeq_congr rfl)

/-- With room in the queue a post is acknowledged at once (R20). -/
theorem post_of_room (ho : o < s.seq.length) (hw : (s.seqAt o).waiting = none) (hr : hasRoom (s.seqAt o) = true) :
    post s o p = acknowledge (s.modSeq o fun q => { q with posts := (s.seqAt o).posts + 1, waiting := none }) o
      { p with ord := (s.seqAt o).posts } := by
  rw [post_of_none hw, ackWaiting_of_room (p := { p with ord := (s.seqAt o).posts }), modSeq_modSeq]
  · rfl
  · rw [State.seqAt_same _ _ _ ho]
  · rwa [State.seqAt_same _ _ _ ho]

/-- With a full queue a post waits (R20). -/
theorem post_of_full (hw : (s.seqAt o).waiting = none) (hr : hasRoom (s.seqAt o) = false) :
    post s o p = s.modSeq o fun q => { q with
      posts := (s.seqAt o).posts + 1, waiting := some { p with ord := (s.seqAt o).posts } } := by
  rw [post_of_none hw, ackWaiting_of_full]
  exact (seqAt_modSeq o _ hasRoom rfl).trans hr

theorem post_of_length_le (h : s.seq.length ≤ o) : post s o p = s := by
  have hw : (s.seqAt o).waiting = none := by rw [seqAt_of_length_le h]
  rw [post_of_none hw, modSeq_of_length_le _ h, ackWaiting_of_none hw]

/-- No event of an output that is neither held nor dark is discarded. -/
theorem discards_of_lit (hh : (s.seqAt o).holding = false) (hd : (s.portAt o).darkByLink = false) : discards s o p = false := by
  simp [discards, hh, hd]

theorem acknowledge_inTime (hd : discards s o p = false) (h : s.tb.tick + minLead (s.rt o) o p.cls ≤ p.fire) :
    acknowledge s o p = s.modSeq o fun q => { q with queue := insertPost { p with slack := (p.fire : Int) - s.tb.tick } q.queue } := by
  simp only [acknowledge, hd, Bool.false_eq_true, if_false]
  rw [if_neg (by omega)]

theorem acknowledge_late (hd : discards s o p = false) (h : p.fire < s.tb.tick + minLead (s.rt o) o p.cls) :
    acknowledge s o p = holdFaultCore (countLate s o ((p.fire : Int) - s.tb.tick)) o p.frame p.fire s.tb.tick := by
  simp only [acknowledge, hd, Bool.false_eq_true, if_false]
  rw [if_pos (by omega)]

theorem acknowledge_discarded (hd : discards s o p = true) : acknowledge s o p = s := by
  simp [acknowledge, hd]

/-- A post in time, of an output neither held nor dark, joins the queue (R23). -/
theorem post_inTime (hw : (s.seqAt o).waiting = none) (hr : hasRoom (s.seqAt o) = true) (hh : (s.seqAt o).holding = false)
    (hd : (s.portAt o).darkByLink = false) (h : s.tb.tick + minLead (s.rt o) o p.cls ≤ p.fire) :
    post s o p = s.modSeq o fun q => { q with
      posts := (s.seqAt o).posts + 1, waiting := none
      queue := insertPost { p with ord := (s.seqAt o).posts, slack := (p.fire : Int) - s.tb.tick } q.queue } := by
  obtain ho | ho := Nat.lt_or_ge o s.seq.length
  · rw [post_of_room ho hw hr, acknowledge_inTime, modSeq_modSeq]
    · rfl
    · refine discards_of_lit ?_ hd
      exact (seqAt_modSeq o _ SeqState.holding rfl).trans hh
    · exact h
  · rw [post_of_length_le ho, modSeq_of_length_le _ ho]

/-- The event a sequencer posts when its list is empty: one of the present frame (R66). -/
def presentPost (s : State) (o cls idx fire fine payload : Nat) : Post :=
  { cls := cls, idx := idx, fire := resolveFire s.tb.tick fire, fine := fine, payload := payload, slack := 0, frame := (s.tgAt o).counter }

section
variable {cls idx fire fine payload : Nat}

theorem execEventPost_present (hc : cls ≤ 5) (hw : (s.seqAt o).waiting = none) (hu : (s.seqAt o).unposted = []) :
    execEventPost o cls idx fire fine payload s = .next (post s o (presentPost s o cls idx fire fine payload)) := by
  have h : ¬ (5 < cls ∨ (s.seqAt o).waiting.isSome = true) := by simp [hw]; omega
  simp only [execEventPost, if_neg h, hu, presentPost]

theorem execEventPost_front {e : Post} {rest : List Post} (hc : cls ≤ 5) (hw : (s.seqAt o).waiting = none)
    (hu : (s.seqAt o).unposted = e :: rest) (he : e.is cls idx (resolveFire s.tb.tick fire) fine payload = true) :
    execEventPost o cls idx fire fine payload s = .next (post (s.modSeq o fun q => { q with unposted := rest }) o e) := by
  have h : ¬ (5 < cls ∨ (s.seqAt o).waiting.isSome = true) := by simp [hw]; omega
  simp only [execEventPost, if_neg h, hu, if_pos he]

/-- An event that is not the front one of its list does not overtake it (R86). -/
theorem execEventPost_notFront {e : Post} {rest : List Post} (hu : (s.seqAt o).unposted = e :: rest)
    (he : e.is cls idx (resolveFire s.tb.tick fire) fine payload = false) : execEventPost o cls idx fire fine payload s = .next s := by
  simp [execEventPost, hu, he]

theorem execEventPost_reserved (hc : 5 < cls) : execEventPost o cls idx fire fine payload s = .next s := by
  simp [execEventPost, hc]

end

theorem Post.is_iff (e : Post) (cls idx fire fine payload : Nat) : e.is cls idx fire fine payload = true ↔
    e.cls = cls ∧ e.idx = idx ∧ e.fire = fire ∧ e.fine = fine ∧ e.payload = payload := by
  simp [Post.is, and_assoc]

section
variable {cls idx fire fine payload : Nat}

/-- An event of the present frame that is in time joins the queue of its output. -/
theorem execEventPost_present_inTime (hc : cls ≤ 5) (hw : (s.seqAt o).waiting = none) (hu : (s.seqAt o).unposted = [])
    (hr : hasRoom (s.seqAt o) = true) (hh : (s.seqAt o).holding = false) (hd : (s.portAt o).darkByLink = false)
    (hlead : s.tb.tick + minLead (s.rt o) o cls ≤ resolveFire s.tb.tick fire) :
    execEventPost o cls idx fire fine payload s = .next (s.modSeq o fun q => { q with
      posts := (s.seqAt o).posts + 1, waiting := none
      queue := insertPost { presentPost s o cls idx fire fine payload with
        ord := (s.seqAt o).posts, slack := (resolveFire s.tb.tick fire : Int) - s.tb.tick } q.queue }) := by
  rw [execEventPost_present hc hw hu, post_inTime hw hr hh hd hlead]
  rfl

/-- So does the front event of its sequencer's list. -/
theorem execEventPost_front_inTime {e : Post} {rest : List Post} (hc : cls ≤ 5) (hw : (s.seqAt o).waiting = none)
    (hu : (s.seqAt o).unposted = e :: rest) (he : e.is cls idx (resolveFire s.tb.tick fire) fine payload = true)
    (hr : hasRoom (s.seqAt o) = true) (hh : (s.seqAt o).holding = false) (hd : (s.portAt o).darkByLink = false)
    (hlead : s.tb.tick + minLead (s.rt o) o cls ≤ resolveFire s.tb.tick fire) :
    execEventPost o cls idx fire fine payload s = .next (s.modSeq o fun q => { q with
      unposted := rest, posts := (s.seqAt o).posts + 1, waiting := none
      queue := insertPost { e with
        ord := (s.seqAt o).posts, slack := (resolveFire s.tb.tick fire : Int) - s.tb.tick } q.queue }) := by
  obtain ⟨rfl, -, hfire, -, -⟩ := (e.is_iff _ _ _ _ _).1 he
  have ho : o < s.seq.length := by
    by_contra h
    simp [seqAt_of_length_le (Nat.not_lt.1 h)] at hu
  have hat : (s.modSeq o fun q => { q with unposted := rest }).seqAt o = { s.seqAt o with unposted := rest } :=
    State.seqAt_same _ _ _ ho
  rw [execEventPost_front hc hw hu he, post_inTime, modSeq_modSeq, hat, ← hfire]
  · rfl
  · rwa [hat]
  · rwa [hat]
  · rwa [hat]
  · exact hd
  · rwa [hfire]

/-- A late event of the present frame is counted, and holds and darkens its output (R24, R25, R88). -/
theorem execEventPost_present_late (ho : o < s.seq.length) (hc : cls ≤ 5) (hw : (s.seqAt o).waiting = none)
    (hu : (s.seqAt o).unposted = []) (hr : hasRoom (s.seqAt o) = true) (hh : (s.seqAt o).holding = false)
    (hd : (s.portAt o).darkByLink = false) (hlate : resolveFire s.tb.tick fire < s.tb.tick + minLead (s.rt o) o cls) :
    execEventPost o cls idx fire fine payload s = .next (holdFaultCore (s.modSeq o fun q => { q with
         posts := (s.seqAt o).posts + 1
         waiting := none
         lateCount := satAdd 0xFFFFFFFF q.lateCount 1
         runningMin := min q.runningMin (resolveFire s.tb.tick fire - s.tb.tick)
         slackRunMin := min q.slackRunMin (resolveFire s.tb.tick fire - s.tb.tick) })
       o (s.tgAt o).counter (resolveFire s.tb.tick fire) s.tb.tick) := by
  have hlit : discards (s.modSeq o fun q => { q with posts := (s.seqAt o).posts + 1, waiting := none }) o
      { presentPost s o cls idx fire fine payload with ord := (s.seqAt o).posts } = false :=
    discards_of_lit ((seqAt_modSeq o _ SeqState.holding rfl).trans hh) hd
  rw [execEventPost_present hc hw hu, post_of_room ho hw hr, acknowledge_late hlit hlate, countLate, modSeq_modSeq]
  simp only [recordSlack, presentPost, Int.toNat_sub, State.modSeq_tb, Function.comp_def]

/-- An event of a held frame is acknowledged and discarded, a mark apart (R88). -/
theorem execEventPost_present_held (hc : cls ≤ 4) (hw : (s.seqAt o).waiting = none) (hu : (s.seqAt o).unposted = [])
    (hr : hasRoom (s.seqAt o) = true) (hh : (s.seqAt o).holding = true) (hf : (s.tgAt o).counter ≤ (s.seqAt o).holdUntil) :
    execEventPost o cls idx fire fine payload s =
      .next (s.modSeq o fun q => { q with posts := (s.seqAt o).posts + 1, waiting := none }) := by
  have ho : o < s.seq.length := by
    by_contra h
    simp [seqAt_of_length_le (Nat.not_lt.1 h)] at hh
  have hmark : cls ≠ 5 := by omega
  rw [execEventPost_present (by omega) hw hu, post_of_room ho hw hr, acknowledge_discarded]
  simp [discards, State.seqAt_same _ _ _ ho, hh, presentPost, hf, hmark]

end

/-- Settles O10: by what an event's place in its list makes of it, and by what becomes of a post. -/
theorem postedEvents : Obligations.PostedEvents := by
  refine ⟨?_, ⟨?_, ?_, ?_, ?_⟩, ?_⟩
  · intro s o cls idx fire fine payload hc hw hr hh hd hlead
    exact ⟨fun hu => ⟨_, execEventPost_present_inTime hc hw hu hr hh hd hlead, rfl, rfl, rfl, rfl, rfl, rfl, rfl⟩,
      fun e rest hu he => ⟨_, execEventPost_front_inTime hc hw hu he hr hh hd hlead, rfl⟩⟩
  · intro s o cls idx fire fine payload hc
    exact execEventPost_reserved hc
  · intro s o cls idx fire fine payload e rest hu he
    exact execEventPost_notFront hu he
  · intro s o cls idx fire fine payload hc hw hu hr
    exact ⟨_, (execEventPost_present hc hw hu).trans (congrArg _ (post_of_full hw hr)), rfl, rfl, rfl, rfl, rfl⟩
  · intro s o cls idx fire fine payload hc hw hu hr hh hf
    exact execEventPost_present_held hc hw hu hr hh hf
  · intro s o cls idx fire fine payload hs hc hw hu hr hh hd hlate
    exact execEventPost_present_late (lt_seq_length hs o) hc hw hu hr hh hd hlate

end Sys2Proof.Machine
end

section
/-! SUPPORT. The order of the event queue, and what the event at its front does when it fires (R21, R25, R71, R401). -/
namespace Sys2Proof.Machine

variable {s : State} {o : Nat} {p : Post}

/-- An event fires no later than another, by fire time and fine offset. -/
abbrev Post.notAfter (a b : Post) : Prop := a.fire < b.fire ∨ (a.fire = b.fire ∧ a.fine ≤ b.fine)

theorem Post.notAfter_of_not {a b : Post} (h : ¬ a.notAfter b) : b.notAfter a := by
  unfold notAfter at *
  omega

theorem Post.notAfter_trans {a b c : Post} (h : a.notAfter b) (k : b.notAfter c) : a.notAfter c := by
  unfold notAfter at *
  omega

theorem insertPost_cons_of_notAfter {a : Post} {r : List Post} (h : a.notAfter p) : insertPost p (a :: r) = a :: insertPost p r := by
  unfold Post.notAfter at h
  rw [insertPost, if_neg (by omega)]

theorem insertPost_cons_of_not {a : Post} {r : List Post} (h : ¬ a.notAfter p) : insertPost p (a :: r) = p :: a :: r := by
  unfold Post.notAfter at h
  rw [insertPost, if_pos (by omega)]

/-- A post comes after every event that fires no later than it and before every other. -/
theorem insertPost_eq (p : Post) (q : List Post) (h : q.Pairwise Post.notAfter) :
    insertPost p q = (q.filter fun a => decide (a.notAfter p)) ++ p :: q.filter fun a => decide ¬ a.notAfter p := by
  induction q with
  | nil => rfl
  | cons a r ih =>
    rw [List.pairwise_cons] at h
    obtain ⟨ha, hr⟩ := h
    by_cases hap : a.notAfter p
    · simp only [insertPost_cons_of_notAfter hap, ih hr, List.filter_cons, hap, decide_true, not_true, decide_false, if_true,
        Bool.false_eq_true, if_false, List.cons_append]
    · have hlater : ∀ b ∈ r, ¬ b.notAfter p := fun b hb hbp => hap (Post.notAfter_trans (ha b hb) hbp)
      rw [insertPost_cons_of_not hap, List.filter_eq_nil_iff.2, List.filter_eq_self.2]
      · rfl
      · intro b hb
        obtain rfl | hb := List.mem_cons.1 hb
        · exact decide_eq_true hap
        · exact decide_eq_true (hlater b hb)
      · intro b hb
        obtain rfl | hb := List.mem_cons.1 hb
        · exact fun h => hap (of_decide_eq_true h)
        · exact fun h => hlater b hb (of_decide_eq_true h)

theorem insertPost_pairwise (p : Post) (q : List Post) (h : q.Pairwise Post.notAfter) : (insertPost p q).Pairwise Post.notAfter := by
  rw [insertPost_eq p q h, List.pairwise_append, List.pairwise_cons]
  have hfirst : ∀ a ∈ q.filter fun a => decide (a.notAfter p), a.notAfter p := fun a ha =>
    of_decide_eq_true (List.mem_filter.1 ha).2
  have hrest : ∀ a ∈ q.filter fun a => decide ¬ a.notAfter p, p.notAfter a := fun a ha =>
    Post.notAfter_of_not (of_decide_eq_true (List.mem_filter.1 ha).2)
  refine ⟨h.filter _, ⟨hrest, h.filter _⟩, fun a ha b hb => ?_⟩
  obtain rfl | hb := List.mem_cons.1 hb
  · exact hfirst a ha
  · exact Post.notAfter_trans (hfirst a ha) (hrest b hb)

/-! ### Firing -/

variable {rest : List Post}

theorem execEventFire_front (hq : (s.seqAt o).queue = p :: rest) : execEventFire o true s =
    .next (ackWaiting (fireAt ((s.modSeq o fun q => { q with queue := rest }).modSeq o fun q => recordSlack q p.slack) o p) o) := by
  simp only [execEventFire, hq, if_true]

theorem execEventFire_twins (hq : (s.seqAt o).queue = p :: rest) : execEventFire o false s =
    .next (ackWaiting (twinTrip (s.modSeq o fun q => { q with queue := rest }) o p) o) := by
  simp only [execEventFire, hq, Bool.false_eq_true, if_false]

theorem fireAt_amplitude (hc : p.cls = 1) (hi : p.idx < 6) :
    fireAt s o p = applyAmplitude s o p.idx (if (frontBuf s o).dark then 0 else p.payload % 65536) := by
  simp only [fireAt, hc, if_pos hi]

theorem fireAt_mark (hc : p.cls = 5) : fireAt s o p = s := by
  simp only [fireAt, hc]

/-- Settles O12: the queue by the place of a post in it, the front event by its class. -/
theorem eventsKeepTheirOrderAndFire : Obligations.EventsKeepTheirOrderAndFire := by
  refine ⟨fun p q h => ⟨insertPost_pairwise p q h, insertPost_eq p q h⟩, ?_, ?_, ?_⟩
  · intro s o p rest hq hc hi
    refine (execEventFire_front hq).trans ?_
    rw [fireAt_amplitude hc hi]
    rfl
  · intro s o p rest hq hw hc
    refine (execEventFire_front hq).trans ?_
    rw [fireAt_mark hc, ackWaiting_of_none]
    · rfl
    · rw [modSeq_modSeq]
      exact (seqAt_modSeq _ _ SeqState.waiting rfl).trans hw
  · intro s o p rest hq
    exact execEventFire_twins hq

end Sys2Proof.Machine
end

section
/-! SUPPORT. The pairs of a Pour and the settings they come into (R247, R252). -/
namespace Sys2Proof.Machine

variable {α : Type}

/-- The addresses of a list of pairs rise strictly. -/
abbrev Rising (m : List (Nat × α)) : Prop := m.Pairwise fun a b => a.1 < b.1

theorem Sparse.mem_put {m : List (Nat × α)} {k : Nat} {v : α} {e : Nat × α} (h : e ∈ Sparse.put m k v) : e = (k, v) ∨ e ∈ m := by
  induction m with
  | nil => exact .inl (List.mem_singleton.1 h)
  | cons a r ih =>
    obtain ⟨b, w⟩ := a
    rw [Sparse.put] at h
    split at h
    · exact List.mem_cons.1 h
    · split at h
      · obtain h | h := List.mem_cons.1 h
        · exact .inl h
        · exact .inr (List.mem_cons_of_mem _ h)
      · obtain h | h := List.mem_cons.1 h
        · exact .inr (h ▸ List.mem_cons_self)
        · exact (ih h).imp_right (List.mem_cons_of_mem _)

theorem Sparse.mem_put_self (m : List (Nat × α)) (k : Nat) (v : α) : (k, v) ∈ Sparse.put m k v := by
  induction m with
  | nil => exact List.mem_singleton_self _
  | cons a r ih =>
    obtain ⟨b, w⟩ := a
    rw [Sparse.put]
    split
    · exact List.mem_cons_self
    · split
      · exact List.mem_cons_self
      · exact List.mem_cons_of_mem _ ih

theorem Sparse.mem_put_of_ne {m : List (Nat × α)} {k : Nat} {v : α} {e : Nat × α} (h : e ∈ m) (hk : e.1 ≠ k) : e ∈ Sparse.put m k v := by
  induction m with
  | nil => cases h
  | cons a r ih =>
    obtain ⟨b, w⟩ := a
    rw [Sparse.put]
    split
    · exact List.mem_cons_of_mem _ h
    · split
      · obtain rfl | h := List.mem_cons.1 h
        · exact absurd (Eq.symm ‹k = b›) hk
        · exact List.mem_cons_of_mem _ h
      · obtain rfl | h := List.mem_cons.1 h
        · exact List.mem_cons_self
        · exact List.mem_cons_of_mem _ (ih h)

theorem Sparse.rising_put {m : List (Nat × α)} (h : Rising m) (k : Nat) (v : α) : Rising (Sparse.put m k v) := by
  induction m with
  | nil => exact List.pairwise_singleton _ _
  | cons a r ih =>
    obtain ⟨b, w⟩ := a
    have hr := h
    rw [Rising, List.pairwise_cons] at hr
    obtain ⟨hb, hr⟩ := hr
    rw [Sparse.put]
    split
    · refine List.pairwise_cons.2 ⟨fun e he => ?_, h⟩
      obtain rfl | he := List.mem_cons.1 he
      · assumption
      · exact lt_trans ‹k < b› (hb e he)
    · split
      · subst k
        exact List.pairwise_cons.2 ⟨hb, hr⟩
      · refine List.pairwise_cons.2 ⟨fun e he => ?_, ih hr⟩
        obtain rfl | he := Sparse.mem_put he
        · dsimp only
          omega
        · exact hb e he

theorem Sparse.rising_foldl_put (l m : List (Nat × α)) (h : Rising m) : Rising (l.foldl (fun m e => Sparse.put m e.1 e.2) m) := by
  induction l generalizing m with
  | nil => exact h
  | cons e l ih => exact ih _ (Sparse.rising_put h _ _)

/-- Pairs whose values their addresses determine are all kept. -/
theorem Sparse.mem_foldl_put {f : Nat → α} {l : List Nat} {m : List (Nat × α)} {a : Nat} (h : a ∈ l ∨ (a, f a) ∈ m) :
    (a, f a) ∈ (l.map fun b => (b, f b)).foldl (fun m e => Sparse.put m e.1 e.2) m := by
  induction l generalizing m with
  | nil => exact h.resolve_left (List.not_mem_nil)
  | cons b l ih =>
    refine ih ?_
    by_cases hab : a = b
    · subst hab
      exact .inr (Sparse.mem_put_self m a (f a))
    · obtain h | h := h
      · exact .inl ((List.mem_cons.1 h).resolve_left hab)
      · exact .inr (Sparse.mem_put_of_ne h hab)

theorem Sparse.mem_of_mem_foldl_put {l m : List (Nat × α)} {e : Nat × α} (h : e ∈ l.foldl (fun m e => Sparse.put m e.1 e.2) m) :
    e ∈ l ∨ e ∈ m := by
  induction l generalizing m with
  | nil => exact .inr h
  | cons b l ih =>
    obtain h | h := ih h
    · exact .inl (List.mem_cons_of_mem _ h)
    · obtain rfl | h := Sparse.mem_put h
      · exact .inl List.mem_cons_self
      · exact .inr h

/-! ### Settings after a list of writes -/

theorem WordMap.get_set {m : WordMap} (hm : Sparse.wf cfgDefault m = true) (k a : Nat) (v : Word) :
    (m.set k v).get a = if a / 4 * 4 = k / 4 * 4 then v else m.get a :=
  Sparse.get_set cfgDefault m (k / 4 * 4) (a / 4 * 4) v hm

theorem WordMap.wf_set {m : WordMap} (hm : Sparse.wf cfgDefault m = true) (k : Nat) (v : Word) : Sparse.wf cfgDefault (m.set k v) = true :=
  Sparse.wf_set cfgDefault m (k / 4 * 4) v hm

theorem WordMap.get_setAll_of_notMem {l : List (Nat × Word)} {m : WordMap} {a : Nat} (hm : Sparse.wf cfgDefault m = true)
    (h : ∀ e ∈ l, e.1 / 4 * 4 ≠ a / 4 * 4) : (m.setAll l).get a = m.get a := by
  induction l generalizing m with
  | nil => rfl
  | cons e l ih =>
    obtain ⟨he, hl⟩ := List.forall_mem_cons.1 h
    exact (ih (WordMap.wf_set hm _ _) hl).trans ((WordMap.get_set hm _ _ _).trans (if_neg (Ne.symm he)))

/-- Of writes at different aligned addresses, each is read afterwards. -/
theorem WordMap.get_setAll_of_mem {l : List (Nat × Word)} {m : WordMap} {e : Nat × Word} (hm : Sparse.wf cfgDefault m = true)
    (hl : Rising l) (ha : ∀ e ∈ l, e.1 % 4 = 0) (he : e ∈ l) : (m.setAll l).get e.1 = e.2 := by
  induction l generalizing m with
  | nil => cases he
  | cons b l ih =>
    obtain ⟨hb, hl⟩ := List.pairwise_cons.1 hl
    obtain ⟨hab, hal⟩ := List.forall_mem_cons.1 ha
    have hm' := WordMap.wf_set hm b.1 b.2
    obtain rfl | he := List.mem_cons.1 he
    · refine (WordMap.get_setAll_of_notMem hm' fun c hc => ?_).trans ((WordMap.get_set hm _ _ _).trans (if_pos rfl))
      have hlt := hb c hc
      have hc4 := hal c hc
      omega
    · exact ih hm' hl hal he

theorem rising_pourPairs (s : State) (p : Pour) : Rising (pourPairs s p) := Sparse.rising_foldl_put _ _ List.Pairwise.nil

/-- The pairs of a Pour without sealed words: each word it applies, with its staged value. -/
theorem mem_pourPairs {s : State} {p : Pour} (h : sealedOf s p = []) {a : Nat} (ha : a ∈ pourWords s.ladle p.mask) :
    (a, s.ladle.stg.clean a) ∈ pourPairs s p := by
  rw [pourPairs, h, clearedPairs, List.map_nil, List.append_nil]
  exact Sparse.mem_foldl_put (.inl ha)

theorem mem_pourWords_of_mem_pourPairs {s : State} {p : Pour} (h : sealedOf s p = []) {e : Nat × Word} (he : e ∈ pourPairs s p) :
    e.1 ∈ pourWords s.ladle p.mask := by
  rw [pourPairs, h, clearedPairs, List.map_nil, List.append_nil] at he
  obtain he | he := Sparse.mem_of_mem_foldl_put he
  · obtain ⟨a, ha, rfl⟩ := List.mem_map.1 he
    exact ha
  · cases he

/-- Settles O27: the pairs of a Pour have different addresses, so each is read as it was written, and no other word moves. -/
theorem committedWordsComeIntoForceTogether : Obligations.CommittedWordsComeIntoForceTogether := by
  intro s p hact hstg halign
  have hrise := rising_pourPairs s p
  have hin : ∀ e ∈ pourPairs s p, (takeWords s p).ladle.act.get e.1 = e.2 := fun e he =>
    WordMap.get_setAll_of_mem hact hrise halign he
  refine ⟨fun e he => ⟨hin e he, WordMap.get_setAll_of_mem hstg hrise halign he⟩, fun a ha hne => ?_, fun hs => ⟨?_, fun a ha => ?_⟩,
    rfl, rfl, rfl, rfl⟩
  · have hother : ∀ e ∈ pourPairs s p, e.1 / 4 * 4 ≠ a / 4 * 4 := fun e he => by
      have h4 := halign e he
      have h := hne e he
      omega
    exact ⟨WordMap.get_setAll_of_notMem hact hother, WordMap.get_setAll_of_notMem hstg hother⟩
  · intro a ha
    obtain ⟨e, he, rfl⟩ := List.mem_map.1 ha
    exact mem_pourWords_of_mem_pourPairs hs he
  · exact hin _ (mem_pourPairs hs ha)

end Sys2Proof.Machine
end

section
/-! SUPPORT. Updates of the outputs that a mask names, and the reads that latch (R25, R65, R233, R280). -/
namespace Sys2Proof.Machine

variable {s : State} {path : PathId}

/-- Updating to itself the output that a condition leaves out. -/
theorem modSeq_ite (s : State) (c : Bool) (o : Nat) (f : SeqState → SeqState) :
    (if c then s.modSeq o f else s) = s.modSeq o fun q => if c then f q else q := by
  cases c
  · exact (show s.modSeq o id = s by simp [State.modSeq, upd, List.modify_id]).symm
  · rfl

/-- The updates of the four outputs that satisfy a condition, as one map over the outputs. -/
theorem foldl_modSeq_outputs (s : State) (c : Nat → Bool) (f : SeqState → SeqState) :
    outputs.foldl (fun s o => if c o then s.modSeq o f else s) s =
      { s with seq := s.seq.mapIdx fun o q => if o < 4 ∧ c o = true then f q else q } := by
  simp only [modSeq_ite, outputs, List.foldl]
  refine congrArg (fun l => { s with seq := l }) (List.ext_getElem? fun j => ?_)
  simp only [State.modSeq, upd, List.getElem?_modify, List.getElem?_mapIdx]
  obtain rfl | rfl | rfl | rfl | hj : j = 0 ∨ j = 1 ∨ j = 2 ∨ j = 3 ∨ 4 ≤ j := by omega
  · simp
  · simp
  · simp
  · simp
  · have : ∀ k, k < 4 → k ≠ j := by omega
    simp [this, Nat.not_lt.2 hj]

theorem withRole_held (addr : Nat) (f : State → State) {role : Nat} (hs : serves s path = true) (hr : hasRole s path role = true) :
    withRole s path role addr f = f s := by
  rw [withRole_served role addr f hs, if_pos hr]

/-- Settles O13. -/
theorem clearAndLatchingReads : Obligations.ClearAndLatchingReads := by
  refine ⟨fun s path v hs => ?_, fun s path hs hr => ?_, fun s path o hs hr => ?_, fun s path hs hr => ?_⟩
  · refine (show exec (.slackClear path v) s = .next (slackClear s v.toNat) by simp [exec, execSlackClear, hs]).trans ?_
    rw [slackClear, foldl_modSeq_outputs s (nbit v.toNat)]
  · exact congrArg _ (withRole_held _ _ hs hr)
  · exact congrArg _ (withRole_held _ _ hs hr)
  · exact congrArg _ (withRole_held _ _ hs hr)

end Sys2Proof.Machine
end

section
/-! SUPPORT. What the response to a fault, a HALT or the end of a frame keeps: the settings that the real-time engines act on, what a
composition start has captured, the frames under construction and the answer of the HBM3 controller (R25, R38, R88, R252, R409). -/
namespace Sys2Proof.Machine

/-- What the operations below leave as it was: they stop frames and outputs, but change neither the settings in force for the
engines, nor whether a generator holds captured ones, nor the number and settings of a frame, nor the last answer of the HBM3. -/
def State.kept (s : State) : List WordMap × List Bool × List (Option (Nat × Snapshot)) × Nat × Nat × List Byte :=
  (s.ladle.rt, s.tg.map (·.ctaken), s.comp.map (fun c => c.fuc.map fun f => (f.frame, f.snap)),
   s.hbm.ansRunner, s.hbm.ansKind, s.hbm.ansData)

variable (s : State)

/-! ### One update -/

@[simp] theorem kept_seq (o : Nat) (f : SeqState → SeqState) : (s.modSeq o f).kept = s.kept := rfl
@[simp] theorem kept_enc (o : Nat) (f : EncState → EncState) : (s.modEnc o f).kept = s.kept := rfl
@[simp] theorem kept_port (o : Nat) (f : PortState → PortState) : (s.modPort o f).kept = s.kept := rfl
@[simp] theorem kept_scan (o : Nat) (f : ScanState → ScanState) : (s.modScan o f).kept = s.kept := rfl
@[simp] theorem kept_in (i : Nat) (f : InputState → InputState) : (s.modIn i f).kept = s.kept := rfl
@[simp] theorem kept_out (o : Nat) (f : OutMode → OutMode) : (s.modOut o f).kept = s.kept := rfl
@[simp] theorem kept_str (nn : Nat) (f : StringState → StringState) : (s.modStr nn f).kept = s.kept := rfl
@[simp] theorem kept_chan (o c : Nat) (f : ChanState → ChanState) : (s.modChan o c f).kept = s.kept := rfl
@[simp] theorem kept_drive (f : DriveState → DriveState) : (s.modDrive f).kept = s.kept := rfl
@[simp] theorem kept_composer (f : ComposerState → ComposerState) : (s.modComposer f).kept = s.kept := rfl
@[simp] theorem kept_aod (f : AodState → AodState) : (s.modAod f).kept = s.kept := rfl
@[simp] theorem kept_mgmt (f : MgmtState → MgmtState) : (s.modMgmt f).kept = s.kept := rfl
@[simp] theorem kept_surf (f : SurfState → SurfState) : (s.modSurf f).kept = s.kept := rfl
@[simp] theorem kept_ann (f : AnnealState → AnnealState) : (s.modAnn f).kept = s.kept := rfl
@[simp] theorem kept_guard (f : GuardState → GuardState) : (s.modGuard f).kept = s.kept := rfl
@[simp] theorem kept_cruc (f : CrucState → CrucState) : (s.modCruc f).kept = s.kept := rfl
@[simp] theorem kept_jrn (f : JournalState → JournalState) : (s.modJrn f).kept = s.kept := rfl
@[simp] theorem kept_mode (f : ModeState → ModeState) : (s.modMode f).kept = s.kept := rfl
@[simp] theorem kept_withLog (x : LogState) : { s with log := x }.kept = s.kept := rfl
@[simp] theorem kept_withInput (x : List InputState) : { s with input := x }.kept = s.kept := rfl
@[simp] theorem kept_tg (o : Nat) (f : TgState → TgState) (h : ∀ t, (f t).ctaken = t.ctaken) : (s.modTg o f).kept = s.kept := by
  simp [State.kept, State.modTg, map_upd _ _ _ _ h]
@[simp] theorem kept_comp (o : Nat) (f : CompState → CompState)
    (h : ∀ c, (f c).fuc.map (fun f => (f.frame, f.snap)) = c.fuc.map fun f => (f.frame, f.snap)) : (s.modComp o f).kept = s.kept := by
  have hmap := map_upd s.comp o f (fun c => c.fuc.map fun f => (f.frame, f.snap)) h
  simp only [State.kept, State.modComp, hmap]
@[simp] theorem kept_ladle (f : LadleState → LadleState) (h : (f s.ladle).rt = s.ladle.rt) : (s.modLadle f).kept = s.kept := by
  simp [State.kept, State.modLadle, h]
@[simp] theorem kept_ite (c : Prop) [Decidable c] (a b : State) : (if c then a else b).kept = if c then a.kept else b.kept := by
  split <;> rfl

/-- A fold whose every step keeps it. -/
@[simp] theorem kept_foldl {α : Type} (g : State → α → State) (h : ∀ t a, (g t a).kept = t.kept) (l : List α) :
    (l.foldl g s).kept = s.kept := by
  induction l generalizing s with
  | nil => rfl
  | cons a r ih => rw [List.foldl, ih, h]

theorem Logged.kept {t : State} (h : Logged s t) : t.kept = s.kept := by rw [h]; rfl

@[simp] theorem kept_raise (code data : Nat) : (raise s code data).kept = s.kept := (logged_raise _ _).kept
@[simp] theorem kept_raiseP (code data : Nat) (path : PathId) : (raiseP s code data path).kept = s.kept := (logged_raiseP _ _ _).kept
@[simp] theorem kept_raiseSev (code sev data : Nat) (path : PathId) : (raiseSev s code sev data path).kept = s.kept :=
  (logged_raiseSev _ _ _ _).kept
@[simp] theorem kept_raiseLimited (code key data interval : Nat) (path : PathId) :
    (raiseLimited s code key data interval path).kept = s.kept := (logged_raiseLimited _ _ _ _ _).kept
@[simp] theorem kept_journalKind (kind : Nat) (path : PathId) (data : List Byte) (sev : Nat) :
    (journalKind s kind path data sev).kept = s.kept := (logged_journalKind _ _ _ _).kept
@[simp] theorem kept_recovered (code key : Nat) : (recovered s code key).kept = s.kept := (logged_recovered _ _).kept
@[simp] theorem kept_recoveryAlso (code key : Nat) : (recoveryAlso s code key).kept = s.kept := rfl
@[simp] theorem kept_recoveredAll (codes : List Nat) (key : Nat) : (recoveredAll s codes key).kept = s.kept := by
  simp [recoveredAll]
@[simp] theorem kept_journalKick : (journalKick s).kept = s.kept := by
  unfold journalKick
  repeat' split
  all_goals rfl

/-! ### Strings, modes and frames -/

@[simp] theorem kept_closeGroup (o c : Nat) : (closeGroup s o c).kept = s.kept := by simp [closeGroup]
@[simp] theorem kept_offString (nn : Nat) : (offString s nn).kept = s.kept := by simp [offString, holdLoop]
@[simp] theorem kept_stopStrings (o : Nat) : (stopStrings s o).kept = s.kept := by simp [stopStrings]
@[simp] theorem kept_noteDark (o : Nat) : (noteDark s o).kept = s.kept := by simp [noteDark]
@[simp] theorem kept_darken (o : Nat) : (darken s o).kept = s.kept := by
  unfold darken
  rw [kept_noteDark, kept_foldl _ _ fun _ _ => by rfl]
  simp
@[simp] theorem kept_modeChange (who old new : Nat) : (modeChange s who old new).kept = s.kept := by simp [modeChange]
@[simp] theorem kept_setDevice (m : Nat) : (setDevice s m).kept = s.kept := by simp [setDevice]
@[simp] theorem kept_releaseFrame (o : Nat) (phase : FramePhase) : (releaseFrame s o phase).kept = s.kept := by
  simp [releaseFrame, Function.comp_def]
@[simp] theorem kept_stopComposition (o cause : Nat) : (stopComposition s o cause).kept = s.kept := by
  unfold stopComposition
  split <;> simp
@[simp] theorem kept_dropRefs (o : Nat) : (dropRefs s o).kept = s.kept := rfl
@[simp] theorem kept_postSeq (o : Nat) (p : Post) : (postSeq s o p).kept = s.kept := by simp [postSeq]
@[simp] theorem kept_portSend (o op arg : Nat) : (portSend s o op arg).kept = s.kept := by simp [portSend]
@[simp] theorem kept_endPattern (o : Nat) : (endPattern s o).kept = s.kept := by simp [endPattern]

/-! ### Anneal runs, Pours and sessions that end -/

@[simp] theorem kept_restoreStaged (saved : List (Nat × Option Word)) : (restoreStaged s saved).kept = s.kept := by simp [restoreStaged]
@[simp] theorem kept_annReturn (r : AnnRun) (o : Nat) : (annReturn s r o).kept = s.kept := by simp [annReturn]
@[simp] theorem kept_annRelease (o : Nat) : (annRelease s o).kept = s.kept := by
  unfold annRelease
  rw [kept_noteDark, kept_foldl _ _ fun _ _ => by rfl]
@[simp] theorem kept_endMeasure (r : AnnRun) : (endMeasure s r).kept = s.kept := by simp [endMeasure]
@[simp] theorem kept_endRun (r : AnnRun) (outcome cause : Nat) : (endRun s r outcome cause).kept = s.kept := by simp [endRun]
@[simp] theorem kept_withdrawPour (st : Nat) : (withdrawPour s st).kept = s.kept := by
  unfold withdrawPour
  dsimp only
  repeat' split
  all_goals simp
@[simp] theorem kept_cancelPour (path : PathId) : (cancelPour s path).kept = s.kept := by
  unfold cancelPour
  dsimp only
  repeat' split
  all_goals simp
@[simp] theorem kept_abortRun (cause : Nat) : (abortRun s cause).kept = s.kept := by
  unfold abortRun
  split <;> simp
@[simp] theorem kept_interruptRun (o : Nat) : (interruptRun s o).kept = s.kept := by
  unfold interruptRun
  split <;> simp
@[simp] theorem kept_closeSession (k cause : Nat) : (closeSession s k cause).kept = s.kept := by
  unfold closeSession
  split <;> simp

/-! ### Trips, exits, Dusk and HALT -/

@[simp] theorem kept_trip (src : Nat) : (trip s src).kept = s.kept := by simp [trip]
@[simp] theorem kept_tripEvent (src data : Nat) (path : PathId) : (tripEvent s src data path).kept = s.kept := by
  unfold tripEvent
  split <;> simp
@[simp] theorem kept_abortTraining : (abortTraining s).kept = s.kept := by
  unfold abortTraining
  split
  · simp only [kept_recovered, kept_raise, kept_recoveryAlso]
    rfl
  · rfl
@[simp] theorem kept_duskStep1 : (duskStep1 s).kept = s.kept := by simp [duskStep1, stopUpdate]
/-- The inputs and generators that Dusk stops. -/
theorem kept_stopInputs (f : InputState → InputState) (g : TgState → TgState) (h : ∀ t, (g t).ctaken = t.ctaken) :
    { s with input := s.input.map f, tg := s.tg.map g }.kept = s.kept := by
  simp [State.kept, Function.comp_def, h]
@[simp] theorem kept_duskStep3 : (duskStep3 s).kept = s.kept := by
  unfold duskStep3
  simp [duskStep4, kept_stopInputs]
@[simp] theorem kept_duskAdvance : (duskAdvance s).kept = s.kept := by simp [duskAdvance]
@[simp] theorem kept_reachStandby (o : Nat) : (reachStandby s o).kept = s.kept := by simp [reachStandby]
@[simp] theorem kept_stopOutput (o : Nat) : (stopOutput s o).kept = s.kept := by simp [stopOutput]
@[simp] theorem kept_startExit (o auto : Nat) : (startExit s o auto).kept = s.kept := by simp [startExit]
@[simp] theorem kept_startDusk (cause : Nat) (dawn : Bool) : (startDusk s cause dawn).kept = s.kept := by simp [startDusk]
@[simp] theorem kept_haltComposition : (haltComposition s).kept = s.kept := by simp [haltComposition]
@[simp] theorem kept_haltResponse (code : Nat) : (haltResponse s code).kept = s.kept := by simp [haltResponse]
@[simp] theorem kept_raiseHalt (code data : Nat) : (raiseHalt s code data).kept = s.kept := by simp [raiseHalt]
@[simp] theorem kept_fault (code data key : Nat) : (fault s code data key).kept = s.kept := by
  unfold fault
  split <;> simp

/-! ### Hold-and-darken and the end of a frame -/

@[simp] theorem kept_discardStolen (o frame : Nat) : (discardStolen s o frame).kept = s.kept := by
  unfold discardStolen
  split <;> simp
@[simp] theorem kept_countLate (o : Nat) (slack : Int) : (countLate s o slack).kept = s.kept := by simp [countLate]
@[simp] theorem kept_holdCore (o frame fire detected : Nat) : (holdCore s o frame fire detected).kept = s.kept := by
  unfold holdCore
  dsimp only
  repeat' split
  all_goals simp
@[simp] theorem kept_holdFaultCore (o frame fire detected : Nat) : (holdFaultCore s o frame fire detected).kept = s.kept := by
  unfold holdFaultCore
  dsimp only
  repeat' split
  all_goals simp
@[simp] theorem kept_ackWaiting (o : Nat) : (ackWaiting s o).kept = s.kept := by
  unfold ackWaiting
  dsimp only
  split <;> simp
@[simp] theorem kept_holdFault (o frame fire detected : Nat) : (holdFault s o frame fire detected).kept = s.kept := by simp [holdFault]
@[simp] theorem kept_boundaryUnposted (o : Nat) : (boundaryUnposted s o).kept = s.kept := by
  unfold boundaryUnposted
  dsimp only
  split <;> simp
@[simp] theorem kept_boundarySlack (o : Nat) : (boundarySlack s o).kept = s.kept := by simp [boundarySlack]
@[simp] theorem kept_endFrame (o : Nat) : (endFrame s o).kept = s.kept := by simp [endFrame]
@[simp] theorem kept_countDuty (nn : Nat) : (countDuty s nn).kept = s.kept := by simp [countDuty, vesper]
@[simp] theorem kept_countFrame (o : Nat) : (countFrame s o).kept = s.kept := by simp [countFrame]
@[simp] theorem kept_markApplied (o : Nat) : (markApplied s o).kept = s.kept := by simp [markApplied]

/-! ### Part by part -/

variable {s} {t : State}

theorem rt_of_kept (h : t.kept = s.kept) (o : Nat) : t.rt o = s.rt o := by
  simp only [State.kept, Prod.mk.injEq] at h
  obtain ⟨hrt, -⟩ := h
  rw [State.rt, State.rt, hrt]

/-- A map over a list that is the same for two lists is the same at every place. -/
theorem nth_map_eq {α β : Type} {f : α → β} {l m : List α} (h : l.map f = m.map f) (i : Nat) (d : α) : f (nth l i d) = f (nth m i d) := by
  have hi := congrArg (fun l : List β => (l[i]?).getD (f d)) h
  simpa only [nth, List.getD_eq_getElem?_getD, List.getElem?_map, Option.getD_map] using hi

theorem ctaken_of_kept (h : t.kept = s.kept) (o : Nat) : (t.tgAt o).ctaken = (s.tgAt o).ctaken := by
  simp only [State.kept, Prod.mk.injEq] at h
  obtain ⟨-, htaken, -⟩ := h
  exact nth_map_eq htaken o {}

/-- The frame under construction is the same, by its number and its settings. -/
theorem fuc_of_kept (h : t.kept = s.kept) (o : Nat) :
    (t.compAt o).fuc.map (fun f => (f.frame, f.snap)) = (s.compAt o).fuc.map fun f => (f.frame, f.snap) := by
  simp only [State.kept, Prod.mk.injEq] at h
  obtain ⟨-, -, hfuc, -⟩ := h
  exact nth_map_eq (f := fun c : CompState => c.fuc.map fun f => (f.frame, f.snap)) hfuc o {}

theorem ansKind_of_kept (h : t.kept = s.kept) : t.hbm.ansKind = s.hbm.ansKind := by
  simp only [State.kept, Prod.mk.injEq] at h
  obtain ⟨-, -, -, -, hkind, -⟩ := h
  exact hkind

end Sys2Proof.Machine
end

section
/-! SUPPORT. An HBM3 transaction: its row, its data, its answer (R294, R308, R312). -/
namespace Sys2Proof.Machine

variable {s : State} {p : HbmPlace} {r e a ecc parity : Nat} {d : List Byte} {w : Bool}

/-! ### Rows -/

/-- An activate opens its row. -/
theorem mem_openRows_activate (m : WordMap) (h : HbmState) (p : HbmPlace) : (p.bankKey, p.row) ∈ (activate m h p).openRows := by
  unfold activate
  dsimp only
  split <;> exact List.mem_cons_self

theorem openRow_mem (s : State) (p : HbmPlace) : (openRow s p).hbm.mem = s.hbm.mem := by
  simp only [openRow, State.modHbm]
  split
  · rfl
  · exact activate_mem _ _ _

/-- The row of a transaction is open once it has been opened. -/
theorem mem_openRows_openRow (s : State) (p : HbmPlace) : (p.bankKey, p.row) ∈ (openRow s p).hbm.openRows := by
  simp only [openRow, State.modHbm]
  split
  · exact List.contains_iff_mem.1 ‹_›
  · exact mem_openRows_activate _ _ _

/-! ### Data and answers -/

theorem finishWrite_stored (s : State) (p : HbmPlace) (r a : Nat) (d : List Byte) (h : parity < 3) :
    finishWrite s p r a d parity = answerRunner ((countCorrected s p.ch parity).modHbm fun h => { h with
      mem := Memory.store ramDefault h.mem a (d.take 64) }) r 0 [] := by
  rw [finishWrite, if_neg (by omega)]

/-- A third parity error fails a write: its data stay (R312). -/
theorem finishWrite_failed (s : State) (p : HbmPlace) (r a : Nat) (d : List Byte) (h : 3 ≤ parity) :
    (finishWrite s p r a d parity).hbm.mem = s.hbm.mem ∧ (finishWrite s p r a d parity).hbm.ansKind = 2 := by
  simp only [finishWrite, if_pos h, raise_hbm]
  exact ⟨recordErr_mem _ _ _ _, rfl⟩

theorem finishRead_delivered (s : State) (p : HbmPlace) (r e a : Nat) (he : ecc ≠ 2) (h : parity < 3) :
    finishRead s p r e a ecc parity =
      answerRunner (countCorrected s p.ch (parity + ecc)) r 0 (Memory.bytes ramDefault s.hbm.mem a 64) := by
  rw [finishRead, if_neg (by omega)]

theorem poisonFrame_kept (s : State) (o cause : Nat) : (poisonFrame s o cause).kept = s.kept := by
  simp [poisonFrame, Function.comp_def]

/-- A poisoned fetch leaves the stack's content and its last answer. -/
theorem fetchPoison_hbm (s : State) (e : Nat) : (fetchPoison s e).hbm.mem = s.hbm.mem ∧ (fetchPoison s e).hbm.ansKind = s.hbm.ansKind := by
  refine ⟨congrArg (fun c => c.2.2.2.2.1) (core_fetchPoison s e), ansKind_of_kept ?_⟩
  unfold fetchPoison
  split
  · rw [poisonFrame_kept, kept_fault]
  · rfl

/-- An uncorrectable read and a third parity error answer with poison; the stack's content stays (R312). -/
theorem finishRead_poisoned (s : State) (p : HbmPlace) (r e a : Nat) (h : ecc = 2 ∨ 3 ≤ parity) :
    (finishRead s p r e a ecc parity).hbm.mem = s.hbm.mem ∧ (finishRead s p r e a ecc parity).hbm.ansKind = 1 := by
  simp only [finishRead, if_pos h]
  split
  · obtain ⟨hmem, hkind⟩ := fetchPoison_hbm (answerRunner ((countUncorrected s p.ch).modHbm fun h => recordErr h p 1 r) r 1
      (Memory.bytes ramDefault s.hbm.mem a 64)) e
    rw [hmem, hkind]
    exact ⟨recordErr_mem _ _ _ _, rfl⟩
  · rw [raise_hbm]
    exact ⟨recordErr_mem _ _ _ _, rfl⟩

/-! ### Transactions -/

/-- Whether a granted transaction fails, which ends a locked sequence (R312, R327). -/
def transactionFails (write : Bool) (ecc parity : Nat) : Bool := decide (3 ≤ parity) || (!write && ecc == 2)

theorem transactionFails_iff : transactionFails w ecc parity = true ↔ 3 ≤ parity ∨ (w = false ∧ ecc = 2) := by
  simp [transactionFails]

/-- The state in which a granted transaction has been finished. -/
def finishTransaction (s : State) (p : HbmPlace) (r e a : Nat) (w : Bool) (d : List Byte) (ecc parity : Nat) : State :=
  if w then finishWrite s p r a d parity else finishRead s p r e a ecc parity

theorem execHbmTransaction_granted (hp : p = hbmPlace s.hbm.mapOrder (a / 64 * 64)) (hi : canIssue s r (a / 64 * 64) = true)
    (ha : sequenceAdmits (s.chanAt p.ch) w = true) : execHbmTransaction r e a w d ecc parity s =
      .next (countParity (if (s.chanAt p.ch).locked && transactionFails w ecc parity
        then abandonSequence (finishTransaction (openRow s p) p r e (a / 64 * 64) w d ecc parity) r p.ch
        else carryOne (finishTransaction (openRow s p) p r e (a / 64 * 64) w d ecc parity) p.ch r w) p.ch (min parity 3)) := by
  subst hp
  simp only [execHbmTransaction, hi, ha, Bool.and_self, Bool.not_true, Bool.false_eq_true, if_false]
  rfl

theorem execHbmTransaction_notGranted (h : canIssue s r (a / 64 * 64) = false ∨
    sequenceAdmits (s.chanAt (hbmPlace s.hbm.mapOrder (a / 64 * 64)).ch) w = false) :
    execHbmTransaction r e a w d ecc parity s = .next s := by
  obtain h | h := h <;> simp [execHbmTransaction, h]

theorem canIssue_eq_false (h : hbmCapacity s ≤ a ∨ (s.chanAt (hbmPlace s.hbm.mapOrder a).ch).owner ≠ some r ∨ s.hbm.drained = true) :
    canIssue s r a = false := by
  obtain h | h | h := h
  · simp [canIssue, Nat.not_lt.2 h]
  · simp [canIssue, h]
  · simp [canIssue, carrying, h]

/-- A granted transaction that ends no sequence is carried (R319). -/
theorem execHbmTransaction_carried (hp : p = hbmPlace s.hbm.mapOrder (a / 64 * 64)) (hi : canIssue s r (a / 64 * 64) = true)
    (ha : sequenceAdmits (s.chanAt p.ch) w = true) (h : (s.chanAt p.ch).locked = false ∨ transactionFails w ecc parity = false) :
    execHbmTransaction r e a w d ecc parity s = .next (countParity
      (carryOne (finishTransaction (openRow s p) p r e (a / 64 * 64) w d ecc parity) p.ch r w) p.ch (min parity 3)) := by
  have hn : ((s.chanAt p.ch).locked && transactionFails w ecc parity) = false := by
    obtain h | h := h <;> simp [h]
  rw [execHbmTransaction_granted hp hi ha, hn, if_neg Bool.false_ne_true]

/-- An error within a locked sequence ends the sequence (R38, R327). -/
theorem execHbmTransaction_abandoned (hp : p = hbmPlace s.hbm.mapOrder (a / 64 * 64)) (hi : canIssue s r (a / 64 * 64) = true)
    (ha : sequenceAdmits (s.chanAt p.ch) w = true) (hl : (s.chanAt p.ch).locked = true) (h : transactionFails w ecc parity = true) :
    execHbmTransaction r e a w d ecc parity s = .next (countParity
      (abandonSequence (finishTransaction (openRow s p) p r e (a / 64 * 64) w d ecc parity) r p.ch) p.ch (min parity 3)) := by
  rw [execHbmTransaction_granted hp hi ha, hl, h, Bool.and_self, if_pos rfl]

/-- Settles O36: by whether a transaction is granted, whether it ends its sequence, and how its data go. -/
theorem hbmTransactions : Obligations.HbmTransactions := by
  refine ⟨⟨?_, ?_, ?_⟩, ?_, ?_, ?_, ?_⟩
  · intro s r e a w d ecc parity p hp hi ha
    refine ⟨openRow s p, finishTransaction (openRow s p) p r e (a / 64 * 64) w d ecc parity, rfl, openRow_mem s p,
      mem_openRows_openRow s p, rfl, fun h => execHbmTransaction_carried hp hi ha (h.imp_right fun h => ?_),
      fun hl h => execHbmTransaction_abandoned hp hi ha hl (transactionFails_iff.2 h)⟩
    rw [← Bool.not_eq_true, transactionFails_iff]
    rintro (h3 | ⟨rfl, rfl⟩)
    · omega
    · simp at h
  · intro s r e a w d ecc parity h
    exact execHbmTransaction_notGranted h
  · intro s r a h
    exact canIssue_eq_false h
  · intro s p r a parity d h
    rw [finishWrite_stored s p r a d h]
    exact ⟨rfl, rfl, rfl⟩
  · intro s p r a parity d h
    exact finishWrite_failed s p r a d h
  · intro s p r e a ecc parity he h
    rw [finishRead_delivered s p r e a he h]
    exact ⟨rfl, rfl, rfl⟩
  · intro s p r e a ecc parity h
    exact finishRead_poisoned s p r e a h

end Sys2Proof.Machine
end

section
/-! SUPPORT. The channels of the arbiter: what is done on one leaves the others, and the locks a reset Runner held (R319, R327). -/
namespace Sys2Proof.Machine

variable {s : State} {h k r : Nat}

/-! ### One channel at a time -/

theorem chanAt_modRun (f : RunnerState → RunnerState) (hf : (f s.run).chans = s.run.chans) : (s.modRun f).chanAt k = s.chanAt k := by
  simp [State.chanAt, State.modRun, hf]

theorem chanAt_modArb_of_ne (f : ChanArb → ChanArb) (hk : k ≠ h) : (s.modArb h f).chanAt k = s.chanAt k := by
  simp [State.chanAt, State.modArb, State.modRun, upd, nth, Ne.symm hk]

theorem chanAt_drawOwner_of_ne (hk : k ≠ h) : (drawOwner s h).chanAt k = s.chanAt k := by
  unfold drawOwner
  dsimp only
  split
  · rfl
  · exact chanAt_modArb_of_ne _ hk

theorem chanAt_grantTo_of_ne (hk : k ≠ h) : (grantTo s h r).chanAt k = s.chanAt k :=
  (chanAt_modRun _ rfl).trans (chanAt_modArb_of_ne _ hk)

theorem chanAt_drawNext_of_ne (hk : k ≠ h) : (drawNext s h).chanAt k = s.chanAt k := by
  unfold drawNext
  dsimp only
  split
  · exact chanAt_drawOwner_of_ne hk
  · rfl

theorem chanAt_grantAnew_of_ne (hk : k ≠ h) : (grantAnew s h).chanAt k = s.chanAt k := by
  unfold grantAnew
  split
  · rfl
  · exact chanAt_grantTo_of_ne hk
  · dsimp only
    split
    · rw [chanAt_drawNext_of_ne hk, chanAt_grantTo_of_ne hk, chanAt_drawOwner_of_ne hk]
    · exact chanAt_drawOwner_of_ne hk

theorem chanAt_grantFree_of_ne (hk : k ≠ h) : (grantFree s h).chanAt k = s.chanAt k := by
  unfold grantFree
  dsimp only
  split
  · exact chanAt_drawNext_of_ne hk
  · split
    · split
      · exact chanAt_grantAnew_of_ne hk
      · rw [chanAt_drawNext_of_ne hk, chanAt_grantTo_of_ne hk]
    · exact chanAt_grantAnew_of_ne hk

theorem chanAt_releaseOwner_of_ne (hk : k ≠ h) : (releaseOwner s h).chanAt k = s.chanAt k := by
  rw [releaseOwner, chanAt_grantFree_of_ne hk, chanAt_modArb_of_ne _ hk]

theorem chanAt_dropRequest_of_ne (hk : k ≠ h) : (dropRequest s h r).chanAt k = s.chanAt k := by
  unfold dropRequest
  dsimp only
  split
  · split
    · rw [chanAt_drawOwner_of_ne hk, chanAt_modArb_of_ne _ hk, chanAt_modArb_of_ne _ hk]
    · rw [chanAt_grantFree_of_ne hk, chanAt_modArb_of_ne _ hk, chanAt_modArb_of_ne _ hk]
  · exact chanAt_modArb_of_ne _ hk

/-! ### The locks of a reset Runner -/

/-- The reset of a Runner on one channel (R327). -/
def resetChannel (r : Nat) (a : State × List (Nat × Bool)) (h : Nat) : State × List (Nat × Bool) :=
  if (a.1.chanAt h).owner = some r then
    (releaseOwner a.1 h, if (a.1.chanAt h).locked then a.2 ++ [(h, (a.1.chanAt h).accepted)] else a.2)
  else (dropRequest a.1 h r, a.2)

theorem resetChannels_eq (s : State) (r : Nat) : resetChannels s r = (List.range 16).foldl (resetChannel r) (s, []) := rfl

/-- Whether a Runner holds a lock on a channel. -/
def holdsLock (s : State) (r h : Nat) : Bool := (s.chanAt h).owner == some r && (s.chanAt h).locked

theorem resetChannel_chanAt_of_ne (a : State × List (Nat × Bool)) (hk : k ≠ h) : (resetChannel r a h).1.chanAt k = a.1.chanAt k := by
  unfold resetChannel
  split
  · exact chanAt_releaseOwner_of_ne hk
  · exact chanAt_dropRequest_of_ne hk

theorem resetChannel_snd (a : State × List (Nat × Bool)) :
    (resetChannel r a h).2 = a.2 ++ if holdsLock a.1 r h then [(h, (a.1.chanAt h).accepted)] else [] := by
  unfold resetChannel holdsLock
  split
  · next ho => cases (a.1.chanAt h).locked <;> simp [ho]
  · next ho => simp [ho]

/-- The reset of a Runner on different channels gathers the locks it held on them before. -/
theorem foldl_resetChannel_snd (l : List Nat) (hl : l.Nodup) (a : State × List (Nat × Bool)) :
    (l.foldl (resetChannel r) a).2 = a.2 ++ (l.filter (holdsLock a.1 r)).map fun h => (h, (a.1.chanAt h).accepted) := by
  induction l generalizing a with
  | nil => simp
  | cons h l ih =>
    obtain ⟨hh, hl⟩ := List.nodup_cons.1 hl
    have hsame : ∀ k ∈ l, (resetChannel r a h).1.chanAt k = a.1.chanAt k := fun k hk =>
      resetChannel_chanAt_of_ne a fun e => hh (e ▸ hk)
    have hfilter : l.filter (holdsLock (resetChannel r a h).1 r) = l.filter (holdsLock a.1 r) :=
      List.filter_congr fun k hk => by rw [holdsLock, holdsLock, hsame k hk]
    have hmap : ((l.filter (holdsLock a.1 r)).map fun k => (k, ((resetChannel r a h).1.chanAt k).accepted)) =
        (l.filter (holdsLock a.1 r)).map fun k => (k, (a.1.chanAt k).accepted) :=
      List.map_congr_left fun k hk => by rw [hsame k (List.mem_of_mem_filter hk)]
    rw [List.foldl_cons, ih hl, hfilter, hmap, resetChannel_snd, List.filter_cons]
    split <;> simp

theorem mem_resetChannels {acc : Bool} : (h, acc) ∈ (resetChannels s r).2 ↔
    h < 16 ∧ (s.chanAt h).owner = some r ∧ (s.chanAt h).locked = true ∧ (s.chanAt h).accepted = acc := by
  rw [resetChannels_eq, foldl_resetChannel_snd _ List.nodup_range]
  simp only [List.nil_append, List.mem_map, List.mem_filter, List.mem_range, holdsLock, Bool.and_eq_true, beq_iff_eq, Prod.mk.injEq]
  constructor
  · rintro ⟨h, ⟨hlt, howner, hlocked⟩, rfl, hacc⟩
    exact ⟨hlt, howner, hlocked, hacc⟩
  · rintro ⟨hlt, howner, hlocked, hacc⟩
    exact ⟨h, ⟨hlt, howner, hlocked⟩, rfl, hacc⟩

/-- A granted commit write is finished first; whether it failed decides how the sequence ends (R326, R327). -/
theorem execLockCommit_granted {u : State} {p : HbmPlace} {a parity : Nat} {d : List Byte} (hp : p = hbmPlace s.hbm.mapOrder (a / 64 * 64))
    (hi : canIssue s r (a / 64 * 64) = true) (hl : (s.chanAt p.ch).locked = true)
    (hu : u = countParity (finishWrite ((openRow s p).modArb p.ch fun c => { c with accepted := true }) p r (a / 64 * 64) d parity)
      p.ch (min parity 3)) :
    execLockCommit r a d parity s = .next (if 3 ≤ parity then abandonSequence u r p.ch else releaseOwner u p.ch) := by
  subst hp hu
  simp only [execLockCommit, hi, hl, Bool.and_self, if_true]

/-- Settles O38: request and commit by their conditions, the orphans by the locks held on each channel before the reset. -/
theorem lockedSequences : Obligations.LockedSequences := by
  refine ⟨?_, ?_, ?_, ?_, ?_, ?_, ?_, ?_⟩
  · intro s r h waits n hrefused
    exact if_pos hrefused
  · intro s r h n hr hw hn
    refine if_neg ?_
    simp only [hw, Bool.false_eq_true, false_or]
    omega
  · intro s u r a parity d p hp hi hl hu
    rw [exec, execLockCommit_granted hp hi hl hu]
    exact ⟨fun h => by rw [if_neg (by omega)], fun h => by rw [if_pos h]⟩
  · rintro s u r rfl
    rw [exec, execRunnerReset]
  · intro s r h acc _
    exact mem_resetChannels
  · intro s l h
    simp only [exec, execWaitCycle, h]
  · intro s l r h at_ hy
    simp only [exec, execWaitCycle, hy]
  · intro s r h hr ho
    refine ⟨_, _, ?_, rfl, rfl⟩
    have ho' : ((s.modRun fun x => { x with rollback := none, rollbacks := satAdd 0xFFFF x.rollbacks 1
                                            tokenWait := x.tokenWait.filter fun w => w.1 != r }).chanAt h).owner = some r := ho
    simp only [exec, execLockRollback, hr, ho', if_true]

end Sys2Proof.Machine
end

section
/-! SUPPORT. The loads of a port: what goes out at the start, at the end, and when one is late (R27, R81, R82, R133 to R135). -/
namespace Sys2Proof.Machine

variable {s : State} {o : Nat} {l : LoadRun}

/-- What the elastic buffer holds and what still stands in the front buffer are together the words of the load (R27). -/
theorem elastic_append_unread (words : List Nat) (n : Nat) :
    words.take n ++ (if words.length - n = 0 then [] else words.drop (words.length - (words.length - n))) = words := by
  split
  · rw [List.append_nil, List.take_of_length_le (by omega)]
  · rw [show words.length - (words.length - n) = n by omega, List.take_append_drop]

theorem execLoadStart_next {rest : List LoadRun} (hl : (s.portAt o).loads = l :: rest) (hc : (s.portAt o).current = none)
    (hu : (s.portAt o).link = 5) (hd : (s.portAt o).darkByLink = false) : execLoadStart o s =
      .next (s.modPort o fun y => { sendControl (frontCfg s o) o
          (startPayload (frontCfg s o) o (progNblocks (frontCfg s o) o (frontBuf s o).prog)
            { l with seq := (s.portAt o).loadSeq, words := (loadWords (runBytes s o l)).length, crc := crc32c (runBytes s o l) })
          (sendAlign (frontCfg s o) o { fillTo (frontCfg s o) o s.tb.tick y with wire := [] }) with
        loads := rest
        current := some { l with
          seq := (s.portAt o).loadSeq, words := (loadWords (runBytes s o l)).length, crc := crc32c (runBytes s o l) }
        loadSeq := (y.loadSeq + 1) % 256
        elastic := (loadWords (runBytes s o l)).take elasticWords
        unread := (loadWords (runBytes s o l)).length - elasticWords }) := by
  simp only [execLoadStart, hl, hc, hu, hd, Option.isSome_none, bne_self_eq_false, Bool.or_self, Bool.false_eq_true, if_false]

theorem execLoadDone_current (hc : (s.portAt o).current = some l) : execLoadDone o s =
    .next (s.modPort o fun y => afterLoad (s.rt o) o s.tb.tick
      { sendControl (frontCfg s o) o (loadEndBlock l.seq l.crc) (sendData (frontCfg s o) o
          (dataColumns (frontCfg s o) o ((s.portAt o).elastic ++ (if (s.portAt o).unread = 0 then []
            else (loadWords (runBytes s o l)).drop (l.words - (s.portAt o).unread))).length)
          ((s.portAt o).elastic ++ (if (s.portAt o).unread = 0 then []
            else (loadWords (runBytes s o l)).drop (l.words - (s.portAt o).unread))) y) with
        current := none, elastic := [], unread := 0 }) := by
  simp only [execLoadDone, hc]

theorem execLoadDone_idle (hc : (s.portAt o).current = none) : execLoadDone o s = .next s := by
  simp only [execLoadDone, hc]

/-- A load that is late is the one being sent, or the next one to go out (R82). -/
theorem execLoadLate_of (hl : (s.portAt o).current = some l ∨ ((s.portAt o).current = none ∧ (s.portAt o).loads.head? = some l))
    (hh : (s.seqAt o).holding = false) (hd : (s.portAt o).darkByLink = false) : execLoadLate o s =
      .next (holdDark (fault (s.modSeq o fun q => { q with lateCount := satAdd 0xFFFFFFFF q.lateCount 1 }) 0x0A05 o o)
        o l.strobe l.deadline) := by
  have hgo : ¬ ((s.seqAt o).holding = true ∨ (s.portAt o).darkByLink = true) := by simp [hh, hd]
  obtain hc | ⟨hc, hl⟩ := hl
  · simp only [execLoadLate, hc, if_neg hgo]
  · simp only [execLoadLate, hc, hl, if_neg hgo]

/-- Settles O41: each load is followed from its start at the link to its end, and a load past its limit is a LOAD_LATE fault. -/
theorem loadsAreSent : Obligations.LoadsAreSent := by
  refine ⟨?_, ?_, ?_, ?_⟩
  · rintro s o l rest run words hl hc hu hd rfl rfl
    exact execLoadStart_next hl hc hu hd
  · intro s o l words hc hw hn he hr
    have hsent : (s.portAt o).elastic ++ (if (s.portAt o).unread = 0 then []
        else (loadWords (runBytes s o l)).drop (l.words - (s.portAt o).unread)) = words := by
      rw [he, hr, hn, ← hw]
      exact elastic_append_unread words elasticWords
    rw [exec, execLoadDone_current hc, hsent]
  · intro s o hc
    exact execLoadDone_idle hc
  · intro s o l hl hh hd
    exact execLoadLate_of hl hh hd

end Sys2Proof.Machine
end

section
/-! SUPPORT. Staged writes: what becomes of one, and of those held during the copy after a commit (R245, R247, R458). -/
namespace Sys2Proof.Machine

variable {s t : State} {path : PathId} {a : Nat} {v : Word}

/-! ### One write -/

theorem execLsWrite_served (hs : serves s path = true) (ha : a % 4 = 0) (hc : clsOf a = some .ls) :
    execLsWrite path a v s = .next (lsWrite s path a v).1 := if_pos ⟨hs, ha, hc⟩

theorem lsWrite_refused (h : hasRole s path 1 = false ∨ ∃ o ∈ ownersOf s.ladle a v, nbit (pathMask s path) o = false) :
    (lsWrite s path a v).1 = refuseRole s path 1 a := by
  unfold lsWrite
  by_cases hr : hasRole s path 1 = true
  · obtain ⟨o, ho, hm⟩ := h.resolve_left (by simp [hr])
    have hall : (ownersOf s.ladle a v).all (nbit (pathMask s path)) = false := List.all_eq_false.2 ⟨o, ho, by simp [hm]⟩
    simp [hr, hall]
  · simp [hr]

theorem lsWrite_held (hr : hasRole s path 1 = true) (ho : ∀ o ∈ ownersOf s.ladle a v, nbit (pathMask s path) o = true)
    (hb : s.ladle.busy = true) : (lsWrite s path a v).1 = s.modLadle fun l => { l with held := l.held ++ [(path, a, v)] } := by
  simp only [lsWrite, hr, List.all_eq_true.2 ho, hb, Bool.not_true, Bool.false_eq_true, if_false, if_true]

theorem lsWrite_stageNow (hr : hasRole s path 1 = true) (ho : ∀ o ∈ ownersOf s.ladle a v, nbit (pathMask s path) o = true)
    (hb : s.ladle.busy = false) : lsWrite s path a v = stageNow s path a v := by
  simp only [lsWrite, hr, List.all_eq_true.2 ho, hb, Bool.not_true, Bool.false_eq_true, if_false]

/-- A write that names no owner of the pending Pour enters the staged copy. -/
theorem stageNow_staged (h : ∀ p, s.ladle.pending = some p → ∀ o ∈ ownersOf s.ladle a v, nbit p.mask o = false) :
    stageNow s path a v = (stageWord s path a v, 0) := by
  unfold stageNow
  split
  · next p hp =>
    have hany : (ownersOf s.ladle a v).any (nbit p.mask) = false := List.any_eq_false.2 fun o ho => by simp [h p hp o ho]
    rw [hany, if_neg Bool.false_ne_true]
  · rfl

theorem stageNow_refused {p : Pour} (hp : s.ladle.pending = some p) (h : ∃ o ∈ ownersOf s.ladle a v, nbit p.mask o = true) :
    stageNow s path a v = (refuseStage s p path, 4) := by
  simp only [stageNow, hp, List.any_eq_true.2 h, if_true]

/-- The paths noted for the staged words, once a path has staged a word (R467). -/
def touch (m : List (Nat × Nat)) (path : PathId) (a : Nat) : List (Nat × Nat) :=
  Sparse.put m (a / 4 * 4) (Sparse.get (fun _ => 0) m (a / 4 * 4) ||| 2 ^ pathNum path)

theorem stageWord_aligned (ha : a % 4 = 0) : stageWord s path a v = s.modLadle fun l => { l with
    stg := l.stg.set a v
    touched := Sparse.put l.touched a (Sparse.get (fun _ => 0) l.touched a ||| 2 ^ pathNum path) } := by
  rw [stageWord, show a / 4 * 4 = a by omega]

/-- Nothing that a write to a staged field can do reaches the settings in force. -/
theorem lsWrite_inForce (s : State) (path : PathId) (a : Nat) (v : Word) :
    (lsWrite s path a v).1.ladle.act = s.ladle.act ∧ (lsWrite s path a v).1.ladle.rt = s.ladle.rt := by
  have hrefuse : (refuseRole s path 1 a).ladle = s.ladle := (logged_refuseRole _ _ _).ladle
  unfold lsWrite
  split
  · simp [hrefuse]
  · split
    · simp [hrefuse]
    · split
      · exact ⟨rfl, rfl⟩
      · unfold stageNow
        split
        · split
          · simp only [refuseStage, raiseP_ladle]
            exact ⟨rfl, rfl⟩
          · exact ⟨rfl, rfl⟩
        · exact ⟨rfl, rfl⟩

/-! ### The writes held during a copy -/

/-- With no Pour pending the held writes are staged in the order they came. -/
theorem foldl_stageNow (l : List (PathId × Nat × Word)) (s : State) (hp : s.ladle.pending = none) :
    l.foldl (fun s h => (stageNow s h.1 h.2.1 h.2.2).1) s = s.modLadle fun x => { x with
      stg := l.foldl (fun m h => m.set (h.2.1 / 4 * 4) h.2.2) x.stg
      touched := l.foldl (fun m h => touch m h.1 h.2.1) x.touched } := by
  induction l generalizing s with
  | nil => rfl
  | cons h l ih =>
    have hs : (stageNow s h.1 h.2.1 h.2.2).1 = stageWord s h.1 h.2.1 h.2.2 := by
      rw [stageNow_staged fun p hq => absurd (hp.symm.trans hq) (by simp)]
    rw [List.foldl_cons, hs, ih (stageWord s h.1 h.2.1 h.2.2) hp]
    rfl

/-- Whatever the list, a value put at an address is read there, and what stood elsewhere elsewhere. -/
theorem Sparse.get_put_any {α : Type} (d : Nat → α) (m : List (Nat × α)) (k j : Nat) (v : α) :
    Sparse.get d (Sparse.put m k v) j = if j = k then v else Sparse.get d m j := by
  induction m with
  | nil => simp only [Sparse.put, Sparse.get, eq_comm]
  | cons e r ih =>
    obtain ⟨a, w⟩ := e
    by_cases hjk : j = k
    · subst hjk
      rw [if_pos rfl] at ih ⊢
      rw [Sparse.put]
      split
      · exact if_pos rfl
      · split
        · exact if_pos rfl
        · next hja => exact (if_neg (Ne.symm hja)).trans ih
    · rw [if_neg hjk] at ih ⊢
      rw [Sparse.put]
      split
      · exact if_neg (Ne.symm hjk)
      · split
        · next hka =>
          subst hka
          exact (if_neg (Ne.symm hjk)).trans (if_neg (Ne.symm hjk)).symm
        · simp only [Sparse.get, ih]

theorem nbit_eq_testBit (x i : Nat) : nbit x i = x.testBit i := by
  rw [nbit, Nat.testBit_eq_decide_div_mod_eq, beq_eq_decide]

/-- A path that staged a word stays noted for it. -/
theorem nbit_touch_of_nbit {m : List (Nat × Nat)} {path : PathId} {a k n : Nat} (h : nbit (Sparse.get (fun _ => 0) m k) n = true) :
    nbit (Sparse.get (fun _ => 0) (touch m path a) k) n = true := by
  rw [touch, Sparse.get_put_any]
  split
  · next e =>
    subst e
    rw [nbit_eq_testBit] at h ⊢
    rw [Nat.testBit_or, h, Bool.true_or]
  · exact h

theorem nbit_touch (m : List (Nat × Nat)) (path : PathId) (a : Nat) :
    nbit (Sparse.get (fun _ => 0) (touch m path a) (a / 4 * 4)) (pathNum path) = true := by
  rw [touch, Sparse.get_put_any, if_pos rfl, nbit_eq_testBit, Nat.testBit_or, Nat.testBit_two_pow_self, Bool.or_true]

theorem nbit_foldl_touch_of_nbit {l : List (PathId × Nat × Word)} {m : List (Nat × Nat)} {k n : Nat}
    (h : nbit (Sparse.get (fun _ => 0) m k) n = true) :
    nbit (Sparse.get (fun _ => 0) (l.foldl (fun m h => touch m h.1 h.2.1) m) k) n = true := by
  induction l generalizing m with
  | nil => exact h
  | cons e l ih => exact ih (nbit_touch_of_nbit h)

/-- Each of the held writes leaves its path noted for its word. -/
theorem nbit_foldl_touch {l : List (PathId × Nat × Word)} {m : List (Nat × Nat)} {e : PathId × Nat × Word} (he : e ∈ l) :
    nbit (Sparse.get (fun _ => 0) (l.foldl (fun m h => touch m h.1 h.2.1) m) (e.2.1 / 4 * 4)) (pathNum e.1) = true := by
  induction l generalizing m with
  | nil => cases he
  | cons b l ih =>
    obtain rfl | he := List.mem_cons.1 he
    · exact nbit_foldl_touch_of_nbit (m := touch m _ _) (nbit_touch m _ _)
    · exact ih he

theorem annealKick_of_none (h : s.ann.run = none) : annealKick s = s := by
  simp [annealKick, h]

/-- With no Pour pending, the writes held during a copy leave the list and are staged. -/
theorem flushHeld_of_none (hp : s.ladle.pending = none) : flushHeld s = s.modLadle fun x => { x with
    held := []
    stg := s.ladle.held.foldl (fun m h => m.set (h.2.1 / 4 * 4) h.2.2) x.stg
    touched := s.ladle.held.foldl (fun m h => touch m h.1 h.2.1) x.touched } :=
  foldl_stageNow s.ladle.held (s.modLadle fun l => { l with held := [] }) hp

/-- The end of a copy, with no Pour pending and no Anneal run: the held writes are staged. -/
theorem execLadleCopyDone_busy (hb : s.ladle.busy = true) (hp : s.ladle.pending = none) (hr : s.ann.run = none) :
    execLadleCopyDone s = .next (s.modLadle fun x => { x with
      busy := false, held := []
      stg := s.ladle.held.foldl (fun m h => m.set (h.2.1 / 4 * 4) h.2.2) x.stg
      touched := s.ladle.held.foldl (fun m h => touch m h.1 h.2.1) x.touched }) := by
  have hflush := flushHeld_of_none (s := s.modLadle fun l => { l with busy := false }) hp
  rw [execLadleCopyDone, if_pos hb, hflush, annealKick_of_none]
  · rfl
  · exact hr

/-- Settles O24: a staged write by its gates, the busy Ladle and the pending Pour; the held ones by their list. -/
theorem stagedWritesAndTheCopy : Obligations.StagedWritesAndTheCopy := by
  refine ⟨⟨?_, ?_, ?_⟩, ?_⟩
  · intro s path a v hs ha hc hr ho
    refine ⟨fun hb hp => ?_, fun hb p hp h => ?_, fun hb => ?_⟩
    · rw [exec, execLsWrite_served hs ha hc, lsWrite_stageNow hr ho hb, stageNow_staged hp, stageWord_aligned ha]
      rfl
    · rw [exec, execLsWrite_served hs ha hc, lsWrite_stageNow hr ho hb, stageNow_refused hp h]
      rfl
    · rw [exec, execLsWrite_served hs ha hc, lsWrite_held hr ho hb]
  · intro s path a v hs ha hc h
    rw [exec, execLsWrite_served hs ha hc, lsWrite_refused h]
  · intro s t path a v h
    rw [exec, execLsWrite] at h
    split at h
    · injection h with h
      rw [← h]
      exact lsWrite_inForce s path a v
    · injection h with h
      rw [← h]
      exact ⟨rfl, rfl⟩
  · intro s hb hp hr
    exact ⟨_, execLadleCopyDone_busy hb hp hr, rfl, fun h hh => nbit_foldl_touch hh⟩

end Sys2Proof.Machine
end

section
/-! SUPPORT. A frame boundary: the frame start and the frame counter, and the flip or repeat with its record (R233, R253, R254). -/
namespace Sys2Proof.Machine

variable {s t : State} {o : Nat}

/-! ### The frame start -/

/-- The frame store, HBM3, the flash and the fuses. -/
def State.memories (s : State) : Memory × Memory × Memory × FuseState := (s.fs, s.hbm.mem, s.flash, s.fuse)

theorem memories_of_core (h : t.core = s.core) : t.memories = s.memories := by
  simp only [State.core, Prod.mk.injEq] at h
  obtain ⟨hfuse, -, hflash, hfs, hmem, -, -⟩ := h
  rw [State.memories, State.memories, hfuse, hflash, hfs, hmem]

theorem memories_modTg (s : State) (o : Nat) (f : TgState → TgState) : (s.modTg o f).memories = s.memories := rfl

theorem counter_of_core (h : t.core = s.core) (o : Nat) : (t.tgAt o).counter = (s.tgAt o).counter := by
  simp only [State.core, Prod.mk.injEq] at h
  obtain ⟨-, -, -, -, -, -, hcounter⟩ := h
  exact nth_map_eq hcounter o {}

theorem shape_of_core (h : t.core = s.core) : t.shape = s.shape := by
  simp only [State.core, Prod.mk.injEq] at h
  obtain ⟨-, -, -, -, -, hshape, -⟩ := h
  exact hshape

/-- The end of the frame before, or at the first start none. -/
def endOfFrame (s : State) (o : Nat) : State := if (s.tgAt o).started then countFrame (endFrame s o) o else markApplied s o

theorem core_endOfFrame (s : State) (o : Nat) : (endOfFrame s o).core = s.core := by simp [endOfFrame]
theorem kept_endOfFrame (s : State) (o : Nat) : (endOfFrame s o).kept = s.kept := by simp [endOfFrame]

/-- The generator counts the frame that starts, its first one apart (R233). -/
def countStart (s u : State) (o : Nat) : State :=
  u.modTg o fun t => { t with started := true, counter := if (s.tgAt o).started then t.counter + 1 else t.counter }

/-- A frame start with the settings that come into force at it. -/
def frameStarted (s : State) (o : Nat) : State := adoptCounter (boundarySettings (countStart s (endOfFrame s o) o) o) o

theorem frameBoundary_eq (s : State) (o : Nat) : frameBoundary s o =
    if ((frameStarted s o).tgAt o).running then boundaryBody (frameStarted s o) o false else frameStarted s o := rfl

theorem core_frameBoundary (s : State) (o : Nat) : (frameBoundary s o).core = (frameStarted s o).core := by
  simp [frameBoundary_eq]

theorem memories_adoptCounter (s : State) (o : Nat) : (adoptCounter s o).memories = s.memories := by
  unfold adoptCounter
  dsimp only
  split
  · split
    · exact (memories_of_core (core_raise _ _ _)).trans (memories_modTg _ _ _)
    · rfl
  · rfl

theorem counter_adoptCounter_of_ne {p : Nat} (hp : p ≠ o) : ((adoptCounter s o).tgAt p).counter = (s.tgAt p).counter := by
  unfold adoptCounter
  dsimp only
  split
  · split
    · rw [counter_of_core (core_raise _ _ _), State.tgAt_other _ _ _ _ hp]
    · rfl
  · rfl

/-- A generator that follows no stream adopts no counter (R243). -/
theorem adoptCounter_of_bit (h : (s.rt o).bit (aTgCfg o) 16 = false) : adoptCounter s o = s := by
  unfold adoptCounter
  dsimp only
  split
  · simp [h]
  · rfl

theorem boundarySettings_of_ctaken (h : (s.tgAt o).ctaken = false) : boundarySettings s o = s := by
  simp [boundarySettings, h]

/-- The frame start writes no memory and burns no fuse. -/
theorem memories_frameBoundary (s : State) (o : Nat) : (frameBoundary s o).memories = s.memories := by
  rw [memories_of_core (core_frameBoundary s o), frameStarted, memories_adoptCounter, memories_of_core (core_boundarySettings _ _),
    countStart, memories_modTg, memories_of_core (core_endOfFrame s o)]

theorem counter_frameBoundary_of_ne {p : Nat} (hp : p ≠ o) : ((frameBoundary s o).tgAt p).counter = (s.tgAt p).counter := by
  rw [counter_of_core (core_frameBoundary s o), frameStarted, counter_adoptCounter_of_ne hp, counter_of_core (core_boundarySettings _ _),
    countStart, State.tgAt_other _ _ _ _ hp, counter_of_core (core_endOfFrame s o)]

theorem tg_length_of_shape (h : t.shape = s.shape) : t.tg.length = s.tg.length := by
  simp only [State.shape, List.cons.injEq] at h
  obtain ⟨-, -, htg, -⟩ := h
  exact htg

/-- A generator counts its frames by one, but at its first start (R233). -/
theorem counter_frameBoundary (ho : o < s.tg.length) (hc : (s.tgAt o).ctaken = false) (hb : (s.rt o).bit (aTgCfg o) 16 = false) :
    ((frameBoundary s o).tgAt o).counter = if (s.tgAt o).started then (s.tgAt o).counter + 1 else (s.tgAt o).counter := by
  have hlt : o < (endOfFrame s o).tg.length := tg_length_of_shape (shape_of_core (core_endOfFrame s o)) ▸ ho
  have hcount : (countStart s (endOfFrame s o) o).tgAt o = _ := State.tgAt_same _ _ _ hlt
  have hset : boundarySettings (countStart s (endOfFrame s o) o) o = countStart s (endOfFrame s o) o :=
    boundarySettings_of_ctaken (by rw [hcount]; exact (ctaken_of_kept (kept_endOfFrame s o) o).trans hc)
  have hadopt : adoptCounter (countStart s (endOfFrame s o) o) o = countStart s (endOfFrame s o) o :=
    adoptCounter_of_bit ((congrArg (fun m => WordMap.bit m (aTgCfg o) 16) (rt_of_kept (kept_endOfFrame s o) o)).trans hb)
  rw [counter_of_core (core_frameBoundary s o), frameStarted, hset, hadopt, hcount]
  simp only [counter_of_core (core_endOfFrame s o)]

theorem pruneAll_of_none (h : ∀ i, (s.inAt i).oldBufs = []) : pruneAll s = s :=
  List.foldl_fixed' (fun i => by simp [pruneOld, h i]) _

/-! ### Flip and repeat -/

/-- The record of a boundary (R254). -/
def flipRecord (s : State) (o kind cause : Nat) (dark : Bool) : FlipRec :=
  let tick := (posInstant (s.tgAt o) (s.tgAt o).pos).1
  let fine := (posInstant (s.tgAt o) (s.tgAt o).pos).2
  let loc := (25 * tick + fine) / 10
  { count := (s.tgAt o).counter, tLocal := loc, kind := kind, dark := dark, cause := cause
    tag := (frontBuf s o).tag, prog := (frontBuf s o).prog
    tPtp := if s.ptp.valid then ((loc : Int) + s.ptp.offset).toNat else 0xFFFFFFFFFFFFFFFF }

theorem logFlip_eq (s : State) (o kind cause : Nat) (dark : Bool) : logFlip s o kind cause dark = s.modTg o fun t => { t with
    flipLog := listSet t.flipLog (t.counter % 16) (flipRecord s o kind cause dark)
    lastKind := kind + (if dark then 128 else 0), lastCause := cause } := rfl

theorem tgAt_logFlip (ho : o < s.tg.length) (kind cause : Nat) (dark : Bool) : (logFlip s o kind cause dark).tgAt o = { s.tgAt o with
    flipLog := listSet (s.tgAt o).flipLog ((s.tgAt o).counter % 16) (flipRecord s o kind cause dark)
    lastKind := kind + (if dark then 128 else 0), lastCause := cause } := by
  rw [logFlip_eq, State.tgAt_same _ _ _ ho]

/-- The kind that FLIP_STATUS shows under the DARK bit. -/
theorem kind_mod (kind : Nat) (dark : Bool) (h : kind < 128) : (kind + if dark then 128 else 0) % 128 = kind := by
  split <;> omega

theorem clearFrame_tg (s : State) (o : Nat) : (clearFrame s o).tg = s.tg := by
  unfold clearFrame
  dsimp only
  split
  · split <;> rfl
  · rfl

theorem clearFrame_tgAt (s : State) (o p : Nat) : (clearFrame s o).tgAt p = s.tgAt p := by
  rw [State.tgAt, State.tgAt, clearFrame_tg]

theorem clearFrame_log (s : State) (o : Nat) : (clearFrame s o).log = s.log := by
  unfold clearFrame
  dsimp only
  split
  · split <;> rfl
  · rfl

theorem modEnc_frontIdx (s : State) (o : Nat) (f : EncState → EncState) (h : ∀ e, (f e).frontIdx = e.frontIdx) :
    ((s.modEnc o f).encAt o).frontIdx = (s.encAt o).frontIdx :=
  nth_map_eq (f := EncState.frontIdx) (map_upd _ _ _ _ h) o {}

theorem clearFrame_frontIdx (s : State) (o : Nat) : ((clearFrame s o).encAt o).frontIdx = (s.encAt o).frontIdx := by
  unfold clearFrame
  dsimp only
  rw [modEnc_frontIdx _ _ _ fun _ => by rfl]
  split
  · split <;> rfl
  · rfl

/-- Once a frame is cleared, none is under construction (R31). -/
theorem clearFrame_fuc (ho : o < s.comp.length) : ((clearFrame s o).compAt o).fuc = none := by
  unfold clearFrame
  dsimp only
  refine congrArg CompState.fuc (State.compAt_same _ _ _ ?_)
  split
  · split
    · exact ho
    · simpa [releaseFrame, State.modComp, State.modComposer, State.modSurf] using ho
  · exact ho

section
variable (hf : flips s o = true)
include hf

/-- At a boundary that flips the buffers change roles, and the log records it (R253, R254). -/
theorem flipOrRepeat_flip : flipOrRepeat s o = clearFrame (logFlip
    ((swapBuffers s o).modTg o fun t => { t with flips := (t.flips + 1) % 2 ^ 32 }) o 0
    ((darkCause s o true).getD 0) (darkCause s o true).isSome) o := by
  simp only [flipOrRepeat, hf, if_true]

end

section
variable (hf : flips s o = false)
include hf

theorem flipOrRepeat_still (hm : (s.outAt o).mode = 4) (he : (s.outAt o).exit = .none_) :
    flipOrRepeat s o = logFlip s o 2 ((darkCause s o false).getD 0) (darkCause s o false).isSome := by
  simp only [flipOrRepeat, hf, Bool.false_eq_true, if_false]
  rw [if_pos ⟨hm, he⟩]

/-- The log shows the front buffer again, with the cause (R254). -/
def logRepeat (s : State) (o : Nat) : State :=
  logFlip s o 1 (if (s.outAt o).mode = 5 then 0 else repeatCause s o) (darkCause s o false).isSome

/-- The repeat of an output that is lit or entering is counted and raised (R254). -/
theorem flipOrRepeat_counted (h : (s.outAt o).mode ≠ 4 ∨ (s.outAt o).exit ≠ .none_)
    (hc : (s.outAt o).mode = 2 ∨ (s.outAt o).mode = 3 ∨ (s.outAt o).entry.isSome) :
    flipOrRepeat s o = clearFrame (raise ((logRepeat s o).modTg o fun t => { t with repeats := satAdd 0xFFFF t.repeats 1 }) 0x0223
      (o + repeatCause s o * 2 ^ 8)) o := by
  simp only [flipOrRepeat, hf, Bool.false_eq_true, if_false]
  rw [if_neg (by tauto), if_pos hc, logRepeat]

theorem flipOrRepeat_uncounted (h : (s.outAt o).mode ≠ 4 ∨ (s.outAt o).exit ≠ .none_)
    (hc : ¬ ((s.outAt o).mode = 2 ∨ (s.outAt o).mode = 3 ∨ (s.outAt o).entry.isSome)) :
    flipOrRepeat s o = clearFrame (logRepeat s o) o := by
  simp only [flipOrRepeat, hf, Bool.false_eq_true, if_false]
  rw [if_neg (by tauto), if_neg hc, logRepeat]

end

theorem lt_lengths (h : s.wellShaped) (o : Fin 4) : (o : Nat) < s.enc.length ∧ (o : Nat) < s.tg.length ∧ (o : Nat) < s.comp.length := by
  simp only [State.wellShaped, State.shape, List.cons.injEq] at h
  omega

theorem lt_modTg_length {f : TgState → TgState} {p : Nat} (ho : o < s.tg.length) : o < (s.modTg p f).tg.length := by
  simpa [State.modTg] using ho

/-- What a boundary that flips leaves. -/
theorem flipOrRepeat_of_flips (henc : o < s.enc.length) (htg : o < s.tg.length) (hcomp : o < s.comp.length)
    (hlog : (s.tgAt o).flipLog.length = 16) (hf : flips s o = true) :
    ((flipOrRepeat s o).encAt o).frontIdx = 1 - (s.encAt o).frontIdx ∧
    ((flipOrRepeat s o).tgAt o).flips = ((s.tgAt o).flips + 1) % 2 ^ 32 ∧ ((flipOrRepeat s o).tgAt o).repeats = (s.tgAt o).repeats ∧
    ((flipOrRepeat s o).compAt o).fuc = none ∧ (flipOrRepeat s o).log = s.log ∧
    ∃ r : FlipRec, ((flipOrRepeat s o).tgAt o).flipLog[(s.tgAt o).counter % 16]? = some r ∧ r.count = (s.tgAt o).counter ∧ r.kind = 0 ∧
      r.tag = (frontBuf (swapBuffers s o) o).tag ∧ r.prog = (frontBuf (swapBuffers s o) o).prog := by
  have hcount : ((swapBuffers s o).modTg o fun t => { t with flips := (t.flips + 1) % 2 ^ 32 }).tgAt o =
      { s.tgAt o with flips := ((s.tgAt o).flips + 1) % 2 ^ 32 } := State.tgAt_same (swapBuffers s o) o _ htg
  have hslot : (s.tgAt o).counter % 16 < (s.tgAt o).flipLog.length := by omega
  have hswap : (swapBuffers s o).encAt o = _ := State.encAt_same s o _ henc
  rw [flipOrRepeat_flip hf, clearFrame_frontIdx, clearFrame_tgAt, clearFrame_fuc (by simpa [logFlip_eq, swapBuffers] using hcomp),
    clearFrame_log, tgAt_logFlip (lt_modTg_length (s := swapBuffers s o) htg), hcount]
  refine ⟨congrArg EncState.frontIdx hswap, rfl, rfl, rfl, rfl, _, List.getElem?_set_self hslot, ?_, rfl, rfl, rfl⟩
  rw [flipRecord, hcount]

/-- What STILL leaves: its record, and nothing raised (R260). -/
theorem flipOrRepeat_of_still (htg : o < s.tg.length) (hf : flips s o = false) (hm : (s.outAt o).mode = 4) (he : (s.outAt o).exit = .none_) :
    ((flipOrRepeat s o).tgAt o).flips = (s.tgAt o).flips ∧ ((flipOrRepeat s o).tgAt o).lastKind % 128 = 2 ∧
    ((flipOrRepeat s o).tgAt o).repeats = (s.tgAt o).repeats ∧ (flipOrRepeat s o).log = s.log ∧ (flipOrRepeat s o).enc = s.enc := by
  rw [flipOrRepeat_still hf hm he, tgAt_logFlip htg]
  exact ⟨rfl, kind_mod _ _ (by decide), rfl, rfl, rfl⟩

/-- What a counted repeat leaves (R254). -/
theorem flipOrRepeat_of_counted (htg : o < s.tg.length) (hcomp : o < s.comp.length) (hf : flips s o = false)
    (h : (s.outAt o).mode ≠ 4 ∨ (s.outAt o).exit ≠ .none_) (hc : (s.outAt o).mode = 2 ∨ (s.outAt o).mode = 3 ∨ (s.outAt o).entry.isSome) :
    ((flipOrRepeat s o).encAt o).frontIdx = (s.encAt o).frontIdx ∧ ((flipOrRepeat s o).compAt o).fuc = none ∧
    ((flipOrRepeat s o).tgAt o).flips = (s.tgAt o).flips ∧ ((flipOrRepeat s o).tgAt o).lastKind % 128 = 1 ∧
    ((flipOrRepeat s o).tgAt o).repeats = satAdd 0xFFFF (s.tgAt o).repeats 1 ∧
    ((flipOrRepeat s o).tgAt o).lastCause = if (s.outAt o).mode = 5 then 0 else repeatCause s o := by
  have htg' : o < (logRepeat s o).tg.length := lt_modTg_length htg
  rw [flipOrRepeat_counted hf h hc, clearFrame_frontIdx, clearFrame_fuc (by rw [raise_comp]; exact hcomp), clearFrame_tgAt,
    State.encAt, raise_enc, State.tgAt, raise_tg, ← State.tgAt, State.tgAt_same _ _ _ htg', logRepeat, tgAt_logFlip htg]
  exact ⟨rfl, rfl, rfl, kind_mod _ _ (by decide), rfl, rfl⟩

/-- What a repeat of an output that is neither lit nor entering leaves (R254). -/
theorem flipOrRepeat_of_uncounted (htg : o < s.tg.length) (hcomp : o < s.comp.length) (hf : flips s o = false)
    (h : (s.outAt o).mode ≠ 4 ∨ (s.outAt o).exit ≠ .none_) (hc : ¬ ((s.outAt o).mode = 2 ∨ (s.outAt o).mode = 3 ∨ (s.outAt o).entry.isSome)) :
    ((flipOrRepeat s o).encAt o).frontIdx = (s.encAt o).frontIdx ∧ ((flipOrRepeat s o).compAt o).fuc = none ∧
    ((flipOrRepeat s o).tgAt o).flips = (s.tgAt o).flips ∧ ((flipOrRepeat s o).tgAt o).lastKind % 128 = 1 ∧
    ((flipOrRepeat s o).tgAt o).repeats = (s.tgAt o).repeats ∧ (flipOrRepeat s o).log = s.log := by
  rw [flipOrRepeat_uncounted hf h hc, clearFrame_frontIdx, clearFrame_fuc (s := logRepeat s o) hcomp, clearFrame_tgAt, clearFrame_log,
    logRepeat, tgAt_logFlip htg]
  exact ⟨rfl, rfl, rfl, kind_mod _ _ (by decide), rfl, rfl⟩

/-- Settles O16: a frame start keeps the memories and every other output's counter, and a boundary flips, stays STILL or repeats. -/
theorem frameBoundaries : Obligations.FrameBoundaries := by
  refine ⟨fun s o => ⟨fun hrun => ?_, pruneAll_of_none, fun hrun => ?_⟩, fun s o hs hlog => ⟨fun hf => ?_, fun hf => ?_⟩⟩
  · have hmem := memories_frameBoundary s o
    simp only [State.memories, Prod.mk.injEq] at hmem
    obtain ⟨hfs, hhbm, hflash, hfuse⟩ := hmem
    exact ⟨by simp [exec, execFrameBoundary, hrun], hfs, hhbm, hflash, hfuse,
      fun hs hc hb => counter_frameBoundary (lt_lengths hs o).2.1 hc hb, fun p hp => counter_frameBoundary_of_ne hp⟩
  · simp [exec, execFrameBoundary, hrun]
  · obtain ⟨henc, htg, hcomp⟩ := lt_lengths hs o
    exact ⟨_, rfl, flipOrRepeat_of_flips henc htg hcomp hlog hf⟩
  · obtain ⟨-, htg, hcomp⟩ := lt_lengths hs o
    refine ⟨_, rfl, ?_⟩
    by_cases hstill : (s.outAt o).mode = 4 ∧ (s.outAt o).exit = .none_
    · obtain ⟨hm, he⟩ := hstill
      obtain ⟨hflips, hkind, hrep, hlog', henc⟩ := flipOrRepeat_of_still htg hf hm he
      exact ⟨by rw [State.encAt, henc, ← State.encAt], hflips, fun _ _ => ⟨hkind, hrep, hlog', henc⟩, fun h => by simp [hm, he] at h⟩
    · have h : (s.outAt o).mode ≠ 4 ∨ (s.outAt o).exit ≠ .none_ := by tauto
      by_cases hc : (s.outAt o).mode = 2 ∨ (s.outAt o).mode = 3 ∨ (s.outAt o).entry.isSome
      · obtain ⟨hfront, hfuc, hflips, hkind, hrep, hcause⟩ := flipOrRepeat_of_counted htg hcomp hf h hc
        exact ⟨hfront, hflips, fun hm he => absurd ⟨hm, he⟩ hstill, fun _ => ⟨hkind, hfuc,
          fun _ => ⟨hrep, hcause, _, flipOrRepeat_counted hf h hc⟩, fun hn => absurd hc hn⟩⟩
      · obtain ⟨hfront, hfuc, hflips, hkind, hrep, hlog'⟩ := flipOrRepeat_of_uncounted htg hcomp hf h hc
        exact ⟨hfront, hflips, fun hm he => absurd ⟨hm, he⟩ hstill, fun _ => ⟨hkind, hfuc,
          fun hcn => absurd hcn hc, fun _ => ⟨hrep, hlog'⟩⟩⟩

end Sys2Proof.Machine
end

section
/-! SUPPORT. Composition starts and what they leave: the waits and the deadline, binning, and a frame that is given up (R26, R190, R198,
R202, R205). -/
namespace Sys2Proof.Machine

variable {s : State} {o : Nat} {f : FrameUC}

/-! ### The fences of a binning -/

/-- What the fences and the replaced capture buffers leave alone: the composed frames, the frame store and the flash. -/
def State.unfenced (s : State) : List CompState × Memory × Memory := (s.comp, s.fs, s.flash)

theorem unfenced_foldl {α : Type} (g : State → α → State) (h : ∀ t a, (g t a).unfenced = t.unfenced) (l : List α) (s : State) :
    (l.foldl g s).unfenced = s.unfenced := by
  induction l generalizing s with
  | nil => rfl
  | cons a r ih => rw [List.foldl, ih, h]

theorem unfenced_pruneOld (s : State) (i : Nat) : (pruneOld s i).unfenced = s.unfenced := by
  unfold pruneOld
  dsimp only
  repeat' split
  all_goals rfl

theorem unfenced_markRefs (s : State) (o frame : Nat) (sources : List (Nat × Source)) : (markRefs s o frame sources).unfenced = s.unfenced := by
  unfold markRefs pruneAll
  rw [unfenced_foldl _ unfenced_pruneOld, unfenced_foldl]
  · rfl
  · intro t a
    split <;> rfl

/-! ### Binning -/

/-- Every layer judged, and the sources of those that are binned. -/
def judgedLayers (s : State) (o : Nat) (f : FrameUC) : State × List (Nat × Source) :=
  (layersOf f.snap.cfg o).foldl (judgeLayer f.snap.cfg o) (s, [])

theorem core_judgedLayers (s : State) (o : Nat) (f : FrameUC) : (judgedLayers s o f).1.core = s.core :=
  core_foldl_fst (judgeLayer f.snap.cfg o) (fun t l => core_judgeLayer _ _ t l) (layersOf f.snap.cfg o) (s, [])

/-- The entries that do not fit on chip. -/
def binSpilled (s : State) (o : Nat) (f : FrameUC) : List (Nat × Entry) :=
  spilledEntries f.snap.cfg o ((judgedLayers s o f).1.compAt o).ntiles (262144 - onChipUsed (judgedLayers s o f).1) (judgedLayers s o f).2

/-- The Sprue records they fill. -/
def binRecords (s : State) (o : Nat) (f : FrameUC) : List SprueRec :=
  sprueRecords ((judgedLayers s o f).1.compAt o).qbase ((judgedLayers s o f).1.compAt o).ntiles f.frame
    ((judgedLayers s o f).1.composer.sprue.map (·.idx)) (binSpilled s o f)

/-- The frame with its tiles binned. -/
def binnedFrame (s : State) (o : Nat) (f : FrameUC) : FrameUC := { f with
  phase := .binning, sources := (judgedLayers s o f).2, tiles := List.replicate ((judgedLayers s o f).1.compAt o).ntiles .binned
  entries := (List.range ((judgedLayers s o f).1.compAt o).ntiles).map fun t =>
    (t, onChipEntries (tileEntries f.snap.cfg o t (judgedLayers s o f).2) (((binSpilled s o f).filter fun e => e.1 == t).map (·.2))) }

/-- The state with the binned frame under construction and its sources marked. -/
def binned (s : State) (o : Nat) (f : FrameUC) : State :=
  markRefs ((judgedLayers s o f).1.modComp o fun c => { c with fuc := some (binnedFrame s o f), frameSources := (judgedLayers s o f).2 })
    o f.frame (judgedLayers s o f).2

/-- The records beyond the pool's room. -/
def recordsOver (s : State) (o : Nat) (f : FrameUC) : List SprueRec :=
  (binRecords s o f).drop (sprueSize f.snap.cfg - (binned s o f).composer.sprue.length)

/-- With room for every record they join the pool (R193). -/
theorem bin_of_room (h : recordsOver s o f = []) : bin s o f = (binned s o f).modComposer fun x => { x with
    sprue := x.sprue ++ binRecords s o f, spruePeak := max x.spruePeak (x.sprue.length + (binRecords s o f).length) } := by
  simp only [recordsOver, binned, binRecords, binSpilled, binnedFrame, judgedLayers] at h ⊢
  unfold bin
  dsimp only
  rw [h]

/-- A full pool abandons the frame with cause 4 (R193). -/
theorem bin_of_full {r : SprueRec} {l : List SprueRec} (h : recordsOver s o f = r :: l) : bin s o f =
    recovered (abandonFrame (fault (binned s o f) 0x0708 (compData o r.queue) o) o 4) 0x0708 o := by
  simp only [recordsOver, binned, binRecords, binSpilled, binnedFrame, judgedLayers] at h ⊢
  unfold bin
  dsimp only
  rw [h]

theorem fs_flash_of_core {t : State} (h : t.core = s.core) : t.fs = s.fs ∧ t.flash = s.flash := by
  have hmem := memories_of_core h
  simp only [State.memories, Prod.mk.injEq] at hmem
  tauto

theorem comp_length_of_core {t : State} (h : t.core = s.core) : t.comp.length = s.comp.length := by
  have hshape := shape_of_core h
  simp only [State.shape, List.cons.injEq] at hshape
  tauto

theorem comp_modComp_length (s : State) (o : Nat) (g : CompState → CompState) : (s.modComp o g).comp.length = s.comp.length := by
  simp [State.modComp]

/-- Marking the sources leaves the composed frames, the frame store and the flash. -/
theorem binned_parts (s : State) (o : Nat) (f : FrameUC) : (binned s o f).comp = ((judgedLayers s o f).1.modComp o fun c =>
      { c with fuc := some (binnedFrame s o f), frameSources := (judgedLayers s o f).2 }).comp ∧
    (binned s o f).fs = s.fs ∧ (binned s o f).flash = s.flash := by
  have hmark := unfenced_markRefs ((judgedLayers s o f).1.modComp o fun c =>
    { c with fuc := some (binnedFrame s o f), frameSources := (judgedLayers s o f).2 }) o f.frame (judgedLayers s o f).2
  simp only [State.unfenced, Prod.mk.injEq] at hmark
  obtain ⟨hcomp, hfs, hflash⟩ := hmark
  obtain ⟨hfs', hflash'⟩ := fs_flash_of_core (core_judgedLayers s o f)
  exact ⟨hcomp, hfs.trans hfs', hflash.trans hflash'⟩

theorem binned_comp_length (s : State) (o : Nat) (f : FrameUC) : (binned s o f).comp.length = s.comp.length := by
  rw [(binned_parts s o f).1, comp_modComp_length, comp_length_of_core (core_judgedLayers s o f)]

theorem binned_fuc (ho : o < s.comp.length) : ((binned s o f).compAt o).fuc = some (binnedFrame s o f) := by
  rw [State.compAt, (binned_parts s o f).1, ← State.compAt, State.compAt_same _ _ _ (comp_length_of_core (core_judgedLayers s o f) ▸ ho)]

/-- Binning writes neither the frame store nor the flash. -/
theorem bin_fs_flash (s : State) (o : Nat) (f : FrameUC) : (bin s o f).fs = s.fs ∧ (bin s o f).flash = s.flash := by
  obtain ⟨-, hfs, hflash⟩ := binned_parts s o f
  cases h : recordsOver s o f with
  | nil =>
    rw [bin_of_room h, State.modComposer_fs, State.modComposer_flash]
    exact ⟨hfs, hflash⟩
  | cons r l =>
    rw [bin_of_full h]
    obtain ⟨hfs', hflash'⟩ := fs_flash_of_core (t := recovered (abandonFrame (fault (binned s o f) 0x0708 (compData o r.queue) o) o 4) 0x0708 o)
      (s := binned s o f) (by simp)
    exact ⟨hfs'.trans hfs, hflash'.trans hflash⟩

/-- An abandoned frame keeps its number and settings, with the cause for its repeat (R38, R254). -/
theorem abandonFrame_compAt (ho : o < s.comp.length) (cause : Nat) : (abandonFrame s o cause).compAt o =
    { s.compAt o with fuc := (s.compAt o).fuc.map fun f => { f with phase := .abandoned, entries := [], canvas := [] }, lastCause := cause } := by
  have hrel : (releaseFrame s o .abandoned).comp = (s.modComp o fun c =>
    { c with fuc := c.fuc.map fun f => { f with phase := .abandoned, entries := [], canvas := [] } }).comp := rfl
  rw [abandonFrame, State.compAt_same _ _ _ (by rw [hrel, comp_modComp_length]; exact ho), State.compAt, hrel, ← State.compAt,
    State.compAt_same _ _ _ ho]

/-- A frame is binned, or abandoned where the Sprue pool is full; its number and settings stay (R193). -/
theorem bin_fuc (ho : o < s.comp.length) : ∃ g : FrameUC, ((bin s o f).compAt o).fuc = some g ∧ g.frame = f.frame ∧
    g.snap = f.snap ∧ (g.phase = .binning ∨ g.phase = .abandoned ∧ ((bin s o f).compAt o).lastCause = 4) := by
  cases h : recordsOver s o f with
  | nil =>
    rw [bin_of_room h, State.compAt, State.modComposer_comp, ← State.compAt]
    exact ⟨_, binned_fuc ho, rfl, rfl, .inl rfl⟩
  | cons r l =>
    have hfault : o < (fault (binned s o f) 0x0708 (compData o r.queue) o).comp.length := by
      rw [comp_length_of_core (core_fault _ _ _ _), binned_comp_length]
      exact ho
    have hfuc := fuc_of_kept (kept_fault (binned s o f) 0x0708 (compData o r.queue) o) o
    rw [binned_fuc ho, Option.map_some] at hfuc
    obtain ⟨g, hg, hkeep⟩ := Option.map_eq_some_iff.mp hfuc
    simp only [Prod.mk.injEq] at hkeep
    obtain ⟨hframe, hsnap⟩ := hkeep
    rw [bin_of_full h, State.compAt, (logged_recovered _ _).comp, ← State.compAt, abandonFrame_compAt hfault, hg]
    exact ⟨_, rfl, hframe, hsnap, .inr ⟨rfl, rfl⟩⟩

/-! ### Composition starts -/

theorem startBinning_of_ready (hf : (s.compAt o).fuc = some f) (hw : waitingLayers s f.snap.cfg o = []) : startBinning s o = bin s o f := by
  simp [startBinning, hf, hw]

theorem startBinning_of_waiting (hf : (s.compAt o).fuc = some f) (hw : waitingLayers s f.snap.cfg o ≠ []) :
    startBinning s o = judgeWaiting s f.snap.cfg o := by
  simp [startBinning, hf, hw]

theorem startBinning_fs_flash (s : State) (o : Nat) : (startBinning s o).fs = s.fs ∧ (startBinning s o).flash = s.flash := by
  unfold startBinning
  split
  · exact ⟨rfl, rfl⟩
  · split
    · exact bin_fs_flash _ _ _
    · exact fs_flash_of_core (core_judgeWaiting _ _ _)

/-- A composition start writes neither the frame store nor the flash: up to the binning it keeps the state's core. -/
theorem compositionStart_fs_flash (s : State) (o : Nat) : (compositionStart s o).fs = s.fs ∧ (compositionStart s o).flash = s.flash := by
  unfold compositionStart
  dsimp only
  split
  · exact fs_flash_of_core (by simp)
  · split
    · exact fs_flash_of_core (by simp)
    · rw [(startBinning_fs_flash _ _).1, (startBinning_fs_flash _ _).2]
      exact fs_flash_of_core (by simp)

/-! ### A frame that is given up -/

/-- No context of an output is left once its contexts are given up. -/
theorem out_ne_of_released {c : TileCtx} {l : List (Option TileCtx)} (h : some c ∈ l.map fun (c : Option TileCtx) =>
    match c with | some x => if x.out = o then none else some x | none => none) : c.out ≠ o := by
  obtain ⟨c', -, hc⟩ := List.mem_map.mp h
  split at hc
  · split at hc
    · simp at hc
    · simp_all
  · simp at hc

section
variable (s) (o) (phase : FramePhase)

theorem releaseFrame_compAt (ho : o < s.comp.length) : (releaseFrame s o phase).compAt o =
    { s.compAt o with fuc := (s.compAt o).fuc.map fun f => { f with phase := phase, entries := [], canvas := [] } } :=
  State.compAt_same s o _ ho

theorem releaseFrame_compAt_other {p : Nat} (hp : p ≠ o) : (releaseFrame s o phase).compAt p = s.compAt p :=
  State.compAt_other s o p _ hp

theorem releaseFrame_engines : ∀ e ∈ (releaseFrame s o phase).composer.engines, ∀ k, e ≠ some (o, k) := by
  intro e he k hk
  obtain ⟨e', -, rfl⟩ := List.mem_map.mp he
  split at hk
  · split at hk
    · simp at hk
    · simp_all
  · simp at hk

theorem releaseFrame_contexts (c : TileCtx) (h : some c ∈ (releaseFrame s o phase).composer.contexts ∨
    some c ∈ (releaseFrame s o phase).composer.resumed) : c.out ≠ o := by
  rcases h with h | h
  · exact out_ne_of_released h
  · exact out_ne_of_released h

theorem ownsQueue_of_range {q : Nat} (h : (s.compAt o).qbase ≤ q) (h' : q < (s.compAt o).qbase + (s.compAt o).ntiles) :
    s.ownsQueue o q = true := by
  simp [State.ownsQueue, h, h']

theorem releaseFrame_queue {q : Nat} (h : s.ownsQueue o q = true) : (∀ r ∈ (releaseFrame s o phase).composer.sprue, r.queue ≠ q) ∧
    (∀ e ∈ (releaseFrame s o phase).composer.spill, e.1 ≠ q) ∧ ∀ w ∈ (releaseFrame s o phase).surf.heldFaults, w.1.queue ≠ q := by
  refine ⟨fun r hr hq => ?_, fun e he hq => ?_, fun w hw hq => ?_⟩
  · have hown := (List.mem_filter.mp hr).2
    simp [hq, h] at hown
  · have hown := (List.mem_filter.mp he).2
    simp [hq, h] at hown
  · have hown := (List.mem_filter.mp hw).2
    simp [hq, h] at hown

end

/-- Settles O20: a composition start keeps the frame store and the flash, a wait and the deadline end as R198 and R202 say, binning
keeps the frame's number and settings, and a frame given up releases what it held. -/
theorem compositionStartsAndEnds : Obligations.CompositionStartsAndEnds := by
  refine ⟨⟨fun s o hrun => ⟨by simp [exec, execCompositionStart, hrun], compositionStart_fs_flash s o⟩, fun s o f hf hp => ⟨fun hw => ?_,
    fun hw => ?_, ?_⟩, fun s o f hf hp => ?_, fun s o f hs => bin_fuc (lt_lengths hs o).2.2⟩, fun s o phase hs => ⟨fun f hf => ?_,
    releaseFrame_engines s o phase, releaseFrame_contexts s o phase, fun q h h' => releaseFrame_queue s o phase (ownsQueue_of_range s o h h'),
    fun p hp => releaseFrame_compAt_other s o phase hp⟩⟩
  · simp [exec, execWaitAllReady, hf, hp, startBinning_of_ready hf hw]
  · simp [exec, execWaitAllReady, hf, hp, startBinning_of_waiting hf hw]
  · simp [exec, execWaitRepeat, hf, hp, abandonFrame]
  · simp [exec, execComposeLate, hf, hp, abandonFrame]
  · rw [releaseFrame_compAt s o phase (lt_lengths hs o).2.2] at hf
    obtain ⟨g, -, rfl⟩ := Option.map_eq_some_iff.mp hf
    exact ⟨rfl, rfl, rfl⟩

end Sys2Proof.Machine
end

section
/-! SUPPORT. What a present and the end of a frame's encoding do, case by case (R199, R394, R396, R399). -/
namespace Sys2Proof.Machine

variable {s : State} {path : PathId} {f : FrameUC} {o : Nat}

/-! ### LAYER_PRESENT -/

theorem layerPresent_taken {v : Nat} (hk : lyKind s.act (nbits v 22 16) = 0) (hst : (s.surfAt (nbits v 11 0)).st = 2) :
    layerPresent s v path = (s.modComposer fun x => { x with
        presentsNext := (nbits v 22 16, nbits v 11 0) :: x.presentsNext.filter fun e => e.1 != nbits v 22 16 }).modTg
      (lyOutput s.act (nbits v 22 16)) fun t => { t with layerChange := true } :=
  if_neg (not_or_intro (not_not_intro hk) (not_not_intro hst))

theorem layerPresent_refused {v : Nat} (h : lyKind s.act (nbits v 22 16) ≠ 0 ∨ (s.surfAt (nbits v 11 0)).st ≠ 2) :
    layerPresent s v path = raiseP s 0x070B (compData (lyOutput s.act (nbits v 22 16)) (nbits v 22 16)) path :=
  if_pos h

theorem execLayerPresent_held {v : Word} (hs : serves s path = true) (hr : hasRole s path 2 = true) :
    execLayerPresent path v s = .next (layerPresent s v.toNat path) :=
  congrArg _ (withRole_held 0x7000C (fun s => layerPresent s v.toNat path) hs hr)

/-! ### The end of a frame's encoding -/

/-- The rectangle signatures write no memory (R397 to R399). -/
theorem judgeRects_memories (s : State) (m : WordMap) (o : Nat) (out canvas : Nat → Nat → Nat → Nat) (still : Bool) :
    (judgeRects s m o out canvas still).1.memories = s.memories :=
  memories_of_core (core_judgeRects s m o out canvas still)

/-- The rectangles of the frame under composition, judged over the limited values and over the canvas. -/
def judgedFrame (s : State) (f : FrameUC) (o : Nat) : State × Option Nat :=
  judgeRects s f.snap.cfg o (fun c x y => zonedValue s f o c x y) (fun c x y => canvasAt f o c x y) f.still

/-- What a frame leaves in its buffer under the ACTION its rectangles ask for. -/
def encodedBuf (f : FrameUC) (o : Nat) (act : Option Nat) : BufState := {
  tag := f.tag, prog := f.prog, planeSet := if isScan f.snap.cfg o then 0 else progPlaneSet f.snap.cfg o f.prog
  snap := f.snap, complete := true, frame := f.frame, still := f.still
  dark := act == some 2, withhold := act == some 1 || act == some 3 }

/-- The signature of the resident zone data of an output, over the size it was made for (R396). -/
def residentSig (s : State) (o : Nat) : Nat := crc32 (zoneResident s o (nth s.guard.zones o {}).w (nth s.guard.zones o {}).h)

/-- An encodable frame with room in the back buffer comes to the judgement of the zone data. -/
theorem execEncodeComplete_encodable (hf : (s.compAt o).fuc = some f) (he : encodable f o = true) (hb : (backBuf s o).complete = false) :
    execEncodeComplete o s = if residentSig s o ≠ zoneExpect s.act o then .next (zoneFail s o (residentSig s o)) else
      .next { (judgedFrame s f o).1.modEnc o fun e =>
        { e with bufs := listSet e.bufs (1 - e.frontIdx) (encodedBuf f o (judgedFrame s f o).2) } with fs := storeFrame s f o } := by
  simp only [execEncodeComplete, hf, he, hb, Bool.not_true, Bool.or_self, Bool.false_eq_true, if_false]
  rfl

theorem execEncodeComplete_stored (hf : (s.compAt o).fuc = some f) (he : encodable f o = true) (hb : (backBuf s o).complete = false)
    (hz : residentSig s o = zoneExpect s.act o) : execEncodeComplete o s =
      .next { (judgedFrame s f o).1.modEnc o fun e =>
        { e with bufs := listSet e.bufs (1 - e.frontIdx) (encodedBuf f o (judgedFrame s f o).2) } with fs := storeFrame s f o } :=
  (execEncodeComplete_encodable hf he hb).trans (if_neg (not_not_intro hz))

theorem execEncodeComplete_zoneFail (hf : (s.compAt o).fuc = some f) (he : encodable f o = true) (hb : (backBuf s o).complete = false)
    (hz : residentSig s o ≠ zoneExpect s.act o) : execEncodeComplete o s = .next (zoneFail s o (residentSig s o)) :=
  (execEncodeComplete_encodable hf he hb).trans (if_pos hz)

/-- Settles O23: a present by its two conditions, the end of the encoding by whether the zone data pass their check. -/
theorem presentsAndEncoding : Obligations.PresentsAndEncoding := by
  refine ⟨⟨fun s path v hs hr hk hst => ?taken, fun s path v hs hr h => ?refused⟩,
    fun s o f hf he hb hz => ?stored, fun s o f hf he hb hz => ?zoneFail, fun s f o c x y => Nat.min_le_right _ _⟩
  case taken => exact (execLayerPresent_held hs hr).trans (congrArg _ (layerPresent_taken hk hst))
  case refused => exact (execLayerPresent_held hs hr).trans (congrArg _ (layerPresent_refused h))
  case stored =>
    have hmem : (judgedFrame s f o).1.memories = s.memories := judgeRects_memories _ _ _ _ _ _
    simp only [State.memories, Prod.mk.injEq] at hmem
    obtain ⟨hfs, hhbm, hflash, -⟩ := hmem
    exact ⟨(judgedFrame s f o).1, (judgedFrame s f o).2, rfl, hfs, hflash, hhbm, execEncodeComplete_stored hf he hb hz⟩
  case zoneFail => exact execEncodeComplete_zoneFail hf he hb hz

end Sys2Proof.Machine
end

section
/-! SUPPORT. Local time, PTP time and the fire times of posts (R66). -/
namespace Sys2Proof.Machine

/-- PTP time is local time with the servo's offset, where that is not before its epoch (R66). -/
theorem ptpNs_eq {s : State} (h : 0 ≤ (localNs s : Int) + s.ptp.offset) : (ptpNs s : Int) = localNs s + s.ptp.offset :=
  Int.toNat_of_nonneg h

/-- The candidate of the present block of 2^56 ticks, or its neighbour where that is out of reach (R66). -/
theorem resolveFire_eq (now f : Nat) : resolveFire now f =
    if now + 2 ^ 55 < now / 2 ^ 56 * 2 ^ 56 + f % 2 ^ 56 then now / 2 ^ 56 * 2 ^ 56 + f % 2 ^ 56 - 2 ^ 56
    else if now / 2 ^ 56 * 2 ^ 56 + f % 2 ^ 56 + 2 ^ 55 ≤ now then now / 2 ^ 56 * 2 ^ 56 + f % 2 ^ 56 + 2 ^ 56
    else now / 2 ^ 56 * 2 ^ 56 + f % 2 ^ 56 := rfl

/-- Settles O11: the resolved fire time by whether the present block's candidate lies too late, too early or within reach. -/
theorem localPtpAndFireTimes : Obligations.LocalPtpAndFireTimes := by
  refine ⟨fun s => rfl, fun s => ptpNs_eq, fun now f h => ?_⟩
  have hblock := Nat.div_add_mod now (2 ^ 56)
  have hnow := Nat.mod_lt now (Nat.two_pow_pos 56)
  have hlow := Nat.mod_lt f (Nat.two_pow_pos 56)
  rw [resolveFire_eq]
  split
  case isTrue late => omega
  case isFalse notLate =>
    split
    case isTrue early => omega
    case isFalse reached => omega

end Sys2Proof.Machine
end

section
/-! SUPPORT. The correction's course to its target, and what the references of the timebase do to it (R67 to R70). -/
namespace Sys2Proof.Machine

variable {s : State} {m : WordMap} {t : TbState}

/-! ### The course of the correction -/

theorem slewStep_nonneg (m : WordMap) (n : Nat) : 0 ≤ slewStep m n := by
  unfold slewStep
  positivity

theorem slewStep_add (m : WordMap) (n k : Nat) : slewStep m (n + k) = slewStep m n + slewStep m k := by
  unfold slewStep
  push_cast
  ring

/-- A way `x`, gone as far as `d` in either direction. -/
def reached (d x : Rat) : Rat := max (-d) (min d x)

theorem corrAt_eq (m : WordMap) (t : TbState) (now : Nat) :
    corrAt m t now = t.corr + reached (slewStep m (now - t.slewAt)) (t.target - t.corr) := rfl

theorem reached_of_nonneg {d x : Rat} (hd : 0 ≤ d) (hx : 0 ≤ x) : reached d x = min d x :=
  max_eq_right ((neg_nonpos.2 hd).trans (le_min hd hx))

theorem reached_of_nonpos {d x : Rat} (hd : 0 ≤ d) (hx : x ≤ 0) : reached d x = max (-d) x := by
  rw [reached, min_eq_right (hx.trans hd)]

/-- With `e` more to go, at most `e` more is gone. -/
theorem reached_add_sub {d e : Rat} (x : Rat) (hd : 0 ≤ d) (he : 0 ≤ e) :
    reached (d + e) x - reached d x ≤ e ∧ reached d x - reached (d + e) x ≤ e := by
  obtain hx | hx := le_total 0 x
  · rw [reached_of_nonneg hd hx, reached_of_nonneg (add_nonneg hd he) hx]
    obtain h | h := le_total d x
    · rw [min_eq_left h]
      exact ⟨by linarith [min_le_left (d + e) x], by linarith [le_min (show d - e ≤ d + e by linarith) (show d - e ≤ x by linarith)]⟩
    · rw [min_eq_right h, min_eq_right (by linarith)]
      simpa using he
  · rw [reached_of_nonpos hd hx, reached_of_nonpos (add_nonneg hd he) hx]
    obtain h | h := le_total x (-d)
    · rw [max_eq_left h]
      exact ⟨by linarith [max_le (show -(d + e) ≤ e - d by linarith) (show x ≤ e - d by linarith)], by linarith [le_max_left (-(d + e)) x]⟩
    · rw [max_eq_right h, max_eq_right (by linarith)]
      simpa using he

/-- Between two ticks the correction moves no further than the slew limit lets it (R68). -/
theorem corrAt_sub_le (m : WordMap) {a b : Nat} (ha : t.slewAt ≤ a) (hab : a ≤ b) :
    corrAt m t b - corrAt m t a ≤ slewStep m (b - a) ∧ corrAt m t a - corrAt m t b ≤ slewStep m (b - a) := by
  have hb : slewStep m (b - t.slewAt) = slewStep m (a - t.slewAt) + slewStep m (b - a) := by
    rw [← slewStep_add, show a - t.slewAt + (b - a) = b - t.slewAt by omega]
  have h := reached_add_sub (t.target - t.corr) (slewStep_nonneg m (a - t.slewAt)) (slewStep_nonneg m (b - a))
  rwa [corrAt_eq, corrAt_eq, hb, add_sub_add_left_eq_sub, add_sub_add_left_eq_sub]

/-- On its course the correction stays within every range that holds its start and its target. -/
theorem corrAt_mem_Icc {lo hi : Rat} (m : WordMap) (n : Nat) (hc : t.corr ∈ Set.Icc lo hi) (ht : t.target ∈ Set.Icc lo hi) :
    corrAt m t n ∈ Set.Icc lo hi := by
  obtain ⟨hclo, hchi⟩ := hc
  obtain ⟨htlo, hthi⟩ := ht
  have hd := slewStep_nonneg m (n - t.slewAt)
  rw [corrAt_eq]
  obtain hx | hx := le_total 0 (t.target - t.corr)
  · rw [reached_of_nonneg hd hx]
    exact ⟨by linarith [le_min hd hx], by linarith [min_le_right (slewStep m (n - t.slewAt)) (t.target - t.corr)]⟩
  · rw [reached_of_nonpos hd hx]
    exact ⟨by linarith [le_max_right (-slewStep m (n - t.slewAt)) (t.target - t.corr)], by linarith [max_le (neg_nonpos.2 hd) hx]⟩

/-- A new target lies within 200 ppm, in units of 2^-14 ppm (R68). -/
theorem steer_target_mem (m : WordMap) (t : TbState) (x : Rat) : (steer m t x).target ∈ Set.Icc (-3276800 : Rat) 3276800 :=
  ⟨le_max_left _ _, max_le (by norm_num) (min_le_left _ _)⟩

/-! ### Samples of the reference -/

/-- Where a sample leaves the course of the correction: in holdover as it was, else on the way to what the loop asks for. -/
def sampleCourse (m : WordMap) (t : TbState) (err : Int) : TbState :=
  if t.phase = 3 then t else steer m t (Config.tbServo err t.corr.floor t.tick)

/-- What the timebase keeps of a sample (R67). -/
def takeSample (m : WordMap) (t u : TbState) (err : Int) : TbState := { u with
  phaseErr := err, refValid := true, sample := t.tick, phase := if t.phase = 0 then 1 else t.phase
  offset := refOffset m t err
  validSince := if t.refValid then t.validSince else t.tick
  bandSince := if err.natAbs ≤ (lockBand m).1 then some (t.bandSince.getD t.tick) else none }

theorem execTbReferenceSample_selected (h : refSel (s.rt 4) ≠ 0) (err : Int) : execTbReferenceSample err s =
    .next { s with tb := takeSample (s.rt 4) s.tb (sampleCourse (s.rt 4) s.tb err) err } := by
  simp only [execTbReferenceSample, if_neg h, decide_eq_true_eq]
  rfl

theorem execTbReferenceSample_steered (h : refSel (s.rt 4) ≠ 0) (hp : s.tb.phase ≠ 3) (err : Int) : execTbReferenceSample err s =
    .next { s with tb := takeSample (s.rt 4) s.tb (steer (s.rt 4) s.tb (Config.tbServo err s.tb.corr.floor s.tb.tick)) err } := by
  rw [execTbReferenceSample_selected h, sampleCourse, if_neg hp]

theorem execTbReferenceSample_holdover (h : refSel (s.rt 4) ≠ 0) (hp : s.tb.phase = 3) (err : Int) : execTbReferenceSample err s =
    .next { s with tb := takeSample (s.rt 4) s.tb s.tb err } := by
  rw [execTbReferenceSample_selected h, sampleCourse, if_pos hp]

/-! ### Loss, holdover and lock -/

theorem execTbRefLost_gone (hs : refSel (s.rt 4) ≠ 0) (hg : refGone (s.rt 4) s.tb = true) : execTbRefLost s = .next (loseReference s) :=
  if_pos ⟨hs, hg⟩

theorem execTbRefLost_kept (h : refSel (s.rt 4) = 0 ∨ refGone (s.rt 4) s.tb = false) : execTbRefLost s = .next s :=
  if_neg fun ⟨hs, hg⟩ => h.elim hs (by simp [hg])

/-- A loss outside holdover starts holdover, at the mean of the last 10 s (R69). -/
theorem loseReference_holdover (hp : s.tb.phase ≠ 3) : loseReference s = raise { s with tb :=
    { steer (s.rt 4) { s.tb with refValid := false, bandSince := none, offset := 0 } (meanCorr (s.rt 4) s.tb) with phase := 3 } } 0x0201 0 :=
  if_neg hp

theorem execTbHoldoverExit_valid (hp : s.tb.phase = 3) (hg : refGone (s.rt 4) s.tb = false) (hv : s.tb.validSince + 400000000 ≤ s.tb.tick) :
    execTbHoldoverExit s = .next { s with tb := { s.tb with phase := 1, bandSince := none } } :=
  if_pos ⟨hp, by simp [hg], hv⟩

theorem lockBand_snd (m : WordMap) : (lockBand m).2 = if refSel m = 2 then 4000000000 else 400000000 := by
  unfold lockBand
  split <;> rfl

/-- The lock condition holds once the phase error has stayed within its band for the band's time (R67). -/
theorem lockHolds_iff (m : WordMap) (t : TbState) : lockHolds m t = true ↔ ∃ b, t.bandSince = some b ∧
    b + (if refSel m = 2 then 4000000000 else 400000000) ≤ t.tick := by
  unfold lockHolds
  cases h : t.bandSince with
  | none => simp
  | some b => simp [lockBand_snd]

/-- Settles O14: the correction by its course, a sample by whether the timebase is in holdover, and each change of the lock by its
condition. -/
theorem timebaseReferences : Obligations.TimebaseReferences := by
  refine ⟨⟨fun s err hs hp => ?sampled, fun s hs hp err => ?held, fun m t a b => corrAt_sub_le m,
      fun m t x n hclo hchi htlo hthi => ?bounded⟩,
    ⟨fun s hs hg hp => ?lost, fun s h => execTbRefLost_kept h, fun s hp hg hv => execTbHoldoverExit_valid hp hg hv,
      fun s hs hp hl => if_pos ⟨hs, hp, hl⟩, lockHolds_iff⟩⟩
  case sampled => exact ⟨_, execTbReferenceSample_steered hs hp err, rfl,
    steer_target_mem (s.rt 4) s.tb (Config.tbServo err s.tb.corr.floor s.tb.tick)⟩
  case held =>
    refine ⟨_, execTbReferenceSample_holdover hs hp err, rfl, rfl, ?_, rfl, rfl⟩
    simp [takeSample, hp]
  case bounded =>
    exact corrAt_mem_Icc m n (corrAt_mem_Icc m t.tick ⟨hclo, hchi⟩ ⟨htlo, hthi⟩) (steer_target_mem m t x)
  case lost => exact ⟨_, (execTbRefLost_gone hs hg).trans (congrArg _ (loseReference_holdover hp)), rfl⟩

end Sys2Proof.Machine
end

section
/-! SUPPORT. The fields of a Relvor message, and what a message, the sends of the root and the loss of the link do (R239 to R243). -/
namespace Sys2Proof.Machine

variable {s : State} {b : List Byte} {m : WordMap}

/-! ### Fields of a message -/

@[simp] theorem leBytes_length (n x : Nat) : (leBytes n x).length = n := by
  induction n generalizing x with
  | zero => rfl
  | succ n ih => simp [leBytes, ih]

/-- The number that little-endian bytes spell is the one they were made from, as far as they reach. -/
theorem leNat_leBytes (n x : Nat) : leNat (leBytes n x) = x % 256 ^ n := by
  induction n generalizing x with
  | zero => simp [leNat, leBytes, Nat.mod_one]
  | succ n ih => simp [leNat, leBytes, ih, pow_succ', Nat.mod_mul]

theorem leNat_lt (l : List Byte) : leNat l < 256 ^ l.length := by
  induction l with
  | nil => simp [leNat]
  | cons x r ih =>
    have hx := x.isLt
    simp only [leNat, List.length_cons, pow_succ]
    omega

theorem msgField_lt (l : List Byte) (i n : Nat) : msgField l i n < 256 ^ n :=
  (leNat_lt _).trans_le (Nat.pow_le_pow_right (by decide) (List.length_take_le _ _))

theorem length_of_rlvCrcOk (h : rlvCrcOk b = true) : b.length = 30 := by
  simp only [rlvCrcOk, Bool.and_eq_true, beq_iff_eq] at h
  exact h.1

/-! ### Forwarding (R241) -/

/-- What a forwarding device puts in the place of a message's first 28 bytes. -/
def rlvHop (m : WordMap) (b : List Byte) : List Byte :=
  b.take 1 ++ leBytes 1 (msgField b 1 1 / 16 * 16 + (msgField b 1 1 + 1) % 16) ++ (b.drop 2).take 2
    ++ leBytes 3 (msgField b 4 3 + rlvCable m + 1600) ++ (b.drop 7).take 21

/-- The message it sends on: with the check word made anew. -/
def rlvForwarded (m : WordMap) (b : List Byte) : List Byte := rlvHop m b ++ leBytes 2 (crc16 (rlvHop m b))

theorem execRlvForward_other (hroot : rlvRoot (s.rt 4) = false) (hc : rlvCrcOk b = true)
    (ho : msgField b 2 2 % 2048 = (s.rt 4).fld 0x20200 22 12) : execRlvForward b s = .next (rlvSend s (rlvForwarded (s.rt 4) b)) := by
  simp only [execRlvForward, hroot, hc, ho, bne_self_eq_false, Bool.not_true, Bool.or_self, Bool.false_eq_true, if_false]
  rfl

theorem rlvSend_connected (h : (s.rt 4).fld 0x20200 30 28 ≠ 0) (l : List Byte) :
    rlvSend s l = { s with rlv := { s.rlv with sent := (l :: s.rlv.sent).take 16 } } :=
  if_neg h

section
variable (hb : b.length = 30)
include hb

theorem rlvForwarded_length : (rlvForwarded m b).length = 30 := by simp [rlvForwarded, rlvHop, hb]

theorem rlvForwarded_type : msgField (rlvForwarded m b) 0 1 = msgField b 0 1 := by
  simp [rlvForwarded, rlvHop, msgField, hb]

/-- HOPS goes up by one beside the stream, which stays. -/
theorem rlvForwarded_hops : msgField (rlvForwarded m b) 1 1 = msgField b 1 1 / 16 * 16 + (msgField b 1 1 + 1) % 16 := by
  have hfield : msgField (rlvForwarded m b) 1 1 = leNat (leBytes 1 (msgField b 1 1 / 16 * 16 + (msgField b 1 1 + 1) % 16)) := by
    rw [msgField]
    simp [rlvForwarded, rlvHop, hb]
  have hbyte := msgField_lt b 1 1
  rw [hfield, leNat_leBytes, Nat.mod_eq_of_lt (by omega)]

theorem rlvForwarded_origin : msgField (rlvForwarded m b) 2 2 = msgField b 2 2 := by
  simp [rlvForwarded, rlvHop, msgField, List.drop_append, List.drop_eq_nil_of_le, hb]

theorem rlvForwarded_delay : msgField (rlvForwarded m b) 4 3 = (msgField b 4 3 + rlvCable m + 1600) % 2 ^ 24 := by
  have hfield : msgField (rlvForwarded m b) 4 3 = leNat (leBytes 3 (msgField b 4 3 + rlvCable m + 1600)) := by
    rw [msgField]
    simp [rlvForwarded, rlvHop, List.drop_append, List.drop_eq_nil_of_le, hb]
  rw [hfield, leNat_leBytes, show 256 ^ 3 = 2 ^ 24 by decide]

theorem rlvForwarded_rest : ((rlvForwarded m b).drop 7).take 21 = (b.drop 7).take 21 := by
  simp [rlvForwarded, rlvHop, List.drop_append, List.drop_eq_nil_of_le, hb]

end

/-! ### Messages received (R241, R242) -/

/-- A message of the device's own root has been heard. -/
def rlvHeard (s : State) (b : List Byte) : State :=
  { s with rlv := { s.rlv with origin := msgField b 2 2 % 2048, state := if s.rlv.state = 0 ∨ s.rlv.state = 3 then 1 else s.rlv.state } }

section
variable {t : Nat}

theorem execRlvMessageReceive_badCrc (h : rlvCrcOk b = false) : execRlvMessageReceive b t s =
    .next { s with rlv := { s.rlv with crcErrs := satAdd 0xFF s.rlv.crcErrs 1 } } := by
  simp [execRlvMessageReceive, h]

variable (hc : rlvCrcOk b = true)
include hc

theorem execRlvMessageReceive_otherRoot (ho : msgField b 2 2 % 2048 ≠ (s.rt 4).fld 0x20200 22 12) :
    execRlvMessageReceive b t s = .next (raise s 0x0232 0) := by
  simp [execRlvMessageReceive, hc, ho]

variable (ho : msgField b 2 2 % 2048 = (s.rt 4).fld 0x20200 22 12)
include ho

theorem execRlvMessageReceive_time (h : msgField b 0 1 = 1) : execRlvMessageReceive b t s = .next (rlvTime (rlvHeard s b) b t) := by
  simp only [execRlvMessageReceive, hc, ho, h, rlvHeard, Bool.not_true, Bool.false_eq_true, if_false, ne_eq, not_true_eq_false]

theorem execRlvMessageReceive_frame (h : msgField b 0 1 = 2) : execRlvMessageReceive b t s = .next (rlvAnnounce (rlvHeard s b) b t) := by
  simp only [execRlvMessageReceive, hc, ho, h, rlvHeard, Bool.not_true, Bool.false_eq_true, if_false, ne_eq, not_true_eq_false]

end

/-- A device whose tick does not follow the link takes the mapping and does not lock on it (R242). -/
theorem rlvTime_unlocked (h : refSel (s.rt 4) ≠ 3) (b : List Byte) (t : Nat) : rlvTime s b t = { s with rlv := { s.rlv with
    map := some (rlvMapping (s.rt 4) b t), runMaps := (rlvMapping (s.rt 4) b t :: s.rlv.runMaps).take 16
    hops := msgField b 1 1 % 16, state := if s.rlv.state = 2 then 2 else 1 } } := by
  simp [rlvTime, h]

/-- A device that had heard nothing acquires; one in lock stays in lock. -/
theorem rlvHeard_state (s : State) (b : List Byte) : (if (rlvHeard s b).rlv.state = 2 then 2 else 1) = if s.rlv.state = 2 then 2 else 1 := by
  simp only [rlvHeard]
  split
  case isTrue h => rcases h with h | h <;> simp [h]
  case isFalse => rfl

/-! ### References regained (R236) -/

/-- Clearing the loss of one generator's reference, seen from every generator. -/
theorem tgAt_clearRefLost (s : State) (o p : Nat) :
    (s.modTg o fun t => { t with refLost := false }).tgAt p = if p = o then { s.tgAt p with refLost := false } else s.tgAt p := by
  split
  case isTrue h =>
    subst h
    by_cases hlen : p < s.tg.length
    · exact State.tgAt_same s p _ hlen
    · have hout : s.tgAt p = {} := by simp [State.tgAt, nth, Nat.le_of_not_lt hlen]
      simp [State.tgAt, State.modTg, nth, upd, hlen]
  case isFalse h => exact State.tgAt_other s o p _ h

/-- Clearing the loss of one generator's reference where a condition holds. -/
theorem tgAt_clearRefLost_ite (s : State) (c : Prop) [Decidable c] (o p : Nat) :
    (if c then s.modTg o fun t => { t with refLost := false } else s).tgAt p =
      if p = o ∧ c then { s.tgAt p with refLost := false } else s.tgAt p := by
  by_cases h : c
  · simp [h, tgAt_clearRefLost]
  · simp [h]

theorem tgAt_foldl_regain (l : List Nat) (src k p : Nat) (s : State) :
    (l.foldl (fun s o => if genSrc (s.rt o) o = src ∧ (src = 2 ∨ srcIdx (s.rt o) o = k) then
      s.modTg o fun t => { t with refLost := false } else s) s).tgAt p =
      if p ∈ l ∧ genSrc (s.rt p) p = src ∧ (src = 2 ∨ srcIdx (s.rt p) p = k) then { s.tgAt p with refLost := false } else s.tgAt p := by
  induction l generalizing s with
  | nil => simp
  | cons o r ih =>
    have hrt : ∀ q, State.rt (if genSrc (s.rt o) o = src ∧ (src = 2 ∨ srcIdx (s.rt o) o = k) then
        s.modTg o fun t => { t with refLost := false } else s) q = s.rt q := fun q => by split <;> rfl
    rw [List.foldl_cons, ih, hrt, tgAt_clearRefLost_ite]
    by_cases hp : p = o
    · subst hp
      by_cases hc : genSrc (s.rt p) p = src ∧ (src = 2 ∨ srcIdx (s.rt p) p = k) <;> simp [hc]
    · simp [hp]

theorem tgAt_regainRef (s : State) (src k : Nat) (o : Fin 4) : (regainRef s src k).tgAt o =
    if genSrc (s.rt o) o = src ∧ (src = 2 ∨ srcIdx (s.rt o) o = k) then { s.tgAt o with refLost := false } else s.tgAt o := by
  have ho : (o : Nat) ∈ outputs := by
    simp only [outputs, List.mem_cons, List.not_mem_nil, or_false]
    omega
  simp [regainRef, tgAt_foldl_regain, ho]

/-- Two states that differ in their generators at most. -/
def OnlyTg (s t : State) : Prop := t = { s with tg := t.tg }

theorem OnlyTg.trans {s t u : State} (h : OnlyTg s t) (k : OnlyTg t u) : OnlyTg s u := by
  unfold OnlyTg at *
  rw [k, h]

theorem onlyTg_foldl {α : Type} (g : State → α → State) (hg : ∀ s a, OnlyTg s (g s a)) (l : List α) (s : State) :
    OnlyTg s (l.foldl g s) := by
  induction l generalizing s with
  | nil => rfl
  | cons a r ih => exact (hg s a).trans (ih _)

theorem onlyTg_regainRef (s : State) (src k : Nat) : OnlyTg s (regainRef s src k) :=
  onlyTg_foldl _ (fun s o => by split <;> rfl) _ _

theorem regainRef_rlv (s : State) (src k : Nat) : (regainRef s src k).rlv = s.rlv := by rw [onlyTg_regainRef s src k]

/-- The stream's next frame start as a message tells it, in fine steps of the root's time (R242). -/
def announcedStart (b : List Byte) : Int :=
  25 * (msgField b 8 8 + msgField b 24 4 % 2 ^ 27 : Nat) + (msgField b 24 4 / 2 ^ 27 : Nat)

theorem rlvAnnounce_rlv (s : State) (b : List Byte) (t : Nat) : (rlvAnnounce s b t).rlv = { s.rlv with
    announced := listSet s.rlv.announced (msgField b 1 1 / 16 % 4)
      (some ((announcedStart b + s.rlv.map.getD (rlvMapping (s.rt 4) b t)).toNat, msgField b 16 8))
    announcedPrev := listSet s.rlv.announcedPrev (msgField b 1 1 / 16 % 4) (nth s.rlv.announced (msgField b 1 1 / 16 % 4) none)
    frameAt := listSet s.rlv.frameAt (msgField b 1 1 / 16 % 4) (some (t / 25)) } :=
  regainRef_rlv _ _ _

theorem rlvAnnounce_eq (s : State) (b : List Byte) (t : Nat) :
    rlvAnnounce s b t = { s with rlv := (rlvAnnounce s b t).rlv, tg := (rlvAnnounce s b t).tg } := by
  rw [rlvAnnounce_rlv]
  exact onlyTg_regainRef _ _ _

/-- The generators that follow the announced stream have their reference again (R236). -/
theorem tgAt_rlvAnnounce (s : State) (b : List Byte) (t : Nat) (o : Fin 4) : (rlvAnnounce s b t).tgAt o =
    if genSrc (s.rt o) o = 3 ∧ srcIdx (s.rt o) o = msgField b 1 1 / 16 % 4 then { s.tgAt o with refLost := false } else s.tgAt o :=
  (tgAt_regainRef _ 3 _ o).trans (by simp only [show ¬ (3 = 2) by decide, false_or]; rfl)

/-! ### What the root sends, and the loss of the link (R69, R241, R242) -/

theorem execRlvTimeSend_root (h : rlvRoot (s.rt 4) = true) :
    execRlvTimeSend s = .next (rlvSend s (rlvBytes 1 0 0 (rlvId (s.rt 4)) 0 s.tb.tick 0 0 0)) :=
  if_pos h

theorem execRlvMarkSend_root {o slot : Nat} {p : Post} (hp : ((s.seqAt o).queue.filter fun p => p.cls == 5)[slot]? = some p)
    (hr : rlvRoot (s.rt 4) = true) (he : nbit (rlvExport (s.rt 4)) o = true) (ha : s.tb.tick + 2000 ≤ p.fire) :
    execRlvMarkSend o slot s =
      .next (rlvSend s (rlvBytes 3 0 o (rlvId (s.rt 4)) 0 s.tb.tick (p.payload % 256) (p.fire - s.tb.tick) p.fine)) := by
  simp [execRlvMarkSend, hp, hr, he, ha]

theorem raise_rt (s : State) (code data o : Nat) : (raise s code data).rt o = s.rt o := by simp [State.rt]

/-- A fold none of whose steps changes the state. -/
theorem foldl_eq_self {α : Type} {g : State → α → State} {l : List α} (h : ∀ a ∈ l, g s a = s) : l.foldl g s = s := by
  induction l with
  | nil => rfl
  | cons a r ih =>
    rw [List.foldl_cons, h a List.mem_cons_self]
    exact ih fun b hb => h b (List.mem_cons_of_mem _ hb)

/-- A link that nothing of the device follows is lost: the mapping goes, and the timebase and the generators stay (R242). -/
theorem execRlvLost_unfollowed (hst : s.rlv.state = 1 ∨ s.rlv.state = 2) (hsel : refSel (s.rt 4) ≠ 3)
    (hgen : ∀ o ∈ outputs, genSrc (s.rt o) o ≠ 3) : execRlvLost s =
      .next (raise { s with rlv := { s.rlv with state := 3, runMaps := [], map := none } } 0x0231 0) := by
  have hup : ¬ (s.rlv.state = 0 ∨ s.rlv.state = 3) := by omega
  have hrt : ∀ o, (raise { s with rlv := { s.rlv with state := 3, runMaps := [], map := none } } 0x0231 0).rt o = s.rt o :=
    raise_rt _ _ _
  simp only [execRlvLost, if_neg hup, hrt, if_neg hsel]
  refine congrArg _ (foldl_eq_self fun o ho => ?_)
  rw [hrt, if_neg (hgen o ho)]

/-- Settles O15: a message by its check word, its root and its type, the forwarded one field by field. -/
theorem relvorMessages : Obligations.RelvorMessages := by
  refine ⟨fun s b t hc => execRlvMessageReceive_badCrc hc, fun s b t hc ho => execRlvMessageReceive_otherRoot hc ho,
    fun s b t hc ho ht hsel => ?time, fun s b t k hc ho ht hk => ?frame, fun s b hroot hc ho hdown => ?forward,
    fun s h => execRlvTimeSend_root h, fun s o slot p hp hr he ha => execRlvMarkSend_root hp hr he ha,
    fun s hst hsel hgen => ⟨_, execRlvLost_unfollowed hst hsel hgen, rfl⟩⟩
  case time =>
    refine (execRlvMessageReceive_time hc ho ht).trans ?_
    rw [rlvTime_unlocked (show refSel ((rlvHeard s b).rt 4) ≠ 3 from hsel), rlvHeard_state]
    rfl
  case frame =>
    subst hk
    refine ⟨_, execRlvMessageReceive_frame hc ho ht, rlvAnnounce_eq _ _ _, ?_, ?_, fun x hx => ?_, tgAt_rlvAnnounce _ _ _⟩
    · rw [rlvAnnounce_rlv]; rfl
    · rw [rlvAnnounce_rlv]; rfl
    · have hmap : (rlvHeard s b).rlv.map = some x := hx
      rw [rlvAnnounce_rlv, hmap]
      rfl
  case forward =>
    have hb := length_of_rlvCrcOk hc
    exact ⟨rlvForwarded (s.rt 4) b, (execRlvForward_other hroot hc ho).trans (congrArg _ (rlvSend_connected hdown _)),
      rlvForwarded_length hb, rlvForwarded_type hb, rlvForwarded_hops hb, rlvForwarded_origin hb, rlvForwarded_delay hb,
      rlvForwarded_rest hb⟩

end Sys2Proof.Machine
end

section
/-! SUPPORT. The events posted ahead of a frame, by what the frame will be (R87, R174, R255, R383). -/
namespace Sys2Proof.Machine

variable {s : State} {o : Nat}

/-- The counter of the next frame of an output. -/
def nextFrame (s : State) (o : Nat) : Nat := if (s.tgAt o).started then (s.tgAt o).counter + 1 else (s.tgAt o).counter

/-- An event placed at the next frame start of an output (R66). -/
def placeHead (s : State) (o k : Nat) (e : ProgEvent) : Post :=
  placeEvent (frontCfg s o) o (posInstant (s.tgAt o) (s.tgAt o).pos).1 (posInstant (s.tgAt o) (s.tgAt o).pos).2 k e

theorem postHeads_eq (s : State) (m : WordMap) (o k : Nat) (steal : Bool) :
    postHeads s m o k steal = postAll s o ((headEvents s m o steal).map (placeHead s o k)) := rfl

section
variable (hrun : (s.tgAt o).running = true) (hexit : (s.outAt o).exit ≠ .stopping) (htm : ∀ since, (s.tgAt o).tm ≠ .ready since)
include hrun hexit htm

/-- Outside a timing change's decision the head events are those of the settings in force, after the steal is decided. -/
theorem execFrameHeadPost_running : execFrameHeadPost o s = .next (postHeads
    (if steals s o && !isScan (s.rt o) o then markStolen s o (nextFrame s o) else s) (s.rt o) o (nextFrame s o)
    (steals s o && !isScan (s.rt o) o)) := by
  have hgo : (!(s.tgAt o).running || (s.outAt o).exit == .stopping) = false := by simp [hrun, hexit]
  unfold execFrameHeadPost
  dsimp only
  split
  case h_1 since h => exact absurd h (htm since)
  case h_2 => exact if_neg (by rw [hgo]; decide)

theorem execFrameHeadPost_kept (h : (steals s o && !isScan (s.rt o) o) = false) :
    execFrameHeadPost o s = .next (postHeads s (s.rt o) o (nextFrame s o) false) := by
  rw [execFrameHeadPost_running hrun hexit htm, h]
  rfl

theorem execFrameHeadPost_stolen (h : (steals s o && !isScan (s.rt o) o) = true) : execFrameHeadPost o s =
    .next (postHeads (markStolen s o (nextFrame s o)) (s.rt o) o (nextFrame s o) true) := by
  rw [execFrameHeadPost_running hrun hexit htm, h]
  rfl

end

/-- A SCAN frame that is shown begins with the slow axis and its envelope (R174). -/
theorem headEvents_scan {m : WordMap} (hm : isScan m o = true) (h : isLit s o = true ∨ (s.outAt o).entry.isSome = true ∨ (s.outAt o).mode = 5)
    (steal : Bool) : headEvents s m o steal = scanHeadEvents m o := by
  rw [headEvents, if_pos hm, if_pos h]

/-- The blocks that a stolen frame clears: all those of the program of the front buffer. -/
def clearAll (s : State) (o : Nat) : ProgEvent :=
  ⟨0, 0, 0, strobePayload (2 ^ progNblocks (frontCfg s o) o (frontBuf s o).prog - 1) 1 0⟩

/-- The six light channels at amplitude zero. -/
def zeroAmplitudes : List ProgEvent := (List.range 6).map fun c => ⟨1, c, (c + 1) / 4, 0⟩

theorem headEvents_stolen {m : WordMap} (hm : isScan m o = false) : headEvents s m o true = clearAll s o :: zeroAmplitudes := by
  simp only [headEvents, hm, Bool.false_eq_true, if_false, if_true]
  rfl

theorem zeroAmplitudes_spec (e : ProgEvent) (h : e ∈ zeroAmplitudes) : e.cls = 1 ∧ e.payload = 0 := by
  obtain ⟨c, -, rfl⟩ := List.mem_map.1 h
  exact ⟨rfl, rfl⟩

/-- A stolen PLANE frame begins with its blocks cleared and no light (R383). -/
theorem postHeads_stolen (s : State) (k : Nat) {m : WordMap} (hm : isScan m o = false) : postHeads s m o k true =
    postAll s o (placeHead s o k (clearAll s o) :: zeroAmplitudes.map (placeHead s o k)) := by
  rw [postHeads_eq, headEvents_stolen hm, List.map_cons]

/-! ### The first start of a new timing (R87, R255) -/

/-- The first start of a new timing leaves its head events at least 4,096 ticks (R87). -/
theorem lead_le_firstStart (s : State) (m : WordMap) (o : Nat) : (s.tb.tick + 4096) * 25 * max 1 (tgDen m o) ≤ firstStart s m o := by
  have hlead : 4096 ≤ headLead m o := by
    unfold headLead
    split
    · exact le_max_left _ _
    · exact le_refl _
  have hsoon : (s.tb.tick + 4096) * 25 * max 1 (tgDen m o) ≤ (s.tb.tick + headLead m o) * 25 * max 1 (tgDen m o) := by gcongr
  unfold firstStart
  dsimp only
  split
  · exact hsoon
  · exact hsoon.trans (Nat.le_add_right _ _)

/-- The generator with the first start of its new timing fixed. -/
def fixFirstStart (s : State) (o since : Nat) : State := s.modTg o fun t => { t with
  tm := .fixed since, den := max 1 (tgDen s.act o), pos := firstStart s s.act o, len := 0 }

theorem execFrameHeadPost_ready {since : Nat} (h : (s.tgAt o).tm = .ready since) :
    execFrameHeadPost o s = .next (postHeads (fixFirstStart s o since) s.act o ((s.tgAt o).counter + 1) false) := by
  simp only [execFrameHeadPost, h]
  rfl

/-- Settles O18: the head events by what the next frame is, and the first start by the lead its head events need. -/
theorem frameHeadEventsArePosted : Obligations.FrameHeadEventsArePosted := by
  refine ⟨fun s o hrun hexit htm hscan hshown => ?scan, fun s o k hrun hexit htm hsteal hplane hk => ?stolen,
    fun s o since hw htm => ⟨lead_le_firstStart s s.act o, ?fixed⟩⟩
  case scan =>
    refine (execFrameHeadPost_kept hrun hexit htm (by simp [hscan])).trans ?_
    rw [postHeads_eq, headEvents_scan hscan hshown]
    rfl
  case stolen =>
    obtain rfl : k = nextFrame s o := hk
    refine ⟨markStolen s o (nextFrame s o), _, _, (execFrameHeadPost_stolen hrun hexit htm (by simp [hsteal, hplane])).trans
      (congrArg _ (postHeads_stolen _ _ hplane)), rfl, rfl, rfl, rfl, fun e he => ?_⟩
    obtain ⟨x, hx, rfl⟩ := List.mem_map.1 he
    obtain ⟨hcls, hpayload⟩ := zeroAmplitudes_spec x hx
    exact ⟨hcls, hpayload, rfl⟩
  case fixed =>
    obtain ⟨-, htg, -⟩ := lt_lengths hw o
    have hg := State.tgAt_same s o (fun t => { t with
      tm := .fixed since, den := max 1 (tgDen s.act o), pos := firstStart s s.act o, len := 0 }) htg
    refine ⟨fixFirstStart s o since, execFrameHeadPost_ready htm, ?_, ?_, ?_, rfl, rfl⟩
    · exact congrArg TgState.tm hg
    · exact congrArg TgState.pos hg
    · exact congrArg TgState.den hg

end Sys2Proof.Machine
end

section
/-! SUPPORT. The steps of Dawn, by what each of them finds (R65, R290, R420, R474 to R477). -/
namespace Sys2Proof.Machine

variable {s : State}

/-! ### The supplies (R65, R420, R477) -/

theorem awaitsSupplies_iff (s : State) : awaitsSupplies s = true ↔
    s.mode.dev = 0 ∧ s.mode.dawnStep = 1 ∧ s.mode.fail = 0 ∧ s.mode.core = false := by
  simp [awaitsSupplies, and_assoc]

/-- The core has been released and its checks run. -/
def coreReleased (s : State) : State := s.modMode fun x => { x with rails := List.replicate 6 true, core := true, dawnStep := 2 }

section
variable (h : awaitsSupplies s = true)
include h

theorem execDawnSuppliesValid_ok : execDawnSuppliesValid true true s = .next { coreReleased s with
    cruc := { s.cruc with drbgSeed := s.cruc.drbgSeed + 1, drbgRequests := 0 }, tb := { s.tb with running := true, tick := 0 }
    mode := { (coreReleased s).mode with dawnStep := 4 } } := by
  simp only [execDawnSuppliesValid, h, Bool.not_true, Bool.false_eq_true, if_false]
  rfl

theorem execDawnSuppliesValid_romFails (rngOk : Bool) : execDawnSuppliesValid false rngOk s = .next (dawnFail (coreReleased s) 1) := by
  simp only [execDawnSuppliesValid, h, Bool.not_true, Bool.not_false, Bool.false_eq_true, if_false, if_true]
  rfl

theorem execDawnSuppliesValid_rngFails : execDawnSuppliesValid true false s =
    .next (dawnFail (raise ((coreReleased s).modCruc fun c => { c with rngFail := true }) 0x1009 0) 2) := by
  simp only [execDawnSuppliesValid, h, Bool.not_true, Bool.not_false, Bool.false_eq_true, if_false, if_true]
  rfl

theorem execDawnSupplyTimeout_waiting : execDawnSupplyTimeout s = .next (supplyFail s) := if_pos h

end

theorem execDawnSuppliesValid_notWaiting (h : awaitsSupplies s = false) (romFuseOk rngOk : Bool) :
    execDawnSuppliesValid romFuseOk rngOk s = .next s := by
  simp [execDawnSuppliesValid, h]

theorem execDawnSupplyTimeout_notWaiting (h : awaitsSupplies s = false) : execDawnSupplyTimeout s = .next s := by
  simp [execDawnSupplyTimeout, h]

/-! ### The flash (R290) -/

/-- The smaller of an erase type and the smallest so far. -/
def leastErase (a : Option Nat) (e : Nat) : Option Nat := match a with | some b => some (min b e) | none => some e

theorem eraseTypeOf_eq (l : List Nat) : eraseTypeOf l = (l.filter (4096 ≤ ·)).foldl leastErase none := rfl

theorem foldl_leastErase (l : List Nat) (b : Nat) :
    ∃ c, l.foldl leastErase (some b) = some c ∧ c ∈ b :: l ∧ ∀ e ∈ b :: l, c ≤ e := by
  induction l generalizing b with
  | nil => exact ⟨b, rfl, List.mem_cons_self, by simp⟩
  | cons x r ih =>
    obtain ⟨c, hc, hmem, hle⟩ := ih (min b x)
    have hmin := hle _ List.mem_cons_self
    refine ⟨c, hc, ?_, fun e he => ?_⟩
    · obtain rfl | hr := List.mem_cons.1 hmem
      · obtain h | h := min_choice b x <;> simp [h]
      · exact List.mem_cons_of_mem _ (List.mem_cons_of_mem _ hr)
    · obtain rfl | he := List.mem_cons.1 he
      · exact hmin.trans (min_le_left _ _)
      · obtain rfl | he := List.mem_cons.1 he
        · exact hmin.trans (min_le_right _ _)
        · exact hle e (List.mem_cons_of_mem _ he)

theorem eraseTypeOf_none {l : List Nat} (h : ∀ e ∈ l, e < 4096) : eraseTypeOf l = none := by
  have hl : l.filter (4096 ≤ ·) = [] := List.filter_eq_nil_iff.2 fun e he => by simpa using h e he
  rw [eraseTypeOf_eq, hl]
  rfl

theorem eraseTypeOf_some {l : List Nat} {c : Nat} (h : eraseTypeOf l = some c) : c ∈ l ∧ 4096 ≤ c ∧ ∀ e ∈ l, 4096 ≤ e → c ≤ e := by
  rw [eraseTypeOf_eq] at h
  have hin : ∀ e, e ∈ l.filter (4096 ≤ ·) ↔ e ∈ l ∧ 4096 ≤ e := fun e => by simp
  cases hl : l.filter (4096 ≤ ·) with
  | nil => simp [hl] at h
  | cons b r =>
    obtain ⟨d, hd, hmem, hle⟩ := foldl_leastErase r b
    obtain rfl : c = d := by simpa [hl, leastErase, hd] using h.symm
    rw [← hl] at hmem hle
    obtain ⟨hcl, hc⟩ := (hin c).1 hmem
    exact ⟨hcl, hc, fun e he h4 => hle e ((hin e).2 ⟨he, h4⟩)⟩

theorem startFlash_none {x : Sfdp} (h : x.density < 2 ^ 26 ∨ 2 ^ 30 < x.density ∨ ∀ e ∈ x.erases, e < 4096) : startFlash (some x) = none := by
  unfold startFlash
  dsimp only
  split
  case isTrue => rfl
  case isFalse hd => rw [eraseTypeOf_none (by tauto)]; rfl

theorem startFlash_some {x : Sfdp} {fm pg un : Nat} (h : startFlash (some x) = some (fm, pg, un)) :
    fm = flashModeOf x.modes ∧ pg = x.page ∧ eraseTypeOf x.erases = some un := by
  unfold startFlash at h
  dsimp only at h
  split at h
  case isTrue => cases h
  case isFalse =>
    obtain ⟨e, he, h⟩ := Option.map_eq_some_iff.1 h
    cases h
    exact ⟨rfl, rfl, he⟩

/-! ### The end of the lanes (R474, R477) -/

/-- The lanes' end is due: the core runs, and its checks have passed. -/
def lanesRun (s : State) : Prop := s.mode.dev = 0 ∧ s.mode.core = true ∧ s.mode.dawnStep = 4 ∧ s.mode.fail = 0

/-- What the lanes leave: the flash as it started, the boards' records and the trained set points. -/
def lanesEnd (s : State) (p : Nat) (l : List (Option (List Byte))) (fm pg un : Nat) : State :=
  trainAll (readBoards (s.modJrn fun j => { j with flashMode := fm, flashPage := pg, eraseUnit := un }) l) p

section
variable {ok : Bool} {x : Sfdp} {p fm pg un : Nat} {l : List (Option (List Byte))}

theorem execDawnLanesDone_notRun (h : ¬ lanesRun s) : execDawnLanesDone ok x p l s = .next s := by
  refine if_pos ?_
  simp only [lanesRun] at h
  simp only [Bool.not_eq_true', ← Bool.not_eq_true]
  tauto

variable (h : lanesRun s)
include h

theorem execDawnLanesDone_flashFails (hf : startFlash (flashRead ok x) = none) :
    execDawnLanesDone ok x p l s = .next (dawnFail (trainAll (readBoards s l) p) 3) := by
  obtain ⟨hdev, hcore, hstep, hfail⟩ := h
  simp [execDawnLanesDone, hdev, hcore, hstep, hfail, hf]

variable (hf : startFlash (flashRead ok x) = some (fm, pg, un))
include hf

theorem execDawnLanesDone_noAnchor (ha : ∀ a ∈ s.fuse.anchors, a = none) :
    execDawnLanesDone ok x p l s = .next (dawnFail (lanesEnd s p l fm pg un) 4) := by
  obtain ⟨hdev, hcore, hstep, hfail⟩ := h
  have hall : s.fuse.anchors.all Option.isNone = true := by simpa using ha
  simp [execDawnLanesDone, hdev, hcore, hstep, hfail, hf, hall, lanesEnd]

variable (ha : ∃ a ∈ s.fuse.anchors, a ≠ none)
include ha

/-- With a flash and an anchor the copies are judged. -/
theorem execDawnLanesDone_judged : execDawnLanesDone ok x p l s = .next (match (selectCopy (lanesEnd s p l fm pg un)).2 with
    | none => dawnFail (selectCopy (lanesEnd s p l fm pg un)).1 5
    | some c => if p = 0 then dawnFail (selectCopy (lanesEnd s p l fm pg un)).1 6
      else dawnCopy (selectCopy (lanesEnd s p l fm pg un)).1 c) := by
  obtain ⟨hdev, hcore, hstep, hfail⟩ := h
  have hall : s.fuse.anchors.all Option.isNone = false := by simpa [Option.ne_none_iff_isSome] using ha
  simp only [execDawnLanesDone, hdev, hcore, hstep, hfail, hf, hall, Option.isNone_some, Bool.not_true, Bool.false_eq_true, ne_eq,
    not_true_eq_false, or_self, if_false, lanesEnd]
  generalize selectCopy _ = r
  obtain ⟨u, _ | c⟩ := r
  · rfl
  · by_cases hp : p = 0 <;> simp only [hp, if_true, if_false]

theorem execDawnLanesDone_noCopy (hc : (selectCopy (lanesEnd s p l fm pg un)).2 = none) :
    execDawnLanesDone ok x p l s = .next (dawnFail (selectCopy (lanesEnd s p l fm pg un)).1 5) := by
  rw [execDawnLanesDone_judged h hf ha, hc]

theorem execDawnLanesDone_untrained {c : Nat} (hc : (selectCopy (lanesEnd s p l fm pg un)).2 = some c) (hp : p = 0) :
    execDawnLanesDone ok x p l s = .next (dawnFail (selectCopy (lanesEnd s p l fm pg un)).1 6) := by
  rw [execDawnLanesDone_judged h hf ha, hc]
  exact congrArg _ (if_pos hp)

theorem execDawnLanesDone_applied {c : Nat} (hc : (selectCopy (lanesEnd s p l fm pg un)).2 = some c) (hp : p ≠ 0) :
    execDawnLanesDone ok x p l s = .next (dawnCopy (selectCopy (lanesEnd s p l fm pg un)).1 c) := by
  rw [execDawnLanesDone_judged h hf ha, hc]
  exact congrArg _ (if_neg hp)

end

/-! ### A failed Dawn (R459, R477) -/

theorem dawnFail_mode (s : State) (c : Nat) : (dawnFail s c).mode = { s.mode with fail := c } := raise_mode _ _

theorem dawnFail_latch (s : State) (c : Nat) : (dawnFail s c).aod.latch = s.aod.latch := (logged_raise _ _).latch

/-- Logging leaves the roles that the paths hold. -/
theorem Logged.roles {s t : State} (h : Logged s t) : t.mgmt.spiRoles = s.mgmt.spiRoles ∧ t.mgmt.bar0Roles = s.mgmt.bar0Roles := by
  rw [h]
  exact ⟨rfl, rfl⟩

theorem dawnFail_roles (s : State) (c : Nat) : (dawnFail s c).mgmt.spiRoles = 0x081 ∧ (dawnFail s c).mgmt.bar0Roles = 0x081 :=
  (logged_raise _ _).roles

/-! ### The sources that remain (R475) -/

/-- Setting a bit sets that bit alone. -/
theorem nbit_withBit_true (m i j : Nat) : nbit (withBit m i true) j = (nbit m j || decide (j = i)) := by
  unfold withBit
  split
  case isTrue h =>
    obtain rfl | hij := eq_or_ne j i
    · simp [h]
    · simp [hij]
  case isFalse h =>
    simp only [nbit_eq_testBit, Bool.not_eq_true, if_true] at h ⊢
    obtain hj | rfl | hj := lt_trichotomy j i
    · rw [Nat.add_comm, Nat.testBit_two_pow_add_gt hj]
      simp [hj.ne]
    · rw [Nat.add_comm, Nat.testBit_two_pow_add_eq]
      simp [h]
    · have hhigh : (m + 2 ^ i) / 2 ^ (i + 1) = m / 2 ^ (i + 1) := by
        rw [Nat.testBit_eq_decide_div_mod_eq, decide_eq_false_iff_not] at h
        rw [pow_succ, ← Nat.div_div_eq_div_mul, ← Nat.div_div_eq_div_mul, Nat.add_div_right _ (Nat.two_pow_pos i)]
        omega
      obtain ⟨k, rfl⟩ := Nat.exists_eq_add_of_lt hj
      have hsplit : i + k + 1 = i + 1 + k := by omega
      rw [hsplit, Nat.add_comm (i + 1) k, ← Nat.testBit_div_two_pow, hhigh, Nat.testBit_div_two_pow]
      simp [show k + (i + 1) ≠ i by omega]

theorem nbit_foldl_withBit (l : List Nat) (m j : Nat) : nbit (l.foldl (fun m k => withBit m k true) m) j = (nbit m j || decide (j ∈ l)) := by
  induction l generalizing m with
  | nil => simp
  | cons i r ih => simp [ih, nbit_withBit_true, Bool.or_assoc, Bool.decide_or]

theorem hasSource_dawnSources (s : State) (k : Nat) :
    hasSource (dawnSources s) k = (decide (k < 12) && (hasSource s k && sourceStands s k)) := by
  have hleft : hasSource (dawnSources s) k = nbit (((List.range 12).filter fun k => hasSource s k && sourceStands s k).foldl
    (fun m k => withBit m k true) 0) k := rfl
  have hzero : nbit 0 k = false := by simp [nbit]
  rw [hleft, nbit_foldl_withBit, hzero]
  simp [Bool.decide_and]

theorem dawnSources_latch (s : State) : (dawnSources s).aod.latch = s.aod.latch := rfl

/-! ### The latch at the end of Dawn (R410, R475) -/

/-- The mode of the device and the Quench latch. -/
def State.devLatch (s : State) : Nat × Bool := (s.mode.dev, s.aod.latch)

theorem Logged.devLatch {s t : State} (h : Logged s t) : t.devLatch = s.devLatch := by
  rw [State.devLatch, h.mode, h.latch, State.devLatch]

theorem devLatch_foldl {α : Type} (g : State → α → State) (hg : ∀ s a, (g s a).devLatch = s.devLatch) (l : List α) (s : State) :
    (l.foldl g s).devLatch = s.devLatch :=
  (List.foldl_hom State.devLatch (g₂ := fun x _ => x) fun s a => (hg s a).symm).symm.trans (List.foldl_fixed _)

@[simp] theorem devLatch_modSeq (s : State) (o : Nat) (f : SeqState → SeqState) : (s.modSeq o f).devLatch = s.devLatch := rfl
@[simp] theorem devLatch_modTg (s : State) (o : Nat) (f : TgState → TgState) : (s.modTg o f).devLatch = s.devLatch := rfl
@[simp] theorem devLatch_modPort (s : State) (o : Nat) (f : PortState → PortState) : (s.modPort o f).devLatch = s.devLatch := rfl
@[simp] theorem devLatch_modScan (s : State) (o : Nat) (f : ScanState → ScanState) : (s.modScan o f).devLatch = s.devLatch := rfl
@[simp] theorem devLatch_modOut (s : State) (o : Nat) (f : OutMode → OutMode) : (s.modOut o f).devLatch = s.devLatch := rfl
@[simp] theorem devLatch_modStr (s : State) (nn : Nat) (f : StringState → StringState) : (s.modStr nn f).devLatch = s.devLatch := rfl
@[simp] theorem devLatch_ite (c : Prop) [Decidable c] (s t : State) : (if c then s else t).devLatch = if c then s.devLatch else t.devLatch :=
  apply_ite _ _ _ _

@[simp] theorem devLatch_queueStrings (s : State) (o : Nat) : (queueStrings s o).devLatch = s.devLatch :=
  devLatch_foldl (enqueue (s.rt o)) (fun _ _ => rfl) _ _

@[simp] theorem devLatch_portSend (s : State) (o op arg : Nat) : (portSend s o op arg).devLatch = s.devLatch := rfl

@[simp] theorem devLatch_endPattern (s : State) (o : Nat) : (endPattern s o).devLatch = s.devLatch := by
  simp [endPattern]

@[simp] theorem devLatch_postSeq (s : State) (o : Nat) (p : Post) : (postSeq s o p).devLatch = s.devLatch := rfl

@[simp] theorem devLatch_acceptShow (s : State) (o : Nat) : (acceptShow s o).devLatch = s.devLatch := by
  simp [acceptShow]

@[simp] theorem devLatch_refuseMode (s : State) (o cause : Nat) (path : PathId) : (refuseMode s o cause path).devLatch = s.devLatch :=
  (logged_raiseP _ _ _).devLatch

@[simp] theorem devLatch_requestShow (s : State) (o : Nat) (auto : Bool) (path : PathId) : (requestShow s o auto path).devLatch = s.devLatch := by
  unfold requestShow
  generalize showFails s o = l
  split
  · exact devLatch_acceptShow s o
  · split
    · rfl
    · exact devLatch_refuseMode _ _ _ _
  · exact devLatch_refuseMode _ _ _ _

/-- What follows a release in STANDBY leaves the mode and the latch. -/
theorem devLatch_afterRelease (h : s.mode.dev ≠ 6) : (afterRelease s).devLatch = s.devLatch := by
  rw [afterRelease, if_neg h]
  exact (devLatch_foldl _ (fun t o => by simp) _ _).trans (devLatch_foldl _ (fun t o => by simp) _ _)

/-- The latch cleared, before the release is logged (R410). -/
def latchCleared (s : State) : State := s.modAod fun a => { a with latch := false, sources := 0, halt := false, cls := 0 }

/-- The release of the latch, logged and journalled (R410). -/
def releaseLogged (s : State) (path : PathId) : State :=
  journalKind (raiseP (latchCleared s) 0x0F15 (s.aod.first * 2 ^ 8) path) 5 path (releaseData s 0 0) 0

theorem logged_releaseLogged (s : State) (path : PathId) : Logged (latchCleared s) (releaseLogged s path) :=
  (logged_raiseP _ _ _).trans (logged_journalKind _ _ _ _)

theorem releaseLatch_eq (s : State) (path : PathId) : releaseLatch s path = afterRelease (releaseLogged s path) := rfl

theorem releaseLatch_devLatch (h : s.mode.dev ≠ 6) (path : PathId) : (releaseLatch s path).devLatch = (s.mode.dev, false) := by
  have hlog := logged_releaseLogged s path
  have hmode : (releaseLogged s path).mode.dev ≠ 6 := by
    rw [hlog.mode]
    exact h
  rw [releaseLatch_eq, devLatch_afterRelease hmode, hlog.devLatch]
  rfl

theorem setDevice_devLatch (s : State) (m : Nat) : (setDevice s m).devLatch = (m, s.aod.latch) := by
  unfold setDevice
  split
  case isTrue h => rw [State.devLatch, h]
  case isFalse => exact (logged_raise _ _).devLatch

theorem setDevice_sources (s : State) (m : Nat) : (setDevice s m).aod.sources = s.aod.sources := by
  unfold setDevice
  split
  case isTrue => rfl
  case isFalse => exact (logged_raise _ _).sources

theorem raiseFloor_devLatch (s : State) (c : Nat) : (raiseFloor s c).devLatch = s.devLatch := by
  unfold raiseFloor
  dsimp only
  split <;> rfl

/-- STANDBY at the end of Dawn, with the security floor of the copy in force (R454, R475). -/
def dawnStandby (s : State) : State :=
  if (setDevice s 1).mgmt.applied then raiseFloor (setDevice s 1) (setDevice s 1).mgmt.inForce else setDevice s 1

theorem dawnStandby_devLatch (s : State) : (dawnStandby s).devLatch = (1, s.aod.latch) := by
  unfold dawnStandby
  split
  · exact (raiseFloor_devLatch _ _).trans (setDevice_devLatch _ _)
  · exact setDevice_devLatch _ _

/-- With no source left the device is in STANDBY and the latch released (R475). -/
theorem dawnLatch_released (h : s.aod.sources = 0) : (dawnLatch s).devLatch = (1, false) := by
  have hlatch : dawnLatch s = releaseLatch (dawnStandby s) .internal := if_neg (not_not_intro h)
  have hdev : (dawnStandby s).mode.dev = 1 := congrArg Prod.fst (dawnStandby_devLatch s)
  rw [hlatch, releaseLatch_devLatch (by rw [hdev]; decide), hdev]

theorem execDawnDone_due (hdev : s.mode.dev = 0) (hfail : s.mode.fail = 0) (hstep : s.mode.dawnStep = 10) (hp : s.ladle.pending = none) :
    execDawnDone s = .next (finishDawn s) :=
  if_pos ⟨hdev, hfail, hstep, by simp [hp]⟩

theorem execDawnDone_notDue (h : s.mode.dev ≠ 0 ∨ s.mode.fail ≠ 0 ∨ s.mode.dawnStep ≠ 10 ∨ s.ladle.pending ≠ none) :
    execDawnDone s = .next s := by
  refine if_neg fun ⟨hdev, hfail, hstep, hp⟩ => ?_
  rw [Option.isNone_iff_eq_none] at hp
  tauto

/-- Settles O59: each step of Dawn by what it finds, and the latch by the sources that still stand. -/
theorem dawnRunsAndEnds : Obligations.DawnRunsAndEnds := by
  refine ⟨⟨fun s hdev hstep hfail hcore => ?supplies, fun s ok x p l hdev hcore hstep hfail => ⟨?flash, fun fm pg un hf => ?lanes⟩,
      fun s ok x p l h => execDawnLanesDone_notRun ?notRun, ⟨rfl, fun x => startFlash_none⟩, fun x fm pg un h => ?started,
      fun s h => ?notWaiting, fun s c => ⟨dawnFail_mode s c, dawnFail_latch s c, dawnFail_roles s c⟩⟩,
    fun s => execDawnDone_due, fun s => execDawnDone_notDue, fun s k hk => ?source,
    fun s => ⟨?floor, dawnSources_latch s⟩, fun s hdev h => ?quench, fun s hdev h => ?standby⟩
  case supplies =>
    have h := (awaitsSupplies_iff s).2 ⟨hdev, hstep, hfail, hcore⟩
    exact ⟨coreReleased s, rfl, execDawnSuppliesValid_ok h, execDawnSuppliesValid_romFails h, execDawnSuppliesValid_rngFails h,
      execDawnSupplyTimeout_waiting h⟩
  case flash => exact execDawnLanesDone_flashFails ⟨hdev, hcore, hstep, hfail⟩
  case lanes =>
    have h : lanesRun s := ⟨hdev, hcore, hstep, hfail⟩
    exact ⟨lanesEnd s p l fm pg un, rfl, execDawnLanesDone_noAnchor h hf, fun ha => ⟨execDawnLanesDone_noCopy h hf ha,
      fun c => execDawnLanesDone_untrained h hf ha, fun c => execDawnLanesDone_applied h hf ha⟩⟩
  case notRun =>
    rintro ⟨hdev, hcore, hstep, hfail⟩
    simp [hdev, hcore, hstep, hfail] at h
  case started =>
    obtain ⟨hmode, hpage, herase⟩ := startFlash_some h
    exact ⟨hmode, hpage, eraseTypeOf_some herase⟩
  case notWaiting =>
    have hno : awaitsSupplies s = false := by
      rw [← Bool.not_eq_true, awaitsSupplies_iff]
      rintro ⟨hdev, hstep, hfail, hcore⟩
      simp [hdev, hstep, hfail, hcore] at h
    exact ⟨execDawnSupplyTimeout_notWaiting hno, execDawnSuppliesValid_notWaiting hno⟩
  case source => simp [hasSource_dawnSources, hk]
  case floor => simp [hasSource_dawnSources, sourceStands]
  case quench =>
    rw [dawnLatch, if_pos h]
    obtain ⟨hmode, hlatch⟩ := Prod.mk.inj (setDevice_devLatch s 6)
    exact ⟨hmode, hlatch, setDevice_sources s 6⟩
  case standby => exact Prod.mk.inj (dawnLatch_released h)

end Sys2Proof.Machine
end

section
/-! SUPPORT. The packets of a stream, the PTP client, ARP and ICMP, and the AUX channel of the DisplayPort sinks (R274 to R281). -/
namespace Sys2Proof.Machine

variable {s : State} {i net : Nat}

/-! ### Packets (R279) -/

/-- A port has delivered a packet. -/
def pathHeard (net now : Nat) (x : InputState) : InputState :=
  { x with pathDown := listSet x.pathDown net false, pathAt := listSet x.pathAt net now }

/-- A packet enters the frame in progress unless its copy is there. -/
def takePacket (seq now : Nat) (words : List Nat) (x : InputState) : InputState :=
  if x.packets.any fun p => p.1 == packetPlace x (seq % 2 ^ 32) then x
  else { x with packets := Sparse.put x.packets (packetPlace x (seq % 2 ^ 32)) words, arrived := (packetPlace x (seq % 2 ^ 32), now) :: x.arrived }

theorem takePacket_copy {seq now : Nat} {words : List Nat} {x : InputState} (h : ∃ p ∈ x.packets, p.1 = packetPlace x (seq % 2 ^ 32)) :
    (takePacket seq now words x).packets = x.packets := by
  rw [takePacket, if_pos (by simpa using h)]

theorem takePacket_new {seq now : Nat} {words : List Nat} {x : InputState} (h : ∀ p ∈ x.packets, p.1 ≠ packetPlace x (seq % 2 ^ 32)) :
    (takePacket seq now words x).packets = Sparse.put x.packets (packetPlace x (seq % 2 ^ 32)) words := by
  rw [takePacket, if_neg]
  simpa only [List.any_eq_true, beq_iff_eq, not_exists, not_and] using h

theorem takePacket_paths (seq now : Nat) (words : List Nat) (x : InputState) :
    (takePacket seq now words x).pathDown = x.pathDown ∧ (takePacket seq now words x).pathAt = x.pathAt := by
  unfold takePacket
  split <;> exact ⟨rfl, rfl⟩

theorem modIn_modIn (s : State) (i : Nat) (f g : InputState → InputState) : (s.modIn i f).modIn i g = s.modIn i (g ∘ f) :=
  congrArg (fun l => { s with input := l }) (upd_upd s.input i f g)

/-- An Ethernet input with its stream on a port. -/
def streamOn (s : State) (i net : Nat) : Prop := 6 ≤ i ∧ captures s i = true ∧ nbit (streamPaths s.act i) net = true

section
variable (h : streamOn s i net)
include h

theorem execEthPacketReceive_idle (hr : (s.inAt i).run = none) (seq : Nat) (words : List Nat) :
    execEthPacketReceive i net seq words s = .next (s.modIn i (pathHeard net s.tb.tick)) := by
  obtain ⟨hi, hc, hp⟩ := h
  simp only [execEthPacketReceive, Nat.not_lt.2 hi, hc, hp, hr, Option.isNone_none, Bool.not_true, Bool.false_eq_true, or_self, if_false, if_true]
  rfl

theorem execEthPacketReceive_running (hr : (s.inAt i).run.isSome = true) (seq : Nat) (words : List Nat) :
    execEthPacketReceive i net seq words s = .next (s.modIn i (takePacket seq s.tb.tick words ∘ pathHeard net s.tb.tick)) := by
  obtain ⟨hi, hc, hp⟩ := h
  have hn : (s.inAt i).run.isNone = false := by simpa using hr
  simp only [execEthPacketReceive, Nat.not_lt.2 hi, hc, hp, hn, Bool.not_true, Bool.false_eq_true, or_self, if_false]
  exact congrArg _ (modIn_modIn s i _ _)

theorem execCapPathLost_first (hd : nth (s.inAt i).pathDown net false = false) (hq : pathQuiet s i net = true) :
    execCapPathLost i net s = .next (raise (s.modIn i fun x => { x with pathDown := listSet x.pathDown net true }) 0x0307 i) := by
  obtain ⟨hi, hc, hp⟩ := h
  simp [execCapPathLost, Nat.not_lt.2 hi, hc, hp, hd, hq, inData]

end

theorem execCapPathLost_kept (h : nth (s.inAt i).pathDown net false = true ∨ pathQuiet s i net = false) : execCapPathLost i net s = .next s :=
  if_pos (by simp only [Bool.not_eq_true']; tauto)

theorem pathQuiet_iff (s : State) (i net : Nat) : pathQuiet s i net = true ↔
    800000000 * s.act.half (aStream (i - 6) + 36) ≤ (s.tb.tick - nth (s.inAt i).pathAt net 0) * s.act.nat (aStream (i - 6) + 32) :=
  decide_eq_true_iff

/-! ### PTP (R67, R235, R280) -/

section
variable {ofs : Int} {d : Nat}

/-- How many Syncs in a row have come within 40 ns, with one of the offset `ofs`. -/
def ptpRun (s : State) (ofs : Int) : Nat := if (ofs - s.ptp.offset).natAbs ≤ 40 then s.ptp.consistent + 1 else 0

/-- A Sync as the servo and the client take it. -/
def ptpSync (s : State) (ofs : Int) : PtpState := { s.ptp with
  offset := Config.ptpServo s.ptp.offset ofs, lastSync := s.tb.tick, consistent := min 16 (ptpRun s ofs), st := if s.ptp.valid then 3 else 2 }

theorem execPtpMessage_other (h : (s.rt 4).bit 0x30010 31 = false ∨ (s.rt 4).fld 0x30010 7 0 ≠ d) : execPtpMessage ofs d s = .next s :=
  if_pos (by simpa using h)

variable (hon : (s.rt 4).bit 0x30010 31 = true) (hd : (s.rt 4).fld 0x30010 7 0 = d)
include hon hd

theorem execPtpMessage_sync : execPtpMessage ofs d s = if 16 ≤ ptpRun s ofs ∧ ¬ s.ptp.valid = true then
    .next (regainRef (raise { holdSecure s with ptp := { ptpSync s ofs with st := 3, valid := true } } 0x0309 (ptpPort (s.rt 4))) 2 0)
    else .next { holdSecure s with ptp := ptpSync s ofs } := by
  refine (if_neg ?_).trans rfl
  simp [hon, hd]

/-- The 16th Sync in a row makes PTP time valid (R280). -/
theorem execPtpMessage_locks (hv : s.ptp.valid = false) (hn : 16 ≤ ptpRun s ofs) : execPtpMessage ofs d s =
    .next (regainRef (raise { holdSecure s with ptp := { ptpSync s ofs with st := 3, valid := true } } 0x0309 (ptpPort (s.rt 4))) 2 0) := by
  rw [execPtpMessage_sync hon hd, if_pos ⟨hn, by simp [hv]⟩]

theorem execPtpMessage_taken (h : s.ptp.valid = true ∨ ptpRun s ofs < 16) :
    execPtpMessage ofs d s = .next { holdSecure s with ptp := ptpSync s ofs } := by
  rw [execPtpMessage_sync hon hd, if_neg]
  rintro ⟨hn, hv⟩
  exact h.elim hv (Nat.not_lt.2 hn)

end

/-- The client once its Syncs have stopped. -/
def ptpSilent (s : State) : State := { holdSecure s with ptp := { s.ptp with st := 1, valid := false, consistent := 0 } }

theorem execPtpLost_kept (h : s.ptp.st ≤ 1 ∨ s.ptp.st = 4 ∨ s.tb.tick < s.ptp.lastSync + 1200000000) : execPtpLost s = .next s := if_pos h

theorem execPtpLost_silent (h1 : 1 < s.ptp.st) (h4 : s.ptp.st ≠ 4) (ht : s.ptp.lastSync + 1200000000 ≤ s.tb.tick) :
    execPtpLost s = .next (outputs.foldl (fun t o => if genSrc (t.rt o) o = 2 then loseGenRef t o else t)
      (if s.ptp.valid then raise (ptpSilent s) 0x030A (ptpPort ((holdSecure s).rt 4)) else ptpSilent s)) :=
  if_neg (by omega)

/-! ### ARP, ICMP and AUX (R274 to R276, R281) -/

section
variable {l r : List Byte}

theorem execEthArpIcmp_answered (hp : phyRate s.act net ≠ 0)
    (hr : (arpReply (portMac s.act net) (portIp s.act net) l).or (echoReply (portIp s.act net) l) = some r) :
    execEthArpIcmp net l s = .next { s with net := { s.net with sent := ((net, r) :: s.net.sent).take 16 } } := by
  simp [execEthArpIcmp, hp, hr, netSend]

theorem execEthArpIcmp_discarded (h : phyRate s.act net = 0 ∨
    (arpReply (portMac s.act net) (portIp s.act net) l = none ∧ echoReply (portIp s.act net) l = none)) :
    execEthArpIcmp net l s = .next s := by
  obtain hp | ⟨harp, hecho⟩ := h
  · exact if_pos hp
  · simp [execEthArpIcmp, harp, hecho]

end

/-- One byte of an AUX write: it takes the place of what was written at its address, if a source may write there (R276). -/
def dpcdPut (k a : Nat) (bytes : List Byte) (d : List (Nat × Byte)) (e : Nat) : List (Nat × Byte) :=
  if dpcdWritable (a + e) then (2 ^ 20 * k + a + e, bytes.getD e 0) :: d.filter fun x => x.1 != 2 ^ 20 * k + a + e else d

theorem mem_dpcdPut {k a e : Nat} {bytes : List Byte} {d : List (Nat × Byte)} {p : Nat × Byte}
    (h : dpcdWritable (a + e) = true → p.1 ≠ 2 ^ 20 * k + a + e) : p ∈ dpcdPut k a bytes d e ↔ p ∈ d := by
  unfold dpcdPut
  split
  case isTrue hw =>
    have hne := h hw
    have hnew : p ≠ (2 ^ 20 * k + a + e, bytes.getD e 0) := fun hp => hne (congrArg Prod.fst hp)
    rw [List.mem_cons, List.mem_filter, bne_iff_ne]
    tauto
  case isFalse => rfl

/-- An AUX write leaves every byte of the DPCD whose address it does not write. -/
theorem mem_foldl_dpcdPut {k a : Nat} {bytes : List Byte} {l : List Nat} {d : List (Nat × Byte)} {p : Nat × Byte}
    (h : ∀ e ∈ l, dpcdWritable (a + e) = true → p.1 ≠ 2 ^ 20 * k + a + e) : p ∈ l.foldl (dpcdPut k a bytes) d ↔ p ∈ d := by
  induction l generalizing d with
  | nil => rfl
  | cons e r ih =>
    exact (ih fun x hx => h x (List.mem_cons_of_mem _ hx)).trans (mem_dpcdPut (h e List.mem_cons_self))

section
variable (hc : captures s (4 + i) = true) (a n : Nat) (l : List Byte)
include hc

theorem execDpAuxRequest_edid : execDpAuxRequest i false true a l n s = .next (answer s 0 [] ((List.range (min 16 n)).map fun k =>
    servedEdid s.act (4 + i) (s.inAt (4 + i)).edidDefault (a + k))) := by
  simp [execDpAuxRequest, hc]

theorem execDpAuxRequest_read : execDpAuxRequest i false false a l n s =
    .next (answer s 0 [] ((List.range (min 16 n)).map fun k => dpcdByte s (4 + i) (a + k))) := by
  simp [execDpAuxRequest, hc]

theorem execDpAuxRequest_write : execDpAuxRequest i true false a l n s = .next { s with net := { s.net with
    dpcd := (List.range (min 16 l.length)).foldl (dpcdPut (4 + i) a l) s.net.dpcd } } := by
  simp only [execDpAuxRequest, hc, Bool.not_true, Bool.false_eq_true, if_false, if_true]
  rfl

end

/-- Settles O50: a packet by whether its copy is there, a Sync by its run, a frame by its reply, an AUX write byte by byte. -/
theorem networkAndSinkPorts : Obligations.NetworkAndSinkPorts := by
  refine ⟨⟨fun s i net seq words hi hc hp => ?packet, fun s i net hi hc hp => ⟨execCapPathLost_first ⟨hi, hc, hp⟩, execCapPathLost_kept⟩,
      pathQuiet_iff⟩,
    ⟨fun s ofs d => execPtpMessage_other, fun s ofs d hon hd hv hin => ⟨fun hn => ?locks, fun hn => ?counts⟩,
      fun s ofs d hon hd hv hout => ?restarts, fun s ofs d hon hd hv => ?follows, fun s => execPtpLost_kept,
      fun s h1 h4 ht => ⟨_, rfl, execPtpLost_silent h1 h4 ht⟩⟩,
    fun s net l r => execEthArpIcmp_answered, fun s net l => execEthArpIcmp_discarded,
    fun s i a n l hc => ⟨execDpAuxRequest_edid hc a n l, execDpAuxRequest_read hc a n l⟩, fun s i a n l hc => ?write,
    fun s i hp ht => if_pos ⟨hp, ht⟩, fun s i h => if_neg ?pulse⟩
  case packet =>
    have h : streamOn s i net := ⟨hi, hc, hp⟩
    cases hr : (s.inAt i).run with
    | none => exact ⟨pathHeard net s.tb.tick, fun x => ⟨rfl, rfl⟩, execEthPacketReceive_idle h hr seq words, fun _ x => rfl, by simp⟩
    | some r =>
      refine ⟨takePacket seq s.tb.tick words ∘ pathHeard net s.tb.tick, fun x => takePacket_paths _ _ _ _,
        execEthPacketReceive_running h (by simp [hr]) seq words, by simp, fun _ x =>
          ⟨takePacket_copy (x := pathHeard net s.tb.tick x), takePacket_new (x := pathHeard net s.tb.tick x)⟩⟩
  case locks =>
    have hrun : ptpRun s ofs = s.ptp.consistent + 1 := if_pos hin
    rw [show exec (.ptpMessage ofs d) s = _ from execPtpMessage_locks hon hd hv (by omega)]
    simp only [ptpSync, hrun, min_eq_left (show 16 ≤ s.ptp.consistent + 1 by omega)]
  case counts =>
    have hrun : ptpRun s ofs = s.ptp.consistent + 1 := if_pos hin
    rw [show exec (.ptpMessage ofs d) s = _ from execPtpMessage_taken hon hd (.inr (by omega))]
    simp [ptpSync, hrun, hv, min_eq_right (show s.ptp.consistent + 1 ≤ 16 by omega)]
  case restarts =>
    have hrun : ptpRun s ofs = 0 := if_neg (by omega)
    rw [show exec (.ptpMessage ofs d) s = _ from execPtpMessage_taken hon hd (.inr (by omega))]
    simp [ptpSync, hrun, hv]
  case follows =>
    rw [show exec (.ptpMessage ofs d) s = _ from execPtpMessage_taken hon hd (.inl hv)]
    by_cases hin : (ofs - s.ptp.offset).natAbs ≤ 40 <;> simp [ptpSync, ptpRun, hin, hv]
  case write =>
    exact ⟨_, execDpAuxRequest_write hc a n l, fun p h => mem_foldl_dpcdPut fun e he => h e (List.mem_range.1 he)⟩
  case pulse =>
    rintro ⟨hp, ht⟩
    exact h.elim (by simp [hp]) (Nat.not_lt.2 ht)

end Sys2Proof.Machine
end

section
/-! SUPPORT. The converter link of a SCAN output from its bring-up to its loss, the elastic buffer and what a sample sends, and the loop
of a line (R110, R161 to R176). -/
namespace Sys2Proof.Machine

variable {s : State} {o : Nat}

/-! ### The link (R170, R171) -/

theorem execSyncNHigh_jesdB (h : isScan (s.rt o) o = true) (hb : isJesdB (s.rt o) o = true) (hj : (s.scanAt o).jesd ≠ 2) :
    execSyncNHigh o s = .next (s.modScan o fun x => { x with jesd := 1, sends := .ilas }) :=
  if_pos (by simp [h, hb, hj])

theorem execJesdUp_ready (h : isScan (s.rt o) o = true) (hj : (s.scanAt o).jesd ≠ 2)
    (hr : isJesdB (s.rt o) o = false ∨ (s.scanAt o).sends = .ilas) : execJesdUp o s =
      .next (linkReturned (raise ((s.modScan o fun y => { y with
        jesd := 2, sends := .data, samples := 0, lmfc := s.tb.tick * 25, ahead := [], reqs := [] }).modPort o
          fun p => { p with resumeWait := true }) 0x0B12 o) o) := by
  have hready : (isJesdB (s.rt o) o && (s.scanAt o).sends != .ilas) = false := by
    obtain hb | hi := hr
    · simp [hb]
    · simp [hi]
  exact if_neg (by simp [h, hj, hready])

theorem execJesdUp_unaligned (hb : isJesdB (s.rt o) o = true) (hi : (s.scanAt o).sends ≠ .ilas) : execJesdUp o s = .next s :=
  if_pos (by simp [hb, hi])

theorem execJesdDown_up (h : (s.scanAt o).jesd = 2) :
    execJesdDown o s = .next (raise (loseLink (s.modScan o (startJesd (s.rt o) o)) o) 0x0B13 o) :=
  if_pos h

theorem execJesdSyncError_scan (h : isScan (s.rt o) o = true) :
    execJesdSyncError o s = .next (s.modScan o fun x => { x with syncErrs := satAdd 0xFFFF x.syncErrs 1 }) :=
  if_pos h

/-! ### The elastic buffer (R167) -/

/-- An update of one output's scan state changes it so, or not at all where the output is not there. -/
theorem scanAt_modScan (s : State) (o : Nat) (f : ScanState → ScanState) :
    (s.modScan o f).scanAt o = f (s.scanAt o) ∨ (s.modScan o f).scanAt o = s.scanAt o := by
  by_cases ho : o < s.scan.length
  · exact .inl (State.scanAt_same s o f ho)
  · refine .inr ?_
    rw [State.modScan, upd, List.modify_eq_self (by omega)]

theorem fetchRows_ahead (m : WordMap) (y : Nat) : ((fetchRows s m o y).scanAt o).ahead = (s.scanAt o).ahead := by
  unfold fetchRows
  obtain h | h := scanAt_modScan s o _ <;> rw [h]

theorem computeSample_ahead_length : ((computeSample s o).scanAt o).ahead.length ≤ (s.scanAt o).ahead.length + 1 := by
  unfold computeSample
  dsimp only
  split
  all_goals
    obtain h | h := scanAt_modScan _ o _ <;> rw [h]
    all_goals simp [fetchRows_ahead]

@[simp] theorem kept_computeSample (s : State) (o : Nat) : (computeSample s o).kept = s.kept := by
  unfold computeSample fetchRows
  dsimp only
  split <;> simp

/-- One sample enters the buffer only while it has room. -/
theorem fillAhead_ahead_length (n : Nat) (s : State) :
    ((fillAhead o n s).scanAt o).ahead.length ≤ max (s.scanAt o).ahead.length (elasticSamples (s.rt o) o) := by
  induction n generalizing s with
  | zero => exact le_max_left _ _
  | succ n ih =>
    rw [fillAhead]
    split
    · next hroom =>
      have hfill := ih (computeSample s o)
      have hone := computeSample_ahead_length (s := s) (o := o)
      rw [rt_of_kept (kept_computeSample s o)] at hfill
      omega
    · exact ih s

/-! ### The samples sent (R161, R163, R173) -/

section
variable (hj : (s.scanAt o).jesd = 2) (hr : sampleRate (s.rt o) o ≠ 0)
include hj hr

theorem execScanSample_sends {n : Nat} {w : ScanWord} {rest : List ScanWord} (ha : ((fillAhead o n s).scanAt o).ahead = w :: rest) :
    execScanSample o n s = .next (sendSample ((fillAhead o n s).modScan o fun y => { y with ahead := rest }) o w) := by
  simp [execScanSample, hj, hr, ha]

theorem execScanSample_underrun {n : Nat} (ha : ((fillAhead o n s).scanAt o).ahead = []) : execScanSample o n s =
    .next (holdDark (raise ((fillAhead o n s).modScan o fun y => { sysrefStep (s.rt o) o y with
      samples := y.samples + 1, codes := blankCodes (s.rt o) o, underruns := satAdd 0xFFFF y.underruns 1 }) 0x0B14 o) o s.tb.tick s.tb.tick) := by
  simp [execScanSample, hj, hr, ha]

end

theorem execScanSample_down (hj : (s.scanAt o).jesd ≠ 2) (n : Nat) : execScanSample o n s = .next s :=
  if_pos (.inl hj)

/-- The codes that a sample puts on the link, one for each place of the converter map. -/
def sentCodes (s : State) (o : Nat) (w : ScanWord) : List Nat := (List.range 16).map fun j =>
  if converters (scanMap s o w.t) o ≤ j then 0 else convCode s (scanMap s o w.t) o w j

/-- What sending a sample does to the scan state of its output. -/
def sampleSent (s : State) (o : Nat) (w : ScanWord) (y : ScanState) : ScanState := { sysrefStep (scanMap s o w.t) o y with
  samples := y.samples + 1, codes := sentCodes s o w
  reqs := (w.t, (List.range 6).map (sentAsk s (scanMap s o w.t) o w)) ::
    y.reqs.takeWhile fun r => decide (((25 * s.tb.tick : Nat) : Rat) ≤ r.1 + 7500) }

theorem sendSample_eq (s : State) (o : Nat) (w : ScanWord) : sendSample s o w = s.modScan o (sampleSent s o w) := rfl

theorem sentCodes_length (w : ScanWord) : (sentCodes s o w).length = 16 := by simp [sentCodes]

theorem nth_sentCodes (w : ScanWord) {j : Nat} (h : j < 16) : nth (sentCodes s o w) j 0 =
    if converters (scanMap s o w.t) o ≤ j then 0 else convCode s (scanMap s o w.t) o w j := by
  simp [sentCodes, nth, h]

section
variable {m : WordMap} {w : ScanWord} {j : Nat} (h : convRole m o j = 1) (hmode : (s.outAt o).mode ≠ 5)
include h hmode

theorem convCode_forced {v : Nat} (hf : forceAt s o j w.t = some v) :
    convCode s m o w j = wrapInt 16 (forcedCode m o (convChan m o j) v) := by
  simp only [convCode, h, if_neg hmode, hf]

theorem convCode_unforced (hf : forceAt s o j w.t = none) : convCode s m o w j = wrapInt 16 (nth w.codes j 0) := by
  simp only [convCode, h, if_neg hmode, hf]

end

/-! ### The loop of a line (R110, R176) -/

/-- A line that gave no sample, or too little light, moves no loop. -/
theorem lineLoop_unlit {c : Nat} (h : nth (s.scanAt o).nSamp c 0 = 0 ∨ nth (s.scanAt o).sumE c 0 < 256 * nth (s.scanAt o).nSamp c 0) :
    lineLoop s o c = s :=
  if_pos (h.imp id .inl)

theorem lineLoop_held {c : Nat} (h : lineHeld s o c = true) : lineLoop s o c = s :=
  if_pos (.inr (.inr (.inr h)))

/-- Settles O44: the link by its phases, the buffer sample by sample, a sent code by whether its converter is forced, and a line by what
holds its loop. -/
theorem scanLinks : Obligations.ScanLinks := by
  refine ⟨⟨fun s o => execSyncNHigh_jesdB, fun s o => execJesdUp_ready, fun s o => execJesdUp_unaligned, fun s o => execJesdDown_up,
      fun m o x => ⟨rfl, rfl, rfl, rfl⟩, fun s o => execJesdSyncError_scan⟩,
    ⟨?sample, fun s o n => fillAhead_ahead_length n s, fun s o w => ?codes, fun s o n hj => execScanSample_down hj n⟩,
    fun s o => rfl, fun s o c h => ?line⟩
  case sample =>
    rintro s _ o n hj hr rfl
    exact ⟨fun w rest => execScanSample_sends hj hr, execScanSample_underrun hj hr⟩
  case codes =>
    refine ⟨sampleSent s o w, sendSample_eq s o w, fun y => ⟨rfl, sentCodes_length w, fun j hj =>
      ⟨fun hc => ?_, fun hc hrole hmode => ?_⟩⟩⟩
    · exact (nth_sentCodes w hj).trans (if_pos hc)
    · have hsent := (nth_sentCodes (s := s) (o := o) w hj).trans (if_neg (Nat.not_le.2 hc))
      exact ⟨fun v hf => hsent.trans (convCode_forced hrole hmode hf), fun hf => hsent.trans (convCode_unforced hrole hmode hf)⟩
  case line =>
    obtain hn | he | ha | ht | hr := h
    · exact lineLoop_unlit (.inl hn)
    · exact lineLoop_unlit (.inr he)
    · exact lineLoop_held (by simp [lineHeld, ha])
    · exact lineLoop_held (by simp [lineHeld, ht])
    · exact lineLoop_held (by simp [lineHeld, hr])

end Sys2Proof.Machine
end

section
/-! SUPPORT. Photodiode samples, their faults and the clearing of them (R108 to R113). -/
namespace Sys2Proof.Machine

variable {s : State} {k : Nat}

/-! ### Samples (R108, R112) -/

/-- The output whose channels a photodiode sees. -/
def pdOut (s : State) (k : Nat) : Nat := (s.rt 4).fld (aPdMap k) 25 24

/-- What a sample does to its photodiode: the mean of the last 10, the watch of R113, and the dark level. -/
def pdSampled (s : State) (k code : Nat) (x : PdState) : PdState :=
  let y := { pdWatch s (pdOut s k) k code x with
    recent := (code :: x.recent).take 10, last := ((code :: x.recent).take 10).sum / ((code :: x.recent).take 10).length }
  match nth s.drive.darkSince (pdOut s k) none with
  | none => y
  | some t =>
    if s.tb.tick ≤ t + 400 then y
    else { y with
      darkSum := x.darkSum + code, darkN := x.darkN + 1
      dark := if t + 800 ≤ s.tb.tick then roundDiv (x.darkSum + code) (x.darkN + 1) else x.dark }

theorem pdTake_eq (s : State) (k code : Nat) : pdTake s k code = s.modPd k (pdSampled s k code) := rfl

/-- A dark interval moves the dark level alone: the mean of the last 10 takes the sample, and no fault comes or goes. -/
theorem pdSampled_mean (code : Nat) (x : PdState) :
    (pdSampled s k code x).recent = (code :: x.recent).take 10 ∧
      (pdSampled s k code x).last = ((code :: x.recent).take 10).sum / ((code :: x.recent).take 10).length ∧
      (pdSampled s k code x).faulted = x.faulted := by
  unfold pdSampled
  dsimp only
  split
  · exact ⟨rfl, rfl, rfl⟩
  · split <;> exact ⟨rfl, rfl, rfl⟩

theorem execPdSample_scan (h : isScan (s.rt (pdOut s k)) (pdOut s k) = true) (code : Nat) :
    execPdSample k code s = .next (lineSample (s.modPd k (pdSampled s k code)) (pdOut s k) k code) :=
  if_pos h

@[simp] theorem kept_recommand (s : State) (o c nn : Nat) : (recommand s o c nn).kept = s.kept := by
  unfold recommand commandString
  dsimp only
  split
  · rfl
  · exact kept_str _ _ _

@[simp] theorem kept_recommandChan (s : State) (o c : Nat) : (recommandChan s o c).kept = s.kept := by simp [recommandChan]

@[simp] theorem kept_loopSample (s : State) (o c : Nat) : (loopSample s o c).kept = s.kept := by
  unfold loopSample
  split
  · rfl
  · simp

/-- Two steps that agree on every state with a property they keep do the same over a list. -/
theorem foldl_congr_of_inv {σ α : Type} {P : σ → Prop} {g h : σ → α → σ} (hP : ∀ t a, P t → P (g t a))
    (hgh : ∀ t a, P t → g t a = h t a) (l : List α) {t : σ} (ht : P t) : l.foldl g t = l.foldl h t := by
  induction l generalizing t with
  | nil => rfl
  | cons a l ih => rw [List.foldl_cons, List.foldl_cons, ih (hP t a ht), hgh t a ht]

/-- The step of the loops that a photodiode closes, on an output `o`. -/
def pdLoop (o k : Nat) (s : State) (c : Nat) : State :=
  if (chanPds (s.rt o) s.drive o c).getLast? = some k then loopSample s o c else s

theorem kept_pdLoop (o c : Nat) : (pdLoop o k s c).kept = s.kept := by
  unfold pdLoop
  split
  · exact kept_loopSample s o c
  · rfl

/-- The loops move no settings, so the output of the photodiode is the same for each of them. -/
theorem execPdSample_plane (h : isScan (s.rt (pdOut s k)) (pdOut s k) = false) (code : Nat) : execPdSample k code s =
    .next ((List.range 6).foldl (fun t c => pdLoop (pdOut t k) k t c) (s.modPd k (pdSampled s k code))) := by
  have hplane : execPdSample k code s = .next ((List.range 6).foldl (pdLoop (pdOut s k) k) (s.modPd k (pdSampled s k code))) :=
    if_neg (by rw [Bool.not_eq_true]; exact h)
  rw [hplane]
  refine congrArg _ (foldl_congr_of_inv (P := fun t => t.kept = s.kept) (fun t c ht => (kept_pdLoop _ c).trans ht) (fun t c ht => ?_) _ ?_)
  · rw [pdOut, pdOut, rt_of_kept ht]
  · rfl

theorem loopSample_held {o c : Nat} (h : loopHeld s o c = true) : loopSample s o c = s := by
  unfold loopSample
  split
  · rfl
  · exact if_pos h

/-! ### Faults (R113) -/

/-- Whether a photodiode has read as R113 names for 10 µs. -/
def pdStood (s : State) (t : Option Nat) : Bool := match t with | some t => decide (t + 4000 ≤ s.tb.tick) | none => false

theorem pdStood_iff {t : Option Nat} : pdStood s t = true ↔ ∃ a, t = some a ∧ a + 4000 ≤ s.tb.tick := by
  cases t <;> simp [pdStood]

theorem pdStood_eq_false {t : Option Nat} (h : ∀ a, t = some a → s.tb.tick < a + 4000) : pdStood s t = false := by
  rw [← Bool.not_eq_true, pdStood_iff]
  rintro ⟨a, ha, hs⟩
  exact absurd (h a ha) (Nat.not_lt.2 hs)

theorem execPdFault_eq (r : PdReading) : execPdFault k r s =
    if (nth s.drive.pds k {}).faulted || !(s.rt 4).bit (aPdMap k) 31 ||
        !(pdStood s (nth s.drive.pds k {}).satSince || (pdStood s (nth s.drive.pds k {}).dimSince && currentsFlow s (pdOut s k) k r.senses))
    then .next s
    else .next (raise (s.modPd k fun x => { x with faulted := true }) 0x0C0F (driveData k r.code)) := rfl

theorem execPdFault_stood {r : PdReading} (hf : (nth s.drive.pds k {}).faulted = false) (hm : (s.rt 4).bit (aPdMap k) 31 = true)
    (h : pdStood s (nth s.drive.pds k {}).satSince = true ∨
      (pdStood s (nth s.drive.pds k {}).dimSince = true ∧ currentsFlow s (pdOut s k) k r.senses = true)) :
    execPdFault k r s = .next (raise (s.modPd k fun x => { x with faulted := true }) 0x0C0F (driveData k r.code)) := by
  rw [execPdFault_eq]
  refine if_neg ?_
  obtain h | ⟨h, hc⟩ := h
  · simp [hf, hm, h]
  · simp [hf, hm, h, hc]

theorem execPdFault_early (r : PdReading) (hs : pdStood s (nth s.drive.pds k {}).satSince = false)
    (hd : pdStood s (nth s.drive.pds k {}).dimSince = false) : execPdFault k r s = .next s := by
  rw [execPdFault_eq]
  exact if_pos (by simp [hs, hd])

/-- An update of the first `n` entries of a list that a condition names, written as one map over the list. -/
theorem foldl_upd_range {α : Type} (p : Nat → Bool) (f : α → α) (l : List α) (n : Nat) :
    (List.range n).foldl (fun m i => if p i then upd m i f else m) l = l.mapIdx fun i x => if i < n ∧ p i = true then f x else x := by
  induction n with
  | zero => exact (List.ext_getElem? fun j => by simp)
  | succ n ih =>
    rw [List.range_succ, List.foldl_append, ih, List.foldl_cons, List.foldl_nil]
    refine List.ext_getElem? fun j => ?_
    by_cases hj : n = j
    · subst hj
      by_cases hp : p n = true <;> simp [hp, upd]
    · have hle : j ≤ n ↔ j < n := by omega
      by_cases hp : p n = true <;> simp [hp, upd, hj, hle]

/-- The photodiodes among `l` that a condition names, one after another. -/
theorem foldl_modPd (p : Nat → Bool) (f : PdState → PdState) (l : List Nat) (s : State) :
    l.foldl (fun s k => if p k then s.modPd k f else s) s = { s with drive := { s.drive with
      pds := l.foldl (fun m k => if p k then upd m k f else m) s.drive.pds } } := by
  induction l generalizing s with
  | nil => rfl
  | cons a l ih =>
    rw [List.foldl_cons, List.foldl_cons, ih]
    split <;> rfl

theorem execPdFaultClear_allowed {path : PathId} (hs : serves s path = true) (hr : hasRole s path 1 = true) (v : Word) :
    execPdFaultClear path v s = .next { s with drive := { s.drive with
      pds := s.drive.pds.mapIdx fun k x => if k < 8 ∧ nbit v.toNat k = true then { x with faulted := false } else x } } := by
  simp only [execPdFaultClear, withRole, hs, hr, Bool.not_true, Bool.false_eq_true, if_false, if_true]
  rw [foldl_modPd (nbit v.toNat) (fun x => { x with faulted := false }), foldl_upd_range (nbit v.toNat)]

/-- Settles O46: a sample by the kind of its output, a fault by how long its reading stood, the clearing by the bits
written. That a loop steps with its highest photodiode is the model's choice (notes/assumptions/28.md). -/
theorem photodiodesFeedTheLoop : Obligations.PhotodiodesFeedTheLoop := by
  refine ⟨fun s k code => ⟨pdSampled s k code, pdTake_eq s k code, pdSampled_mean code, fun h => execPdSample_scan h code,
      fun h => execPdSample_plane h code⟩, fun s o c => loopSample_held, ?fault, fun s path v hs hr => execPdFaultClear_allowed hs hr v⟩
  case fault =>
    rintro s k code senses _ rfl hf hm
    refine ⟨fun h => execPdFault_stood hf hm ?_, fun hs hd => execPdFault_early _ (pdStood_eq_false hs) (pdStood_eq_false hd)⟩
    rwa [pdStood_iff, pdStood_iff]

end Sys2Proof.Machine
end

section
/-! SUPPORT. The strings: their switching stage, their admission, what a measurement window finds, and their failures (R95 to R97, R114 to
R123, R372, R406, R413). -/
namespace Sys2Proof.Machine

variable {s : State} {nn : Nat}

/-! ### The switching stage (R95) -/

section
variable {m : WordMap} {x : StringState} {t u : Nat}

theorem swA_iff : swA m nn x t = true ↔ x.stageOn = true ∧ stagePhase m nn t < min x.duty (dutyRoom m nn) := by simp [swA]

theorem swB_iff : swB m nn x t = true ↔ x.stageOn = true ∧ min x.duty (dutyRoom m nn) + stageDead m nn ≤ stagePhase m nn t ∧
    stagePhase m nn t + stageDead m nn < stagePeriod m nn := by simp [swB]

/-- SW_B's high time begins a dead time after SW_A's and ends a dead time before the period does. -/
theorem deadtime_of_swA_of_swB (ha : swA m nn x t = true) (hb : swB m nn x u = true) :
    stagePhase m nn t + stageDead m nn < stagePhase m nn u ∧ stagePhase m nn u + stageDead m nn < stagePeriod m nn := by
  obtain ⟨-, ha⟩ := swA_iff.1 ha
  obtain ⟨-, hb, hend⟩ := swB_iff.1 hb
  omega

theorem swA_and_swB : (swA m nn x t && swB m nn x t) = false := by
  rw [← Bool.not_eq_true, Bool.and_eq_true]
  rintro ⟨ha, hb⟩
  obtain ⟨hdead, -⟩ := deadtime_of_swA_of_swB ha hb
  omega

end

/-! ### Admission (R97, R122, R123, R372) -/

section
variable (hq : ((List.range 24).find? fun nn => (s.strAt nn).st == 1) = some nn)
include hq

/-- The first set point and the duty are the next two free values (notes/assumptions/118.md). -/
theorem execStringAdmit_admitted (hd : s.therm.droop = false) (hr : admitReady s nn = true) : execStringAdmit s =
    .next (((((s.draw 8).2.draw 9).2).modStr nn fun x => { stringDark x with
      st := 2, stageOn := true, admitted := s.tb.tick, setPoint := if x.setPoint = 0 then (s.draw 8).1 else x.setPoint
      duty := ((s.draw 8).2.draw 9).1 % (dutyRoom (strCfg s nn) nn + 1) }).modDrive fun d =>
        { d with lastAdmit := some s.tb.tick, paused := false }) := by
  simp only [execStringAdmit, hq, hd, hr, Bool.false_eq_true, if_false, if_true]

theorem execStringAdmit_waits (hd : s.therm.droop = false) (hr : admitReady s nn = false) :
    execStringAdmit s = .next (s.modDrive fun d => { d with paused := false }) := by
  simp only [execStringAdmit, hq, hd, hr, Bool.false_eq_true, if_false]

theorem execStringAdmit_droop (hd : s.therm.droop = true) (hp : s.drive.paused = false) :
    execStringAdmit s = .next (raise (s.modDrive fun d => { d with paused := true }) 0x0C0E (driveData nn 0)) := by
  simp only [execStringAdmit, hq, hd, hp, Bool.false_eq_true, if_false, if_true]

theorem execStringAdmit_paused (hd : s.therm.droop = true) (hp : s.drive.paused = true) : execStringAdmit s = .next s := by
  simp only [execStringAdmit, hq, hd, hp, if_true]

end

/-- A string may ramp while no domain wakes, within the budget or alone, and the gap after the last admission (R122, R372). -/
theorem admitReady_conditions (h : admitReady s nn = true) : s.therm.pend = 0 ∧
    ((∀ t < 24, (s.strAt t).st ≠ 2) ∨ rampingMa s + rampMa s nn ≤ 10 * (s.rt 4).fld 0xC0804 31 16) ∧
    ∀ t, s.drive.lastAdmit = some t → t + 400 * max ((s.rt 4).fld 0xC0804 7 0) (wakeGap (s.rt 4)) ≤ s.tb.tick := by
  simp only [admitReady, Bool.and_eq_true, Bool.or_eq_true, decide_eq_true_eq, beq_iff_eq] at h
  obtain ⟨⟨hbudget, hpend⟩, hgap⟩ := h
  refine ⟨hpend, hbudget.imp_left fun halone => by simpa using halone, fun t ht => ?_⟩
  simpa [ht] using hgap

theorem execStringReady_ramping (h : (s.strAt nn).st = 2) :
    execStringReady nn s = .next (liveChange (s.modStr nn fun x => { x with st := 3 }) (strGroup (strCfg s nn) nn)) := if_pos h
theorem execStringReady_other (h : (s.strAt nn).st ≠ 2) : execStringReady nn s = .next s := if_neg h
theorem execStringRampTimeout_ramping (h : (s.strAt nn).st = 2) : execStringRampTimeout nn s = .next (failString s nn 7 0) := if_pos h
theorem execStringRampTimeout_other (h : (s.strAt nn).st ≠ 2) : execStringRampTimeout nn s = .next s := if_neg h

/-! ### Measurement windows (R96, R114, R115, R121) -/

/-- The bin that a window's measurements belong to: the probe's, or the one of the channel's amplitude. -/
def windowBin (s : State) (nn : Nat) : Nat := match (s.strAt nn).probe with
  | some cur => ampBin cur
  | none => ampBin (chanAmp s (strOut (strCfg s nn) nn) (strChan (strCfg s nn) nn))

/-- What a string keeps of a window with outcome `r`; the trim is the next free value. -/
def windowKept (s : State) (nn r iAvg vStr : Nat) (vk : List Nat) (y : StringState) : StringState := { y with
  iAvg := iAvg, vStr := vStr, windowDone := true, lowDuty := 0, trim := (s.draw 10).1 % 2 ^ 14
  vks := (s.tb.tick, vk.foldl min (vk.headD 0)) :: y.vks
  learned := if (r = 0 ∨ r = 8) ∧ y.probe.isNone then
    listSet y.learned (windowBin s nn) ((vStr :: nth (s.strAt nn).learned (windowBin s nn) []).take 16) else y.learned
  probePending := y.probePending && !((r = 0 ∨ r = 8) && y.probe.isSome)
  pendFrames := if (r = 0 ∨ r = 8) ∧ y.probe.isSome then 0 else y.pendFrames
  lampShorts := if r = 8 then satAdd 255 y.lampShorts 1 else y.lampShorts
  flux := if r = 8 then max 0 (y.flux - y.weightFlux / y.lamps) else y.flux }

/-- A window with outcome `r` is acted on: open and short strings fail, a lamp short is reported (R115). -/
def windowActed (s : State) (g nn r iAvg vStr : Nat) : State :=
  if r = 1 then failString (raise s 0x0C01 (driveData nn iAvg)) nn 1 iAvg
  else if r = 2 then failString (raise s 0x0C02 (driveData nn vStr)) nn 2 vStr
  else if r = 8 then raise (liveChange s g) 0x0C03 (driveData nn vStr) else s

theorem windowOutcome_mem (x : StringState) (hr iAvg vStr vk : Nat) (learned : List Nat) :
    windowOutcome x hr iAvg vStr vk learned ∈ [0, 1, 2, 8] := by
  unfold windowOutcome
  split
  · simp
  · split
    · simp
    · split <;> simp

/-- A window is judged where the string is live and unclamped, its command at least DIAG_MIN and standing for 800 ticks, and the
command that of its channel or of a probe. -/
theorem execMeasurementWindowEnd_judged {isns vhr vk : List Nat} {iAvg vkMean vStr r : Nat}
    (hlive : liveString (strCfg s nn) s.drive nn = true) (hmin : diagMin (s.rt 4) ≤ (s.strAt nn).cmd) (hcl : (s.strAt nn).clamped = false)
    (hcmd : (s.strAt nn).cmd ≠ 0) (hat : (s.strAt nn).cmdAt + 800 ≤ s.tb.tick)
    (hhold : (s.strAt nn).holdCur = none ∨ (s.strAt nn).probe.isSome)
    (hi : iAvg = meanOf (lateSamples 5 isns)) (hvk : vkMean = meanOf (lateSamples 80 vk))
    (hv : vStr = (meanOf (lateSamples 80 vhr) * (strCfg s nn).fld (aStrSw nn) 31 24 - vkMean) / 10)
    (hr : r = windowOutcome (s.strAt nn) ((strCfg s nn).fld (aStrSw nn) 23 16) iAvg vStr vkMean (nth (s.strAt nn).learned (windowBin s nn) [])) :
    execMeasurementWindowEnd nn isns vhr vk s =
      (let s2 := windowActed ((s.draw 10).2.modStr nn (windowKept s nn r iAvg vStr vk)) (strGroup (strCfg s nn) nn) nn r iAvg vStr
       let s3 := if (s.tgAt (strOut (strCfg s nn) nn)).running then s2 else adjustHeadroom s2 nn 4000000
       .next (if (s.strAt nn).probe.isSome then vesper s3 nn r else s3)) := by
  have hprobe : ((s.strAt nn).holdCur.isSome && (s.strAt nn).probe.isNone) = false := by
    obtain h | h := hhold
    · simp [h]
    · simp [Option.isNone_eq_false_iff.2 h]
  subst hi hvk hv hr
  refine (if_neg ?_).trans rfl
  simp [hlive, Nat.not_lt.2 hmin, hcl, hcmd, Nat.not_lt.2 hat, hprobe]

/-! ### Overcurrent, headroom and the clearing of failures (R96, R115, R116, R406, R413) -/

theorem execStringOvercurrent_over {c : Nat} (hl : liveString (strCfg s nn) s.drive nn = true)
    (hc : senseOf (s.strAt nn).cmd + 3276 / 10 < c) :
    execStringOvercurrent nn c s = .next (failString (raise s 0x0C04 (driveData nn c)) nn 3 c) :=
  if_pos ⟨hl, hc⟩

theorem execStringOvercurrent_within {c : Nat}
    (h : liveString (strCfg s nn) s.drive nn = false ∨ (c : Rat) ≤ senseOf (s.strAt nn).cmd + 3276 / 10) :
    execStringOvercurrent nn c s = .next s :=
  if_neg fun ⟨hl, hc⟩ => h.elim (by simp [hl]) (not_le.2 hc)

theorem execHeadroomLow_low {vk : Nat} (hc : (s.strAt nn).cmd ≠ 0) (hv : 2 * vk < headroomTarget (strCfg s nn) nn) :
    execHeadroomLow nn vk s = .next (raiseLimited (s.modStr nn fun x => { x with setPoint := x.setPoint * 11 / 10 })
      0x0C06 nn (driveData nn vk) oneSecond .internal) :=
  if_neg fun h => h.elim hc (Nat.not_le.2 hv)

theorem execHeadroomLow_other {vk : Nat} (h : (s.strAt nn).cmd = 0 ∨ headroomTarget (strCfg s nn) nn ≤ 2 * vk) :
    execHeadroomLow nn vk s = .next s :=
  if_pos h

section
variable {path : PathId} (hs : serves s path = true) (hr : hasRole s path 1 = true)
include hs hr

theorem execStringFailClear_clears (hf : (s.strAt nn).failed = true) (hc : (s.strAt nn).cause ∈ [1, 2, 3, 7]) :
    execStringFailClear path nn s = .next (clearString s nn) := by
  simp only [List.mem_cons, List.not_mem_nil, or_false] at hc
  simp [execStringFailClear, withRole, hs, hr, hf, hc, or_assoc]

theorem execStringFailClear_keeps (hc : (s.strAt nn).cause ∉ [1, 2, 3, 7]) : execStringFailClear path nn s = .next s := by
  simp only [List.mem_cons, List.not_mem_nil, or_false] at hc
  simp [execStringFailClear, withRole, hs, hr, hc, or_assoc]

end

/-! ### A failed string (R116, R117) -/

/-- A string has failed with a cause: it holds command 0, with its stage off and no probe. -/
def FailedAt (nn cause : Nat) (s : State) : Prop :=
  (s.strAt nn).failed = true ∧ (s.strAt nn).cause = cause ∧ (s.strAt nn).cmd = 0 ∧ (s.strAt nn).st = 0 ∧
    (s.strAt nn).stageOn = false ∧ (s.strAt nn).probe = none

theorem strAt_modStr_same (f : StringState → StringState) (h : nn < s.drive.strings.length) : (s.modStr nn f).strAt nn = f (s.strAt nn) := by
  simp [State.strAt, State.modStr, upd, nth, h]

theorem strAt_modStr_other {t : Nat} (f : StringState → StringState) (h : nn ≠ t) : (s.modStr t f).strAt nn = s.strAt nn := by
  simp [State.strAt, State.modStr, upd, nth, Ne.symm h]

theorem liveString_of_failed {m : WordMap} {d : DriveState} (h : (nth d.strings nn {}).failed = true) : liveString m d nn = false := by
  simp only [liveString, h, Bool.not_true, Bool.and_false, Bool.false_and]

/-- What becomes of the other strings of an ALL_OR_NONE group (R117). -/
def darkenOthers (ms : List Nat) (s : State) : State := ms.foldl (fun s t => if (s.strAt t).failed then s
  else s.modStr t fun x => { stringDark x with cause := 6, holdCur := none, probe := none }) s

/-- A string that fails is stopped, its group follows the policy, and what is live is commanded anew. -/
theorem failAmong_eq (pol g : Nat) (ms : List Nat) (hf : (s.strAt nn).failed = false) (cause value : Nat) :
    failAmong pol g ms s nn cause value =
      (let s1 := (offString s nn).modStr nn fun x => { x with failed := true, cause := cause }
       let s3 := liveChange (if pol = 0 then darkenOthers ms s1 else s1) g
       if pol = 0 ∧ ¬ ms.any fun t => (s.strAt t).cause == 6 then raise s3 0x0C07 (driveData nn value)
       else if pol = 1 then raise s3 0x0C08 (driveData nn value) else s3) :=
  if_neg (by simp [hf])

section
variable {cause : Nat}

/-- A string that stops holds command 0, whether its channel's loop is held or not. -/
theorem failedAt_stopped (h : nn < s.drive.strings.length) (cause : Nat) :
    FailedAt nn cause ((offString s nn).modStr nn fun x => { x with failed := true, cause := cause }) := by
  have hoff : ∃ u : State, offString s nn = u.modStr nn stringOff ∧ nn < u.drive.strings.length := by
    refine ⟨_, rfl, ?_⟩
    split <;> exact h
  obtain ⟨u, hu, hlen⟩ := hoff
  have hstr : ((offString s nn).modStr nn fun x => { x with failed := true, cause := cause }).strAt nn =
      { stringOff (u.strAt nn) with failed := true, cause := cause } := by
    rw [hu, strAt_modStr_same _ (by simpa [State.modStr] using hlen), strAt_modStr_same _ hlen]
  rw [FailedAt, hstr]
  exact ⟨rfl, rfl, rfl, rfl, rfl, rfl⟩

section
variable (h : FailedAt nn cause s)
include h

/-- An update of a string leaves a failed one failed, if it keeps what the failure fixed where it falls on that string. -/
theorem failedAt_modStr (t : Nat) (f : StringState → StringState) (hf : nn = t → (f (s.strAt nn)).failed = true ∧
    (f (s.strAt nn)).cause = cause ∧ (f (s.strAt nn)).cmd = 0 ∧ (f (s.strAt nn)).st = 0 ∧ (f (s.strAt nn)).stageOn = false ∧
    (f (s.strAt nn)).probe = none) : FailedAt nn cause (s.modStr t f) := by
  by_cases ht : nn = t
  · subst ht
    by_cases hn : nn < s.drive.strings.length
    · rw [FailedAt, strAt_modStr_same f hn]
      exact hf rfl
    · rwa [State.modStr, upd, List.modify_eq_self (by omega)]
  · rwa [FailedAt, strAt_modStr_other f ht]

/-- A failed string is not live, so its channel commands it to 0. -/
theorem failedAt_recommand (o c t : Nat) : FailedAt nn cause (recommand s o c t) := by
  unfold recommand
  dsimp only
  split
  · exact h
  · refine failedAt_modStr h t _ ?_
    rintro rfl
    obtain ⟨hfail, hcause, -, hst, hstage, hprobe⟩ := h
    exact ⟨hfail, hcause, by simp [liveString_of_failed hfail], hst, hstage, hprobe⟩

theorem failedAt_recommandChan (o c : Nat) : FailedAt nn cause (recommandChan s o c) :=
  List.foldlRecOn (motive := FailedAt nn cause) _ _ h fun _ hu t _ => failedAt_recommand hu o c t

theorem failedAt_liveChange (g : Nat) : FailedAt nn cause (liveChange s g) := by
  refine List.foldlRecOn (motive := FailedAt nn cause) (groupMembers s g) _ h fun u hu t _ => ?_
  split
  · exact failedAt_recommandChan (s := holdLoop u _ _) hu _ _
  · exact hu

theorem failedAt_darkenOthers (ms : List Nat) : FailedAt nn cause (darkenOthers ms s) := by
  refine List.foldlRecOn (motive := FailedAt nn cause) ms _ h fun u hu t _ => ?_
  split
  · exact hu
  · next hlit =>
    refine failedAt_modStr hu t _ ?_
    rintro rfl
    obtain ⟨hfail, -⟩ := hu
    exact absurd hfail hlit

theorem failedAt_raise (code data : Nat) : FailedAt nn cause (raise s code data) := by
  rwa [FailedAt, State.strAt, raise_drive]

end

theorem failedAt_failAmong (pol g : Nat) (ms : List Nat) (h : nn < s.drive.strings.length) (hf : (s.strAt nn).failed = false)
    (value : Nat) : FailedAt nn cause (failAmong pol g ms s nn cause value) := by
  have hstop := failedAt_stopped h cause
  rw [failAmong_eq pol g ms hf]
  dsimp only
  generalize hs1 : ((offString s nn).modStr nn fun x => { x with failed := true, cause := cause }) = s1 at hstop ⊢
  have hlive : FailedAt nn cause (liveChange (if pol = 0 then darkenOthers ms s1 else s1) g) := by
    refine failedAt_liveChange ?_ g
    split
    · exact failedAt_darkenOthers hstop ms
    · exact hstop
  split
  · exact failedAt_raise hlive _ _
  · split
    · exact failedAt_raise hlive _ _
    · exact hlive

end

/-- Settles O47: the stage by its phases, an admission by its conditions, a window by its outcome, a failure by what its string
holds. The outcome codes of VESPER_RESULT (notes/assumptions/29.md) and the free set point, duty and trim (118) are the model's choice. -/
theorem stringsRunAndFail : Obligations.StringsRunAndFail := by
  refine ⟨fun m nn x t u => ⟨swA_and_swB, deadtime_of_swA_of_swB⟩,
    ⟨fun s nn hq => ⟨fun hd hr => ⟨_, _, _, rfl, execStringAdmit_admitted hq hd hr⟩, execStringAdmit_waits hq, execStringAdmit_droop hq,
        execStringAdmit_paused hq⟩, fun x => rfl, fun s nn => admitReady_conditions,
      fun s nn => ⟨fun h => ⟨execStringReady_ramping h, execStringRampTimeout_ramping h⟩,
        fun h => ⟨execStringReady_other h, execStringRampTimeout_other h⟩⟩⟩,
    ?window,
    fun s nn x => ⟨execStringOvercurrent_over, execStringOvercurrent_within, rfl⟩,
    fun s path nn hs hr hf => ⟨execStringFailClear_clears hs hr hf, execStringFailClear_keeps hs hr⟩,
    fun s nn vk => ⟨execHeadroomLow_low, execHeadroomLow_other⟩,
    fun s nn cause value h hf => ⟨_, rfl, failedAt_failAmong _ _ _ h hf value⟩⟩
  case window =>
    rintro s nn isns vhr vk _ _ iAvg vkMean vStr r rfl rfl hlive hmin hcl hcmd hat hhold hi hvk hv hr
    refine ⟨windowKept s nn r iAvg vStr vk, _, windowActed _ (strGroup (strCfg s nn) nn) nn r iAvg vStr, _,
      fun y => ⟨rfl, rfl, rfl, rfl, rfl, rfl, rfl, rfl, fun h => if_neg h⟩, rfl,
      by rintro rfl; rfl, by rintro rfl; rfl, by rintro rfl; rfl, by rintro rfl; rfl, hr ▸ windowOutcome_mem _ _ _ _ _ _, rfl,
      execMeasurementWindowEnd_judged hlive hmin hcl hcmd hat hhold hi hvk hv hr⟩

end Sys2Proof.Machine
end

section
/-! SUPPORT. An external temperature input's conversion, and what a lamp board's temperature does to its cap and its strings (R105, R107,
R352 to R354, R360, R366, R369). -/
namespace Sys2Proof.Machine

variable {s : State} {x : Nat} {code : Nat} {bad : Fin 4}

/-! ### External inputs (R352 to R354, R360) -/

/-- The samples of the last 100 ms, at most 20, with the one that a converting input adds. -/
def extSamples (now st : Nat) (v : Rat) (e : ExtState) : List (Nat × Rat) :=
  ((if st = 1 then (now, v) :: e.samples else e.samples).filter fun p => now < p.1 + 40000000).take 20

/-- What an input reads with `W` its WARN: the mean of its samples, and as at WARN where it has failed. -/
def extMean (st W : Nat) (samples : List (Nat × Rat)) : Int :=
  if st = 1 then roundRat (8 * sumRat (fun p => p.2) samples / samples.length) else if W ≠ 255 then 8 * (W : Int) else 0

/-- WARN of an input after a conversion, and whether it was entered or left now. -/
def extWarned (now st W : Nat) (mean : Int) (t : Threshold) : Threshold × Bool :=
  if (decide (st = 1) || decide (W ≠ 255)) && decide (W ≠ 255) then
    t.judge now (decide (8 * (W : Int) ≤ mean)) (decide (mean < 8 * ((W : Int) - 4)))
  else (t, false)

/-- HALT of an input after a conversion: a failed input without a WARN is not judged, and a failed one never makes HALT rise. -/
def extHalted (now st W H : Nat) (mean : Int) (t : Threshold) : Threshold × Bool :=
  if (decide (st = 1) || decide (W ≠ 255)) && decide (H ≠ 255) then
    t.judge now (decide (st = 1) && decide (8 * (H : Int) ≤ mean)) (decide (mean < 8 * ((H : Int) - 4)))
  else (t, false)

/-- An input as a conversion to state `st` and temperature `v` leaves it. -/
def extAfter (s : State) (x st : Nat) (v : Rat) (e : ExtState) : ExtState :=
  let mean := extMean st (extWarn (s.rt 4) x) (extSamples s.tb.tick st v e)
  { st := st, mean := mean, samples := extSamples s.tb.tick st v e
    warn := (extWarned s.tb.tick st (extWarn (s.rt 4) x) mean e.warn).1
    halt := (extHalted s.tb.tick st (extWarn (s.rt 4) x) (extHalt (s.rt 4) x) mean e.halt).1 }

section
variable {st W H now : Nat} {mean : Int} {t : Threshold}

theorem extMean_live (h : st = 1) (l : List (Nat × Rat)) : extMean st W l = roundRat (8 * sumRat (fun p => p.2) l / l.length) := if_pos h
theorem extMean_failed (h : st ≠ 1) (l : List (Nat × Rat)) : extMean st W l = if W = 255 then 0 else 8 * (W : Int) :=
  (if_neg h).trans (ite_not _ _ _)

theorem extWarned_off (h : W = 255) : extWarned now st W mean t = (t, false) := by simp [extWarned, h]
theorem extWarned_on (h : W ≠ 255) :
    extWarned now st W mean t = t.judge now (decide (8 * (W : Int) ≤ mean)) (decide (mean < 8 * ((W : Int) - 4))) := by
  simp [extWarned, h]

theorem extHalted_off (h : H = 255 ∨ (st ≠ 1 ∧ W = 255)) : extHalted now st W H mean t = (t, false) := by
  obtain hH | ⟨hst, hW⟩ := h
  · simp [extHalted, hH]
  · simp [extHalted, hst, hW]

theorem extHalted_on (hH : H ≠ 255) (h : st = 1 ∨ W ≠ 255) : extHalted now st W H mean t =
    t.judge now (decide (st = 1 ∧ 8 * (H : Int) ≤ mean)) (decide (mean < 8 * ((H : Int) - 4))) := by
  simp [extHalted, hH, h]

end

/-- The events of a conversion that leaves the input as `y`, where it was `e`: the failure, WARN and HALT as they begin (R354, R360,
R369). -/
def extEvents (s : State) (x : Nat) (e y : ExtState) (wc hc : Bool) : State :=
  let s1 := s.modTherm fun t => { t with exts := listSet t.exts x y }
  let s2 := if y.st ≠ 1 ∧ e.st < 2 then raise s1 0x0D0A (thermData x y.mean 0) else s1
  let s3 := if wc = true ∧ y.warn.entered = true then raise s2 0x0D08 (thermData x y.mean 0) else s2
  if hc = true ∧ y.halt.entered = true then shutdownRecord (raiseHalt s3 0x0D09 (thermData x y.mean 0)) 0x0D09 else s3

theorem execExtConversion_off (h : (s.rt 4).bit (aExtCfg x) 31 = false) : execExtConversion x code bad s = .next (continueBody
    (s.modTherm fun t => { t with exts := listSet t.exts x { nth s.therm.exts x {} with st := 0, mean := 0, samples := [] } })) := by
  simp [execExtConversion, extConversion, h]

/-- A conversion of an input that is on, up to the flash window. -/
def extJudged (s : State) (x st : Nat) (v : Rat) (e : ExtState) : State :=
  let y := extAfter s x st v e
  extEvents s x e y (extWarned s.tb.tick st (extWarn (s.rt 4) x) y.mean e.warn).2
    (extHalted s.tb.tick st (extWarn (s.rt 4) x) (extHalt (s.rt 4) x) y.mean e.halt).2

theorem extConversion_on {st : Nat} {v : Rat} {e : ExtState} (h : (s.rt 4).bit (aExtCfg x) 31 = true)
    (ht : extTemp (s.rt 4) x code bad = (st, v)) (he : e = nth s.therm.exts x {}) : extConversion x code bad s =
      if x = flashInput (s.rt 4) ∧ s.therm.converted = true then judgeWindow (extJudged s x st v e) else extJudged s x st v e := by
  subst he
  simp only [extConversion, h, ht]
  simp [extMean, extWarned, extHalted, extJudged, extEvents, extAfter, extSamples]

theorem execExtConversion_on {st : Nat} {v : Rat} {e : ExtState} (h : (s.rt 4).bit (aExtCfg x) 31 = true)
    (ht : extTemp (s.rt 4) x code bad = (st, v)) (he : e = nth s.therm.exts x {}) : execExtConversion x code bad s = .next (continueBody
      (if x = flashInput (s.rt 4) ∧ s.therm.converted = true then judgeWindow (extJudged s x st v e) else extJudged s x st v e)) := by
  rw [execExtConversion, extConversion_on h ht he]

/-! ### Lamp boards (R105, R107, R354) -/

section
variable {b : Nat}

/-- The cap that a PRESENT board takes from its input: DERATE's, or DMIN while the input has failed. -/
def boardCapOf (s : State) (b : Nat) : Nat :=
  if (nth s.therm.exts (boardInput (s.rt 4) b) {}).st = 1 then derateOf (s.rt 4) b (nth s.therm.exts (boardInput (s.rt 4) b) {}).mean
  else (s.rt 4).fld (aLbDerate b) 15 8 * 128

/-- A board's temperature, cap and trip are noted, and a cap that moves acts at once, with LAMP_DERATE where it moves by more than
1 %. -/
def boardNoted (s : State) (b : Nat) (mean : Int) (d : Nat) (t : Threshold) : State :=
  let u := noteTemp (s.modDrive fun x => { x with boards := listSet x.boards b { nth s.drive.boards b {} with temp := mean, d := d, trip := t } })
    b mean
  let v := if d = (nth s.drive.boards b {}).d then u else capChange u b
  if 0x8000 < 100 * ((d : Int) - ((nth s.drive.boards b {}).d : Int)).natAbs then
    raiseLimited v 0x0C09 b (driveData b (wrapInt 32 mean)) oneSecond .internal
  else v

/-- A trip that begins fails the strings of a board, one that ends lets them return (R107). -/
def boardTripped (s : State) (b : Nat) (t : Threshold) (change : Bool) : State :=
  if change && t.entered then boardHot s b else if change then boardCool s b else s

section
variable {t : Threshold} {change : Bool}

theorem boardTripped_stays (hc : change = false) : boardTripped s b t change = s := by simp [boardTripped, hc]
theorem boardTripped_begins (hc : change = true) (ht : t.entered = true) : boardTripped s b t change = boardHot s b := by
  simp [boardTripped, hc, ht]
theorem boardTripped_ends (hc : change = true) (ht : t.entered = false) : boardTripped s b t change = boardCool s b := by
  simp [boardTripped, hc, ht]

end

theorem execLampBoardTempUpdate_absent (h : (s.rt 4).bit (aLbCfg b) 31 = false) : execLampBoardTempUpdate b s = .next s :=
  if_pos (by simp [h])

theorem execLampBoardTempUpdate_present {e : ExtState} {t : Threshold} {change : Bool} (h : (s.rt 4).bit (aLbCfg b) 31 = true)
    (he : nth s.therm.exts (boardInput (s.rt 4) b) {} = e)
    (ht : (nth s.drive.boards b {}).trip.judge s.tb.tick (decide (8 * ((s.rt 4).fld (aLbDerate b) 7 0 : Int) ≤ e.mean))
      (decide (e.mean < 8 * ((s.rt 4).fld (aLbDerate b) 7 0 : Int) - 32)) = (t, change)) :
    execLampBoardTempUpdate b s = .next (boardTripped (boardNoted s b e.mean (boardCapOf s b) t) b t change) := by
  subst he
  simp only [execLampBoardTempUpdate, h, ht]
  rfl

end

/-- Settles O48: an input by whether it is on and whether it converts, a board by whether it is PRESENT and what becomes of its
trip. That a failed input makes no HALT rise and holds its thresholds without a WARN (notes/assumptions/41.md), and that LAMP_DERATE
compares with the cap in force (53), are the model's choice. -/
theorem externalTemperatures : Obligations.ExternalTemperatures := by
  refine ⟨⟨fun s x code bad => execExtConversion_off, ?input⟩,
    fun s b => execLampBoardTempUpdate_absent, ?board⟩
  case input =>
    rintro s x code st _ _ bad v e hon ht he rfl rfl
    exact ⟨extAfter s x st v e, _, _, _, _, _, _, rfl, rfl, fun h => extMean_live h _, fun h => extMean_failed h _,
      fun h => by simp [extAfter, extWarned_off h], fun h => by simp [extAfter, extWarned_on h],
      fun h => by simp [extAfter, extHalted_off h], fun hH h => by simp [extAfter, extHalted_on hH h],
      rfl, rfl, rfl, rfl, execExtConversion_on hon ht he⟩
  case board =>
    rintro s b e d t change hp he rfl ht
    have hexec : exec (.lampBoardTempUpdate b) s = _ := execLampBoardTempUpdate_present hp he ht
    subst he
    exact ⟨_, _, boardNoted s b _ (boardCapOf s b) t, rfl, rfl, rfl,
      fun hc => hexec.trans (congrArg _ (boardTripped_stays hc)),
      fun hc hin => hexec.trans (congrArg _ (boardTripped_begins hc hin)),
      fun hc hout => hexec.trans (congrArg _ (boardTripped_ends hc hout))⟩

end Sys2Proof.Machine
end

section
/-! SUPPORT. Commands to the array, the commands of PORT_CMD_n, and a mirror link from its bring-up to its loss (R136 to R139, R144 to
R154, R171). -/
namespace Sys2Proof.Machine

variable {s : State} {o : Nat}

/-! ### Commands and their echo (R137, R138) -/

theorem execCommandEchoTimeout_retry {c : PortCmd} (h : (s.portAt o).cmd = some c) (ht : c.tries < 3) :
    execCommandEchoTimeout o s = .next (s.modPort o fun p =>
      { (if p.current.isSome then { p with resend := true } else commandColumn (s.rt o) o s.tb.tick c.opcode c.seq c.arg p) with
        cmd := some { c with tries := c.tries + 1 } }) := by
  simp only [execCommandEchoTimeout, h, if_pos ht]

theorem execCommandEchoTimeout_fails {c : PortCmd} (h : (s.portAt o).cmd = some c) (ht : 3 ≤ c.tries) :
    execCommandEchoTimeout o s = .next (takeDown (raise s 0x0B07 (portData o c.seq)) o) := by
  simp only [execCommandEchoTimeout, h, if_neg (Nat.not_lt.2 ht)]

section
variable {m : WordMap} {now : Nat} {p : PortState}

theorem nextCommand_sends {queue rest : List (Nat × Nat)} {op arg : Nat} (hc : p.cmd = none) (hl : p.current = none)
    (hq : queue = (op, arg) :: rest) :
    nextCommand m o now { p with cmdQueue := queue } = sendCommand m o now op arg { p with cmdQueue := rest } := by
  simp only [nextCommand, hc, hl, hq]

/-- A command waits for the echo of the one before it and for the end of a load. -/
theorem nextCommand_waits {queue : List (Nat × Nat)} (h : p.cmd ≠ none ∨ p.current ≠ none) :
    nextCommand m o now { p with cmdQueue := queue } = { p with cmdQueue := queue } := by
  unfold nextCommand
  split
  · next hc hl _ => exact (h.elim (· hc) (· hl)).elim
  · rfl

end

/-! ### PORT_CMD_n (R139, R154, R169) -/

theorem withRole_refused {path : PathId} {role : Nat} (addr : Nat) (f : State → State) (hs : serves s path = true)
    (hr : hasRole s path role = false) : withRole s path role addr f = refuseRole s path role addr := by
  rw [withRole_served role addr f hs, if_neg (by simp [hr])]

section
variable {arg : Nat} {path : PathId}

theorem execPortCmdStatusReq_allowed (hs : serves s path = true) (hr : hasRole s path 9 = true) (kind : Nat) :
    execPortCmdStatusReq path o kind s = .next (portStatusReq s o kind) :=
  congrArg _ (withRole_held _ _ hs hr)

theorem execPortCmdTestPattern_allowed (hs : serves s path = true) (hr : hasRole s path 9 = true) (arg : Nat) :
    execPortCmdTestPattern path o arg s = .next (portTestPattern s o arg path) :=
  congrArg _ (withRole_held _ _ hs hr)

/-- A pattern is refused outside STANDBY, above 2, and as a checkerboard of a SCAN output. -/
theorem portTestPattern_rejected
    (h : (s.outAt o).mode ≠ 1 ∨ (s.outAt o).trans = true ∨ 2 < arg ∨ (arg = 2 ∧ isScan (s.rt o) o = true)) :
    portTestPattern s o arg path = rejectPortCmd s o arg path := by
  by_cases hgate : (s.outAt o).mode ≠ 1 ∨ (s.outAt o).trans = true ∨ 2 < arg
  · exact if_pos hgate
  · obtain ⟨harg, hscan⟩ : arg = 2 ∧ isScan (s.rt o) o = true := by tauto
    exact (if_neg hgate).trans ((if_pos hscan).trans (if_pos harg))

section
variable (hm : (s.outAt o).mode = 1) (ht : (s.outAt o).trans = false)
include hm ht

theorem portTestPattern_scan (hscan : isScan (s.rt o) o = true) (ha : arg < 2) :
    portTestPattern s o arg path = s.modPort o fun p => { p with pattern := arg } := by
  simp [portTestPattern, hm, ht, hscan, ha.le, ha.ne]

theorem portTestPattern_down (hscan : isScan (s.rt o) o = false) (hl : (s.portAt o).link ≠ 5) (ha : arg ≤ 2) :
    portTestPattern s o arg path = s := by
  simp [portTestPattern, hm, ht, hscan, hl, ha]

section
variable (hscan : isScan (s.rt o) o = false) (hl : (s.portAt o).link = 5)
include hscan hl

theorem portTestPattern_stops : portTestPattern s o 0 path =
    portSend (portSend (s.modPort o fun p => { p with pattern := 0, patWait := false }) o 0x30 0) o 0x10 0 := by
  simp [portTestPattern, hm, ht, hscan, hl]

theorem portTestPattern_prbs : portTestPattern s o 1 path =
    portSend ((endPattern s o).modPort o fun p => { p with pattern := 1, patWait := false }) o 0x30 1 := by
  simp [portTestPattern, hm, ht, hscan, hl]

theorem portTestPattern_checker : portTestPattern s o 2 path =
    portSend ((endPattern s o).modPort o fun p => { p with pattern := 2, patWait := true }) o 0x11 0 := by
  simp [portTestPattern, hm, ht, hscan, hl]

end
end
end

/-- Settles O42: a command by whether it waits, an echo that does not come by its tries, a PORT_CMD_n by its gate and then by the mode,
the kind of output and the link. That a pattern above 2, and a checkerboard of a SCAN output, are rejected
(notes/assumptions/57.md), and that a link that is not up sends nothing (100), are the model's choice. -/
theorem linkCommands : Obligations.LinkCommands := by
  refine ⟨⟨?retry, fun s o c => execCommandEchoTimeout_fails, ?send, fun m o now op seq arg p => rfl⟩,
    ⟨?status, ?rejected, ?pattern, ?noRole⟩⟩
  case retry =>
    intro s o c hc ht
    exact ⟨_, execCommandEchoTimeout_retry hc ht, fun hl => by simp [hl], fun hl => by simp [Option.isSome_iff_ne_none, hl]⟩
  case send =>
    intro s o op arg
    exact ⟨_, rfl, fun op1 arg1 rest => nextCommand_sends, nextCommand_waits⟩
  case status =>
    intro s path o kind hs hr
    have hexec := execPortCmdStatusReq_allowed (o := o) hs hr kind
    exact ⟨fun hl => hexec.trans (congrArg _ (if_pos hl)), fun hl => hexec.trans (congrArg _ (if_neg hl))⟩
  case rejected =>
    intro s path o arg hs hr h
    exact (execPortCmdTestPattern_allowed hs hr arg).trans (congrArg _ (portTestPattern_rejected h))
  case pattern =>
    intro s path o arg hs hr hm ht
    have hexec := execPortCmdTestPattern_allowed (o := o) hs hr arg
    refine ⟨fun hscan ha => hexec.trans (congrArg _ (portTestPattern_scan hm ht hscan ha)), ?_, ?_, ?_,
      fun hscan hl ha => hexec.trans (congrArg _ (portTestPattern_down hm ht hscan hl ha))⟩
    · rintro hscan hl rfl
      exact hexec.trans (congrArg _ (portTestPattern_stops hm ht hscan hl))
    · rintro hscan hl rfl
      exact hexec.trans (congrArg _ (portTestPattern_prbs hm ht hscan hl))
    · rintro hscan hl rfl
      exact hexec.trans (congrArg _ (portTestPattern_checker hm ht hscan hl))
  case noRole =>
    intro s path o x hs hr
    exact ⟨congrArg _ (withRole_refused _ _ hs hr), congrArg _ (withRole_refused _ _ hs hr)⟩

/-! ### The back-channel (R136, R144 to R148) -/

section
variable {l : List Byte}

theorem execBchFrameReceive_scan (h : isScan (s.rt o) o = true) : execBchFrameReceive o l s = .next s :=
  if_pos h

section
variable (h : isScan (s.rt o) o = false)
include h

theorem execBchFrameReceive_bad (hc : bchCrcOk l = false) : execBchFrameReceive o l s =
    .next (s.modPort o fun p => { p with bchErrs := satAdd 0xFF p.bchErrs 1, validStatus := 0 }) := by
  simp [execBchFrameReceive, h, hc]

variable (hc : bchCrcOk l = true)
include hc

theorem execBchFrameReceive_status (ht : (l.headD 0).toNat = 1) :
    execBchFrameReceive o l s = .next (takeStatus s o false (parseStatus ((l.drop 1).take 28))) := by
  simp only [execBchFrameReceive, h, hc, ht]
  rfl

theorem execBchFrameReceive_event (ht : (l.headD 0).toNat = 2) :
    execBchFrameReceive o l s = .next (takeStatus s o true (parseStatus ((l.drop 1).take 28))) := by
  simp only [execBchFrameReceive, h, hc, ht]
  rfl

theorem execBchFrameReceive_ident (ht : (l.headD 0).toNat = 3) :
    execBchFrameReceive o l s = .next (takeIdent s o (parseIdent ((l.drop 1).take 28))) := by
  simp only [execBchFrameReceive, h, hc, ht]
  rfl

end
end

theorem takeIdent_accepted {i : Ident} (hl : (s.portAt o).link = 4) (ha : acceptsArray (s.rt o) o i = true) :
    takeIdent s o i = linkUp (s.modPort o fun p => { p with ident := some i, accepted := true, mismatch := false }) o := by
  simp [takeIdent, hl, ha]

theorem takeIdent_mismatch {i : Ident} (hl : (s.portAt o).link = 4) (ha : acceptsArray (s.rt o) o i = false)
    (hm : (s.portAt o).mismatch = false) : takeIdent s o i =
      raise (s.modPort o fun p => { p with accepted := false, mismatch := true }) 0x0B06 (portData o 4) := by
  simp [takeIdent, hl, ha, hm]

/-- The flags of a status body without a strobe error, a temperature or a supply fault: the load-error flag decides alone. -/
theorem takeFlags_loadError {old new : ArrayStatus} (h1 : nbit new.flags 1 = false) (h2 : nbit new.flags 2 = false)
    (h4 : nbit new.flags 4 = false) (h5 : nbit new.flags 5 = false) : takeFlags s o old new =
      if nbit new.flags 0 then fault (s.modPort o fun p => { p with
        loadErrs := satAdd 0xFFFF p.loadErrs 1
        loadErrTimes := s.tb.tick :: p.loadErrTimes.filter fun u => decide (s.tb.tick < u + 400000000) }) 0x0B03 (portData o new.loadSeq) o
      else s := by
  simp [takeFlags, h1, h2, h4, h5]

/-! ### Bring-up (R147, R148) -/

section
variable {event : Bool} {t : ArrayStatus}

theorem bringUp_valid (hl : (s.portAt o).link = 1) (hv : 2 ≤ (s.portAt o).validStatus) :
    bringUp s o event t = s.modPort o fun p => { p with link := 2 } :=
  if_pos ⟨hl, hv⟩

theorem bringUp_locked (hl : (s.portAt o).link = 2) (hk : t.laneLock &&& laneMask (s.rt o) o = laneMask (s.rt o) o) :
    bringUp s o event t = s.modPort o (startAlign (s.rt o) o s.tb.tick) := by
  simp [bringUp, hl, hk]

theorem bringUp_aligned (hl : (s.portAt o).link = 3) (hf : nbit t.flags 3 = true) :
    bringUp s o false t = portSend (s.modPort o fun p => { p with link := 4 }) o 0x20 1 := by
  simp [bringUp, hl, hf]

/-- Step 3 is completed by a STATUS frame only. -/
theorem bringUp_aligned_event (hl : (s.portAt o).link = 3) : bringUp s o true t = s := by
  simp [bringUp, hl]

end

theorem execBringupStepTimeout_ends (h1 : 1 ≤ (s.portAt o).link) (h4 : (s.portAt o).link ≤ 4) (hm : (s.portAt o).mismatch = false) :
    ∃ u : State, u = s.modPort o (fun p => { fillTo (s.rt o) o s.tb.tick p with
      link := 0, validStatus := 0, cmd := none, cmdQueue := [], resend := false, lossRaised := true }) ∧
    execBringupStepTimeout o s = .next (if (s.portAt o).lossRaised then u else raise u 0x0B02 (portData o (s.portAt o).link)) := by
  have hstep : ¬ ((s.portAt o).link = 0 ∨ (s.portAt o).link = 5 ∨ (s.portAt o).mismatch = true) := by
    simp only [hm, Bool.false_eq_true, or_false]
    omega
  exact ⟨_, rfl, if_neg hstep⟩

theorem execBringupRestart_mirror (hl : (s.portAt o).link = 0) (hscan : isScan (s.rt o) o = false) :
    execBringupRestart o s = .next (s.modPort o (startTraining (s.rt o) o s.tb.tick)) :=
  if_pos ⟨hl, by simp [hscan]⟩

section
variable (m : WordMap) (now : Nat) (p : PortState)

/-- The columns that fill the link leave ALIGN_SEQ as it was. -/
theorem fillTo_alignSeq : (fillTo m o now p).alignSeq = p.alignSeq := by
  unfold fillTo fillLanes
  split
  · rfl
  · dsimp only
    repeat' split
    all_goals rfl

theorem sendAlign_alignSeq : (sendAlign m o p).alignSeq = (p.alignSeq + 1) % 65536 := rfl

theorem foldl_sendAlign_link (l : List Nat) : (l.foldl (fun p _ => sendAlign m o p) p).link = p.link := by
  induction l generalizing p with
  | nil => rfl
  | cons a r ih => exact ih (sendAlign m o p)

theorem foldl_sendAlign_wire (l : List Nat) :
    (l.foldl (fun p _ => sendAlign m o p) p).wire.length = p.wire.length + l.length := by
  induction l generalizing p with
  | nil => rfl
  | cons a r ih => exact (ih (sendAlign m o p)).trans (Nat.succ_add_eq_add_succ _ _)

/-- ALIGN columns, at least one, count ALIGN_SEQ on by their number. -/
theorem foldl_sendAlign_alignSeq (a : Nat) (r : List Nat) :
    ((a :: r).foldl (fun p _ => sendAlign m o p) p).alignSeq = (p.alignSeq + (r.length + 1)) % 65536 := by
  induction r generalizing p a with
  | nil => rfl
  | cons b r ih =>
    rw [List.foldl_cons, ih, sendAlign_alignSeq, Nat.mod_add_mod, List.length_cons]
    congr 1
    omega

theorem startAlign_link : (startAlign m o now p).link = 3 := foldl_sendAlign_link _ _ _

theorem startAlign_wire_length : (startAlign m o now p).wire.length = 16 := foldl_sendAlign_wire _ _ _

theorem startAlign_alignSeq : (startAlign m o now p).alignSeq = (p.alignSeq + 16) % 65536 := by
  refine (foldl_sendAlign_alignSeq m _ 0 (List.range' 1 15)).trans ?_
  rw [List.length_range']
  exact congrArg (fun x => (x + 16) % 65536) (fillTo_alignSeq m now p)

end

/-! ### Loss of the link (R150 to R152, R171) -/

theorem execBchSilence_up (hscan : isScan (s.rt o) o = false) (hl : (s.portAt o).link = 5) :
    execBchSilence o s = .next (parkDone (fault (loseLink
      (s.modPort o fun p => { startTraining (s.rt o) o s.tb.tick p with
        lossRaised := false, mismatch := false, laneRuns := List.replicate 32 0, loadErrTimes := [] }) o) 0x0B02 (portData o 0) o) o) := by
  simp [execBchSilence, takeDown, hscan, hl]

section
variable (hscan : isScan (s.rt o) o = false → (s.portAt o).link ≠ 5) (hjesd : isScan (s.rt o) o = true → (s.scanAt o).jesd ≠ 2)
include hscan hjesd

/-- A link that has not returned: an exit waiting for the array is complete, a shown output leaves, any other stays. -/
theorem execLinkDownTimeout_down : execLinkDownTimeout o s =
    if (s.outAt o).exit = .stopping ∧ ¬ isScan (s.rt o) o then .next (reachStandby s o)
    else if isLit s o then .next (startExit s o 1) else .next s := by
  refine if_neg ?_
  cases h : isScan (s.rt o) o
  · simp [hscan h]
  · simp [hjesd h]

theorem execLinkDownTimeout_exiting (he : (s.outAt o).exit = .stopping) (h : isScan (s.rt o) o = false) :
    execLinkDownTimeout o s = .next (reachStandby s o) :=
  (execLinkDownTimeout_down hscan hjesd).trans (if_pos ⟨he, by simp [h]⟩)

theorem execLinkDownTimeout_shown (he : (s.outAt o).exit ≠ .stopping) (hlit : isLit s o = true) :
    execLinkDownTimeout o s = .next (startExit s o 1) :=
  (execLinkDownTimeout_down hscan hjesd).trans ((if_neg fun h => he h.1).trans (if_pos hlit))

theorem execLinkDownTimeout_unlit (he : (s.outAt o).exit ≠ .stopping) (hlit : isLit s o = false) :
    execLinkDownTimeout o s = .next s :=
  (execLinkDownTimeout_down hscan hjesd).trans ((if_neg fun h => he h.1).trans (if_neg (by simp [hlit])))

end

theorem execLinkDownTimeout_up (hscan : isScan (s.rt o) o = false → (s.portAt o).link = 5)
    (hjesd : isScan (s.rt o) o = true → (s.scanAt o).jesd = 2) : execLinkDownTimeout o s = .next s := by
  refine if_pos ?_
  cases h : isScan (s.rt o) o
  · simp [hscan h]
  · simp [hjesd h]

/-- Settles O43: a frame by its check word and its type, bring-up by its step, and a lost link by what its output does. That TRAIN_SEQ
counts bring-ups and ALIGN_SEQ the ALIGN columns is presumed (notes/assumptions/98.md); that a lost mirror link lets a timing-mode change
go on is the model's choice (26). -/
theorem mirrorLinks : Obligations.MirrorLinks := by
  refine ⟨⟨fun s o l => execBchFrameReceive_scan, fun s o l => execBchFrameReceive_bad, ?frame, ?flags⟩,
    ⟨fun s o event t => ⟨bringUp_valid, bringUp_locked, bringUp_aligned, bringUp_aligned_event⟩,
      fun s o => execBringupStepTimeout_ends, fun s o => execBringupRestart_mirror,
      fun m o now p => ⟨rfl, rfl, rfl, startAlign_link m now p, startAlign_alignSeq m now p, startAlign_wire_length m now p⟩,
      fun s o => execBchSilence_up, ?linkDown, fun s o => execLinkDownTimeout_up⟩⟩
  case frame =>
    intro s o l h hc
    refine ⟨execBchFrameReceive_status h hc, execBchFrameReceive_event h hc, fun ht hl => ?_⟩
    have hexec := execBchFrameReceive_ident h hc ht
    exact ⟨fun ha => hexec.trans (congrArg _ (takeIdent_accepted hl ha)),
      fun ha hm => hexec.trans (congrArg _ (takeIdent_mismatch hl ha hm))⟩
  case flags =>
    intro s o old new h1 h2 h4 h5
    have hflags := takeFlags_loadError (s := s) (o := o) (old := old) h1 h2 h4 h5
    exact ⟨fun h => hflags.trans (if_neg (by simp [h])), fun h => hflags.trans (if_pos h)⟩
  case linkDown =>
    intro s o hscan hjesd
    exact ⟨execLinkDownTimeout_exiting hscan hjesd, execLinkDownTimeout_shown hscan hjesd, execLinkDownTimeout_unlit hscan hjesd⟩

end Sys2Proof.Machine
end

section
/-! SUPPORT. The fast-axis drive and its tracker, the beam watches, and the watched motion of both axes (R158 to R160, R177, R178). -/
namespace Sys2Proof.Machine

variable {s : State} {o : Nat}

/-! ### The drive and the lock time (R158) -/

/-- The drive's square wave changes nothing of the tracker. -/
@[simp] theorem driveWave_tracker (m : WordMap) (o now : Nat) (x : ScanState) :
    (driveWave m o now x).t0 = x.t0 ∧ (driveWave m o now x).pHat = x.pHat ∧ (driveWave m o now x).lastCross = x.lastCross ∧
      (driveWave m o now x).peak = x.peak ∧ (driveWave m o now x).fast = x.fast ∧ (driveWave m o now x).smallErr = x.smallErr ∧
      (driveWave m o now x).bigErr = x.bigErr ∧ (driveWave m o now x).phaseErrs = x.phaseErrs ∧
      (driveWave m o now x).lowPeaks = x.lowPeaks := by
  unfold driveWave
  split <;> simp

theorem execFastAxisCapture_sweep (h : (s.scanAt o).fast = 1) : execFastAxisCapture o s =
    .next (s.modScan o fun x => driveWave (s.rt o) o s.tb.tick { x with fast := 2 }) :=
  if_pos h

theorem execScanLockTimeout_unlocked (h : (s.scanAt o).fast = 1 ∨ (s.scanAt o).fast = 2) : execScanLockTimeout o s =
    .next (raise (s.modScan o fun y => { y with fast := 0, driveOn := false, drvPeriod := 0 }) 0x0B11 (o + 1 * 2 ^ 8)) :=
  if_pos h

/-! ### A rising crossing (R158 to R160, R177) -/

theorem execFastAxisCrossing_first (hon : (s.scanAt o).driveOn = true) (hf : (s.scanAt o).first = true) (t peak : Nat) :
    execFastAxisCrossing o t peak s = .next (s.modScan o fun y => driveWave (s.rt o) o s.tb.tick
      { y with first := false, t0 := (t : Int) * 256 / 25, lastCross := t, peak := peak }) := by
  simp [execFastAxisCrossing, hon, hf]

/-- The errors in a row up to 20 ticks, with that of this crossing. -/
def smallRun (s : State) (o : Nat) (e : Int) : Nat := if e.natAbs ≤ 20 * 256 then (s.scanAt o).smallErr + 1 else 0
/-- The errors in a row beyond 200 ticks, with that of this crossing. -/
def bigRun (s : State) (o : Nat) (e : Int) : Nat := if 200 * 256 < e.natAbs then (s.scanAt o).bigErr + 1 else 0
/-- The errors in a row beyond PHASE_MAX, with that of this crossing. -/
def phaseRun (s : State) (o : Nat) (e : Int) : Nat :=
  if 4 * (s.rt o).fld (aScanBw o) 15 8 * 256 < e.natAbs then (s.scanAt o).phaseErrs + 1 else 0
/-- The peaks in a row below FAMP_MIN, with that of this crossing. -/
def lowRun (s : State) (o peak : Nat) : Nat :=
  if peak * 256 < (s.rt o).fld (aScanBw o) 7 0 * faxAmp (s.rt o) o then (s.scanAt o).lowPeaks + 1 else 0

/-- Whether a crossing takes the lock of a locked tracker. -/
def losesLock (s : State) (o : Nat) (e p : Int) : Bool :=
  (s.scanAt o).fast == 3 && (decide (4 ≤ bigRun s o e) || !periodInRange (s.rt o) o p)
/-- Whether a crossing locks a tracker that is not locked. -/
abbrev takesLock (s : State) (o : Nat) (e : Int) : Prop := (s.scanAt o).fast ≠ 3 ∧ 256 ≤ smallRun s o e

/-- The drive's high time after a crossing: outside the sweep it follows the pickup's peak. -/
def highAfter (s : State) (o peak : Nat) (p : Int) : Int :=
  if (s.scanAt o).fast < 2 then (s.scanAt o).highTime
  else clampInt (p / 50) (p / 2) ((s.scanAt o).highTime + ((faxAmp (s.rt o) o : Int) - peak) * 4)

/-- What a crossing with error `e` makes of the scan state of its output: the new phase and period, and the runs of errors. -/
def crossed (s : State) (o t peak : Nat) (e t0 p : Int) (y : ScanState) : ScanState := driveWave (s.rt o) o s.tb.tick { y with
  t0 := t0, pHat := p, lastCross := t, peak := peak, highTime := highAfter s o peak p
  fast := if losesLock s o e p then 4 else if takesLock s o e then 3 else (s.scanAt o).fast
  smallErr := if losesLock s o e p then 0 else min (smallRun s o e) 256
  bigErr := bigRun s o e, phaseErrs := phaseRun s o e, lowPeaks := lowRun s o peak }

/-- The state after a crossing with the event of a lock lost or taken, before the beam watches judge it. -/
def crossingState (s : State) (o t peak : Nat) (e t0 p : Int) : State :=
  let u := s.modScan o (crossed s o t peak e t0 p)
  if losesLock s o e p then raise u 0x0B11 (o + 2 * 2 ^ 8) else if takesLock s o e then raise u 0x0B10 o else u

section
variable {t peak : Nat} {e t0 p : Int}

theorem execFastAxisCrossing_tracks (hon : (s.scanAt o).driveOn = true) (hf : (s.scanAt o).first = false)
    (htrack : trackStep (s.scanAt o).t0 (s.scanAt o).pHat ((t : Int) * 256 / 25) = (e, t0, p)) :
    execFastAxisCrossing o t peak s = .next (beamWatch (beamWatch (beamWatch (beamWatch (crossingState s o t peak e t0 p)
      o 0 false) o 1 (decide (2 ≤ lowRun s o peak))) o 2 (decide (4 ≤ phaseRun s o e))) o 3 (!periodInRange (s.rt o) o p)) := by
  refine (if_neg (by simp [hon])).trans ((if_neg (by simp [hf])).trans ?_)
  rw [htrack]
  rfl

/-- Every crossing takes the tracker to its new phase and period. -/
theorem crossed_tracker (y : ScanState) :
    (crossed s o t peak e t0 p y).t0 = t0 ∧ (crossed s o t peak e t0 p y).pHat = p ∧ (crossed s o t peak e t0 p y).lastCross = t ∧
      (crossed s o t peak e t0 p y).peak = peak ∧ (crossed s o t peak e t0 p y).lowPeaks = lowRun s o peak ∧
      (crossed s o t peak e t0 p y).phaseErrs = phaseRun s o e := by
  simp [crossed]

theorem losesLock_of_unlocked (h : (s.scanAt o).fast ≠ 3) : losesLock s o e p = false := by simp [losesLock, h]

theorem crossing_locks (hf : (s.scanAt o).fast ≠ 3) (he : e.natAbs ≤ 20 * 256) (hn : 255 ≤ (s.scanAt o).smallErr) :
    crossingState s o t peak e t0 p = raise (s.modScan o (crossed s o t peak e t0 p)) 0x0B10 o ∧
      ∀ y, (crossed s o t peak e t0 p y).fast = 3 := by
  have hlost : losesLock s o e p = false := losesLock_of_unlocked hf
  have hsmall : smallRun s o e = (s.scanAt o).smallErr + 1 := if_pos he
  have hlong : 256 ≤ smallRun s o e := by omega
  simp [crossingState, crossed, hlost, takesLock, hf, hlong]

/-- An error beyond 20 ticks starts the run of small errors afresh. -/
theorem crossing_unlocked (hf : (s.scanAt o).fast ≠ 3) (he : 20 * 256 < e.natAbs) :
    crossingState s o t peak e t0 p = s.modScan o (crossed s o t peak e t0 p) ∧
      ∀ y, (crossed s o t peak e t0 p y).fast = (s.scanAt o).fast ∧ (crossed s o t peak e t0 p y).smallErr = 0 := by
  have hlost : losesLock s o e p = false := losesLock_of_unlocked hf
  have hsmall : smallRun s o e = 0 := if_neg (by omega)
  simp [crossingState, crossed, hlost, hsmall]

/-- A locked tracker stays locked, and the run of large errors ends. -/
theorem crossing_staysLocked (hf : (s.scanAt o).fast = 3) (he : e.natAbs ≤ 200 * 256) (hp : periodInRange (s.rt o) o p = true) :
    crossingState s o t peak e t0 p = s.modScan o (crossed s o t peak e t0 p) ∧
      ∀ y, (crossed s o t peak e t0 p y).fast = 3 ∧ (crossed s o t peak e t0 p y).bigErr = 0 := by
  have hbig : bigRun s o e = 0 := if_neg (by omega)
  have hlost : losesLock s o e p = false := by simp [losesLock, hbig, hp]
  simp [crossingState, crossed, hlost, hbig, hf]

theorem crossing_losesLock (hf : (s.scanAt o).fast = 3)
    (h : (200 * 256 < e.natAbs ∧ 3 ≤ (s.scanAt o).bigErr) ∨ periodInRange (s.rt o) o p = false) :
    crossingState s o t peak e t0 p = raise (s.modScan o (crossed s o t peak e t0 p)) 0x0B11 (o + 2 * 2 ^ 8) ∧
      ∀ y, (crossed s o t peak e t0 p y).fast = 4 := by
  have hlost : losesLock s o e p = true := by
    obtain ⟨he, hn⟩ | hp := h
    · have hbig : bigRun s o e = (s.scanAt o).bigErr + 1 := if_pos he
      simp only [losesLock, hf, hbig, beq_self_eq_true, Bool.true_and, Bool.or_eq_true, decide_eq_true_eq]
      omega
    · simp [losesLock, hf, hp]
  simp [crossingState, crossed, hlost]

end

/-! ### A missing crossing and the slow axis (R160, R161, R177) -/

theorem execFastStop_crossed (h : crossingLost s o = false) : execFastStop o s = .next s :=
  if_pos (by simp [h])

theorem execFastStop_locked (h : crossingLost s o = true) (hf : (s.scanAt o).fast = 3) : execFastStop o s =
    .next (beamWatch (raise (s.modScan o fun y => { y with fast := 4, smallErr := 0 }) 0x0B11 (o + 2 * 2 ^ 8)) o 0 true) := by
  simp [execFastStop, h, hf, scanLost]

theorem execFastStop_unlocked (h : crossingLost s o = true) (hf : (s.scanAt o).fast ≠ 3) :
    execFastStop o s = .next (beamWatch s o 0 true) := by
  simp [execFastStop, h, hf]

section
variable {mean prev f : Nat} (hfire : (s.scanAt o).slowFire = some f) (hbegun : f ≤ 25 * s.tb.tick)
  (hends : 25 * s.tb.tick < f + 25 * scanTact (s.rt o) o) (hprev : (s.scanAt o).slowMean = some prev)
include hfire hbegun hends hprev

theorem execSlowStallWindow_slow (h : mean < prev + (s.rt o).fld (aScanBw o) 27 16) : execSlowStallWindow o mean s =
    .next (beamWatch (s.modScan o fun y => { y with slowMean := some mean, slowWindows := (s.scanAt o).slowWindows + 1 }) o 4
      (decide (2 ≤ (s.scanAt o).slowWindows + 1))) := by
  simp [execSlowStallWindow, hfire, hbegun, hends, hprev, h]

theorem execSlowStallWindow_advances (h : prev + (s.rt o).fld (aScanBw o) 27 16 ≤ mean) : execSlowStallWindow o mean s =
    .next (beamWatch (s.modScan o fun y => { y with slowMean := some mean, slowWindows := 0 }) o 4 false) := by
  simp [execSlowStallWindow, hfire, hbegun, hends, hprev, Nat.not_lt.2 h]

end

theorem execSlowStallWindow_noRamp
    (h : ∀ f, (s.scanAt o).slowFire = some f → 25 * s.tb.tick < f ∨ f + 25 * scanTact (s.rt o) o ≤ 25 * s.tb.tick) (mean : Nat) :
    execSlowStallWindow o mean s = .next (s.modScan o fun y => { y with slowMean := none, slowWindows := 0 }) := by
  cases hfire : (s.scanAt o).slowFire with
  | none => simp [execSlowStallWindow, hfire]
  | some f =>
    have hout : ¬ (f ≤ 25 * s.tb.tick ∧ 25 * s.tb.tick < f + 25 * scanTact (s.rt o) o) := by
      have := h f hfire
      omega
    simp [execSlowStallWindow, hfire, hout]

/-! ### The beam watches (R177, R178) -/

/-- The state with the condition of a beam watch marked. -/
def beamMarked (s : State) (o w : Nat) : State :=
  s.modGuard fun g => { g with beam := listSet g.beam o (withBit (nth s.guard.beam o 0) w true) }

theorem beamWatch_unwatched (h : watched s o = false) (w : Nat) (b : Bool) : beamWatch s o w b = s :=
  if_pos (by simp [h])

theorem beamWatch_begins {w : Nat} (h : watched s o = true) (hw : nbit (nth s.guard.beam o 0) w = false) :
    beamWatch s o w true = tripEvent (beamMarked s o w) 2 (o + w * 2 ^ 8) .internal := by
  simp [beamWatch, beamMarked, h, hw]

theorem beamWatch_lasts {w : Nat} (h : watched s o = true) (hw : nbit (nth s.guard.beam o 0) w = true) :
    beamWatch s o w true = beamMarked s o w := by
  simp [beamWatch, beamMarked, h, hw]

theorem nbit_beamMarked (w : Nat) (ho : o < s.guard.beam.length) : nbit (nth (beamMarked s o w).guard.beam o 0) w = true := by
  have hset : nth (beamMarked s o w).guard.beam o 0 = withBit (nth s.guard.beam o 0) w true := by
    simp [beamMarked, State.modGuard, nth, listSet, ho]
  rw [hset, nbit_withBit_true]
  simp

/-- Settles O45: the drive by its phase, a crossing by what it makes of the lock, and a watch by whether its condition is new. That
SCAN_LOCK_LOST carries its cause in bits 15:8 is the model's choice (notes/assumptions/56.md). -/
theorem beamMotion : Obligations.BeamMotion := by
  refine ⟨⟨fun s o => execFastAxisCapture_sweep, fun s o => execScanLockTimeout_unlocked,
      fun s o t peak hon hf => execFastAxisCrossing_first hon hf t peak, ?crossing⟩,
    ⟨fun s o => ⟨execFastStop_crossed, execFastStop_locked, execFastStop_unlocked⟩,
      fun s o mean prev f hfire hbegun hends hprev =>
        ⟨execSlowStallWindow_slow hfire hbegun hends hprev, execSlowStallWindow_advances hfire hbegun hends hprev⟩,
      fun s o mean h => execSlowStallWindow_noRamp h mean, fun s o w h => beamWatch_unwatched h w,
      fun s o w h => ⟨beamMarked s o w, rfl, rfl, beamWatch_begins h, beamWatch_lasts h, nbit_beamMarked w⟩⟩⟩
  case crossing =>
    rintro s o t peak e t0 p low phase hon hf htrack rfl rfl
    exact ⟨crossed s o t peak e t0 p, crossingState s o t peak e t0 p, crossed_tracker, execFastAxisCrossing_tracks hon hf htrack,
      crossing_locks, crossing_unlocked, crossing_staysLocked, crossing_losesLock⟩

end Sys2Proof.Machine
end

section
/-! SUPPORT. Sprue records written and read, the order of tiles and their dispatch, and what a commit and the start of an output tile
leave (R193, R200 to R202, R223, R230, R345). -/
namespace Sys2Proof.Machine

variable {s : State} {o t e : Nat} {f : FrameUC}

theorem nth_of_getElem? {α : Type} {l : List α} {i : Nat} {a : α} (h : l[i]? = some a) (d : α) : nth l i d = a := by
  simp [nth, h]

/-! ### Sprue records (R193) -/

section
variable {queue i : Nat} {r : SprueRec} (hi : (s.composer.sprue.findIdx? fun x => x.queue == queue && !x.linked) = some i)
  (hr : s.composer.sprue[i]? = some r)
include hi hr

theorem execSprueSpill_written : execSprueSpill queue true s = .next ((s.modHbm fun h => { h with
      mem := Memory.store ramDefault h.mem (sprueAddr r.idx) (sprueBytes r (spillPointer s queue)) }).modComposer fun x => { x with
        sprue := listSet x.sprue i { r with linked := true }, spill := (queue, r.idx) :: x.spill.filter fun e => e.1 != queue }) := by
  simp only [execSprueSpill, hi, nth_of_getElem? hr, if_true]

theorem execSprueSpill_repeated (h : r.tries < 2) : execSprueSpill queue false s =
    .next (s.modComposer fun x => { x with sprue := listSet x.sprue i { r with tries := r.tries + 1 } }) := by
  simp only [execSprueSpill, hi, nth_of_getElem? hr, Bool.false_eq_true, if_false, if_pos h]

theorem execSprueSpill_poisons (h : 2 ≤ r.tries) (ho : queueOwner s queue = some o) :
    execSprueSpill queue false s = .next (sprueFail s o queue) := by
  simp only [execSprueSpill, hi, nth_of_getElem? hr, Bool.false_eq_true, if_false, if_neg (Nat.not_lt.mpr h), ho]

end

section
variable {q i : Nat} {r : SprueRec} (hi : (s.composer.sprue.findIdx? fun x => x.queue == q) = some i) (hr : s.composer.sprue[i]? = some r)
include hi hr

theorem refillFailed_again (o : Nat) (h : r.reads < 2) : refillFailed s o q =
    s.modComposer fun x => { x with sprue := listSet x.sprue i { r with reads := r.reads + 1 } } := by
  simp only [refillFailed, hi, nth_of_getElem? hr, if_pos h]

theorem refillFailed_poisons (o : Nat) (h : 2 ≤ r.reads) : refillFailed s o q = sprueFail s o q := by
  simp only [refillFailed, hi, nth_of_getElem? hr, if_neg (Nat.not_lt.mpr h)]

end

/-! ### The order of tiles (R200) -/

/-- What tiles are ordered by: deadline, then output, then tile number. -/
def tileKey (s : State) (a : Nat × Nat) : ℚ ×ₗ ℕ ×ₗ ℕ := toLex (frameDeadline s a.1, toLex a)

theorem tileAhead_iff {a b : Nat × Nat} : tileAhead s a b = true ↔ tileKey s a < tileKey s b := by
  simp [tileAhead, tileKey, Prod.Lex.toLex_lt_toLex]

theorem firstTile_eq_none {l : List (Nat × Nat)} (h : firstTile s l = none) : l = [] := by
  cases l with
  | nil => rfl
  | cons a r =>
    rw [firstTile] at h
    split at h <;> cases h

/-- The first tile is one of them, and none has a lower key. -/
theorem firstTile_least {l : List (Nat × Nat)} {a : Nat × Nat} (h : firstTile s l = some a) :
    a ∈ l ∧ ∀ b ∈ l, tileKey s a ≤ tileKey s b := by
  induction l generalizing a with
  | nil => cases h
  | cons c r ih =>
    cases hr : firstTile s r with
    | none =>
      obtain rfl := firstTile_eq_none hr
      obtain rfl : c = a := by simpa [firstTile] using h
      simp
    | some b =>
      obtain ⟨hb, hleast⟩ := ih hr
      simp only [firstTile, hr, Option.some.injEq, tileAhead_iff] at h
      split at h
      · next hlt =>
        subst h
        exact ⟨List.mem_cons_of_mem _ hb, List.forall_mem_cons.mpr ⟨hlt.le, hleast⟩⟩
      · next hle =>
        subst h
        exact ⟨List.mem_cons_self, List.forall_mem_cons.mpr ⟨le_rfl, fun x hx => (not_lt.mp hle).trans (hleast x hx)⟩⟩

theorem firstTile_not_behind {l : List (Nat × Nat)} {a b : Nat × Nat} (h : firstTile s l = some a) (hb : b ∈ l) :
    tileAhead s b a = false := by
  rw [← Bool.not_eq_true, tileAhead_iff, not_lt]
  exact (firstTile_least h).2 b hb

/-! ### Dispatch (R200, R201) -/

theorem execBinningDone_linked (hf : (s.compAt o).fuc = some f) (hp : f.phase = .binning) (h : ∀ r ∈ s.composer.sprue, r.linked = true) :
    execBinningDone o s = .next (preempt 16 (s.modComp o fun c =>
      { c with fuc := some { f with phase := .composing, tiles := f.tiles.map fun _ => .eligible } })) := by
  have hall : ¬ (s.composer.sprue.any fun r => !r.linked && decide ((s.compAt o).qbase ≤ r.queue) &&
      decide (r.queue < (s.compAt o).qbase + (s.compAt o).ntiles)) = true := by
    simp only [List.any_eq_true, not_exists, not_and]
    intro r hr
    simp [h r hr]
  simp only [execBinningDone, hf]
  exact if_pos ⟨hp, hall⟩

theorem execTileDispatch_free (h : nth s.composer.engines e none = none) : execTileDispatch e s = .next (dispatch s e) := by
  simp [execTileDispatch, h]

section
variable (h : firstTile s (tilesIn s isWaiting) = some (o, t))
include h

theorem dispatch_frame : dispatch s e = (setTile s o t (.running e)).modComposer fun x => { x with
    engines := (dispatch s e).composer.engines, resumed := (dispatch s e).composer.resumed
    contexts := (dispatch s e).composer.contexts } := by
  simp only [dispatch, h]
  rfl

theorem dispatch_engines : (dispatch s e).composer.engines = listSet s.composer.engines e (some (o, t)) := by
  simp only [dispatch, h]
  rfl

theorem dispatch_resumed : (dispatch s e).composer.resumed = listSet s.composer.resumed e (slotOf s o t) := by
  simp only [dispatch, h]
  rfl

/-- The contexts that a dispatched tile leaves are those of other tiles. -/
theorem mem_dispatch_contexts (c : TileCtx) :
    some c ∈ (dispatch s e).composer.contexts ↔ some c ∈ s.composer.contexts ∧ ¬ (c.out = o ∧ c.tile = t) := by
  simp only [dispatch, h]
  change some c ∈ s.composer.contexts.map _ ↔ _
  rw [List.mem_map]
  constructor
  · rintro ⟨k, hk, hc⟩
    split at hc
    · split at hc
      · cases hc
      · cases hc
        exact ⟨hk, ‹_›⟩
    · cases hc
  · rintro ⟨hc, hother⟩
    exact ⟨some c, hc, if_neg hother⟩

end

theorem dispatch_none (h : tilesIn s isWaiting = []) : dispatch s e = s := by
  simp [dispatch, h, firstTile]

/-! ### Commit (R193, R202, R223, R345) -/

/-- What the commit of an engine's tile leaves: its pixels on the canvas and, with the warp on, in the warp canvas, the tile committed,
and its entries, records and faults released. -/
def tileCommitted (s : State) (o : Nat) (f : FrameUC) (t e stall : Nat) : State :=
  finishFrame (dropFaults
    (((writeWarp s o f (composeTile s o f t (nth s.composer.resumed e none))).modComp o fun c => { c with
      stalls := c.stalls + stall
      warpFirst := some (c.warpFirst.getD s.tb.tick)
      fuc := some { f with
        tiles := listSet f.tiles t .committed
        entries := f.entries.filter fun x => x.1 != t
        canvas := (composeTile s o f t (nth s.composer.resumed e none)).foldl (fun m p => Sparse.set (fun _ => 0) m p.1 p.2) f.canvas } })
      |>.modComposer fun x => { x with
        engines := listSet x.engines e none, resumed := listSet x.resumed e none
        sprue := x.sprue.filter fun r => r.queue != (s.compAt o).qbase + t
        spill := x.spill.filter fun y => y.1 != (s.compAt o).qbase + t })
    ((s.compAt o).qbase + t)) o

/-- A tile of a composing frame none of whose fragments faults commits, unless the read of its records fails. -/
theorem execTileCommit_running (he : nth s.composer.engines e none = some (o, t)) (hf : (s.compAt o).fuc = some f)
    (hp : f.phase = .composing) (hfault : tileFaults s o t = false) (ok : Bool) (stall : Nat) :
    execTileCommit e ok stall s = if !ok && s.composer.sprue.any fun r => r.queue == (s.compAt o).qbase + t then
      .next (refillFailed s o ((s.compAt o).qbase + t)) else .next (tileCommitted s o f t e stall) := by
  simp only [execTileCommit, he, hf]
  exact if_neg (by simp [hp, hfault])

theorem writeWarp_off (h : f.snap.cfg.bit (aPixCtrl o) 3 = false) (px : List (Nat × Nat)) : writeWarp s o f px = s := by
  simp [writeWarp, h]

theorem nth_of_forall_eq {α : Type} {l : List α} {a : α} (h : ∀ x ∈ l, x = a) {i : Nat} (hi : i < l.length) (d : α) : nth l i d = a := by
  rw [nth_of_getElem? (List.getElem?_eq_getElem hi)]
  exact h _ (List.getElem_mem hi)

/-- With every canvas tile committed, those in a footprint are (R223). -/
theorem execWarpTileStart_starts {tile : Nat} (hf : (s.compAt o).fuc = some f) (hw : f.snap.cfg.bit (aPixCtrl o) 3 = true)
    (hp : f.phase = .composing ∨ f.phase = .complete) (hn : tile ∉ f.warpDone) (ht : tile < f.tiles.length)
    (hall : ∀ x ∈ f.tiles, x = .committed) : execWarpTileStart o tile s = .next (s.modComp o fun c => { c with
      fuc := some { f with warpDone := tile :: f.warpDone }
      warpWait := if f.warpDone.length + 1 = f.tiles.length then s.tb.tick - c.warpFirst.getD s.tb.tick else c.warpWait }) := by
  simp only [execWarpTileStart, hf]
  refine (if_neg ?_).trans (if_pos ?_)
  · rcases hp with hp | hp <;> simp [hw, hn, ht, hp]
  · rw [List.all_eq_true]
    intro x hx
    have hlt : x < f.tiles.length := by
      split at hx
      · cases hx
      · exact List.mem_range.mp (List.mem_of_mem_filter hx)
    simp [nth_of_forall_eq hall hlt]

/-- Settles O21: a record's write and read by how often it has failed, dispatch by the first tile of the order, and a commit by whether
its records were read. That NEXT holds the former spill pointer, the chain newest first, is the model's choice
(notes/assumptions/109.md). -/
theorem tilesAreComposed : Obligations.TilesAreComposed := by
  refine ⟨fun s queue i r hi hr => ⟨execSprueSpill_written hi hr, execSprueSpill_repeated hi hr, fun h o => execSprueSpill_poisons hi hr h⟩,
    ⟨fun s o f => execBinningDone_linked, fun s e o t he ht => ?dispatched, fun s e he hnone => ?idle,
      fun s l a h => ⟨(firstTile_least h).1, fun b => firstTile_not_behind h⟩⟩,
    ⟨fun s e ok stall o t f he hf hp hfault => ⟨fun hok => ?committed, fun hany => ?refill⟩,
      fun s o q i r hi hr => ⟨refillFailed_again hi hr o, refillFailed_poisons hi hr o⟩, fun s o f px h => writeWarp_off h px,
      fun s o tile f => execWarpTileStart_starts⟩⟩
  case dispatched =>
    exact ⟨dispatch s e, execTileDispatch_free he, dispatch_frame ht, dispatch_engines ht, dispatch_resumed ht, mem_dispatch_contexts ht⟩
  case idle => exact (execTileDispatch_free he).trans (congrArg _ (dispatch_none hnone))
  case committed => exact (execTileCommit_running he hf hp hfault ok stall).trans (if_neg (by rcases hok with h | h <;> simp [h]))
  case refill => exact (execTileCommit_running he hf hp hfault false stall).trans (if_pos hany)

end Sys2Proof.Machine
end

section
/-! SUPPORT. What the recovery of a poisoned frame does to the settings of the layers whose translation faulted (R205, R414). -/
namespace Sys2Proof.Machine

variable {s : State} {o : Nat} {f : FrameUC}

/-! ### Layers disabled in a word map -/

/-- The word map with one layer disabled. -/
def layerOff (m : WordMap) (l : Nat) : WordMap := m.set (aLayer l) (BitVec.ofNat 32 (m.nat (aLayer l) / 2 * 2))

/-- Layers are disabled in the settings in force and in the staged settings alike. -/
theorem foldl_disableLayer_settings (ls : List Nat) (s : State) :
    (ls.foldl disableLayer s).act = ls.foldl layerOff s.act ∧ (ls.foldl disableLayer s).ladle.stg = ls.foldl layerOff s.ladle.stg := by
  induction ls generalizing s with
  | nil => exact ⟨rfl, rfl⟩
  | cons l ls ih => exact ih (disableLayer s l)

/-- In a canonical map a layer is enabled after another is disabled exactly where it was. -/
theorem lyEnable_layerOff {m : WordMap} (hm : Sparse.wf cfgDefault m = true) (k l : Nat) :
    lyEnable (layerOff m k) l = (decide (l ≠ k) && lyEnable m l) := by
  rw [lyEnable, WordMap.bit, WordMap.nat, layerOff, WordMap.get_set hm]
  by_cases h : l = k
  · subst h
    simp [nbit, WordMap.nat]
  · rw [if_neg (by unfold aLayer; omega)]
    simp [h, lyEnable, WordMap.bit, WordMap.nat]

theorem lyEnable_foldl_layerOff (ls : List Nat) {m : WordMap} (hm : Sparse.wf cfgDefault m = true) (l : Nat) :
    lyEnable (ls.foldl layerOff m) l = (decide (l ∉ ls) && lyEnable m l) := by
  induction ls generalizing m with
  | nil => simp
  | cons k ls ih =>
    have hwf : Sparse.wf cfgDefault (layerOff m k) = true := WordMap.wf_set hm _ _
    rw [List.foldl, ih hwf, lyEnable_layerOff hm]
    simp [Bool.and_assoc, Bool.and_left_comm]

/-! ### The recovery -/

/-- A poisoned frame released, its faulted layers disabled and noted, before COMPOSE_RECOVERED is raised. -/
def layersDisabled (s : State) (o : Nat) (f : FrameUC) : State :=
  ((f.faulted.foldl disableLayer { releaseFrame s o .poisoned with log := { s.log with recovering := s.log.recovering.erase (0x0705, o) } }
    ).modComposer fun x => { x with disabledByFault := x.disabledByFault.filter (!f.faulted.contains ·) ++ f.faulted }
    ).modComp o fun c => { c with fuc := c.fuc.map fun g => { g with faulted := [] } }

theorem execComposeRecovered_recovers (hf : (s.compAt o).fuc = some f) (hp : f.phase = .poisoned)
    (hr : s.log.recovering.contains (0x0705, o) = true) : execComposeRecovered o s =
      .next (recoveredAll (raise (layersDisabled s o f) 0x0706 0x0705) [0x0606, 0x0709] o) := by
  have hr' : (releaseFrame s o .poisoned).log.recovering.contains (0x0705, o) = true := hr
  simp only [execComposeRecovered, recoverFrame, hf, hp, ne_eq, not_true_eq_false, if_false, if_pos hr']
  rfl

theorem recovered_raise_ladle (s : State) (code data : Nat) (codes : List Nat) (key : Nat) :
    (recoveredAll (raise s code data) codes key).ladle = s.ladle :=
  ((logged_raise code data).trans (logged_foldl _ (fun _ c => logged_recovered c key) codes)).ladle

/-- Where both copies of the settings are in canonical form, the recovery leaves every faulted layer disabled in both. -/
theorem lyEnable_layersDisabled (hact : Sparse.wf cfgDefault s.act = true) (hstg : Sparse.wf cfgDefault s.ladle.stg = true) {l : Nat}
    (hl : l ∈ f.faulted) : lyEnable (layersDisabled s o f).act l = false ∧ lyEnable (layersDisabled s o f).ladle.stg l = false := by
  obtain ⟨ha, hs⟩ := foldl_disableLayer_settings f.faulted
    { releaseFrame s o .poisoned with log := { s.log with recovering := s.log.recovering.erase (0x0705, o) } }
  constructor
  · exact (congrArg (lyEnable · l) ha).trans ((lyEnable_foldl_layerOff f.faulted hact l).trans (by simp [hl]))
  · exact (congrArg (lyEnable · l) hs).trans ((lyEnable_foldl_layerOff f.faulted hstg l).trans (by simp [hl]))

/-! ### Settings that are not in canonical form -/

/-- A map that lists the descriptor of layer 0 twice, enabled each time. -/
def doubledLayer : WordMap := [(aLayer 0, 1), (aLayer 0, 1)]

/-- A poisoned frame whose layer 0 faulted. -/
def faultedFrame : FrameUC :=
  { frame := 1, snap := { cfg := [], flux := [] }, prog := 0, still := false, phase := .poisoned, start := 0, dither := 0, reduced := false
    mark := none, sources := [], tiles := [], entries := [], warpDone := [], canvas := [], faulted := [0] }

/-- That frame on every output, its recovery on output 0 under way, with the doubled map in force. -/
def doubledState : State := { State.reset with
  comp := List.replicate 4 { fuc := some faultedFrame }
  log := { State.reset.log with recovering := [(0x0705, 0)] }
  ladle := { State.reset.ladle with act := doubledLayer } }

/-- Disabling the layer removes one of the two entries, and the other stays in force. -/
theorem lyEnable_doubledLayer_layerOff : lyEnable (layerOff doubledLayer 0) 0 = true := by
  decide

/-- Refutes O22: `wellShaped` does not ask for canonical settings, so a state may list a layer's descriptor twice in those in force; the
recovery then removes only the first entry, and the faulted layer stays enabled. Where both copies are canonical every faulted layer is
disabled, as `lyEnable_layersDisabled` says. -/
theorem not_composeFaultsPoisonTheFrame : ¬ Obligations.ComposeFaultsPoisonTheFrame := by
  rintro ⟨-, -, hrecover⟩
  obtain ⟨u, hexec, -, hoff, -⟩ := hrecover doubledState 0 faultedFrame rfl rfl rfl rfl
  have hsame := Host.Outcome.next.inj (hexec.symm.trans (execComposeRecovered_recovers (s := doubledState) (o := 0) rfl rfl rfl))
  have hact : u.act = layerOff doubledLayer 0 := by
    have hladle := congrArg State.ladle hsame
    rw [recovered_raise_ladle, recovered_raise_ladle] at hladle
    exact (congrArg LadleState.act hladle).trans (foldl_disableLayer_settings [0] doubledState).1
  have hdisabled := (hoff 0 List.mem_cons_self).2.1
  rw [hact, lyEnable_doubledLayer_layerOff] at hdisabled
  cases hdisabled

end Sys2Proof.Machine
end

section
/-! SUPPORT. Misses, and what becomes of a walk that has finished (R187, R335, R336, R340, R343 to R345). -/
namespace Sys2Proof.Machine

variable {s : State}

/-! ### Misses (R187, R336) -/

section
variable {i ofs r e : Nat}

/-- A miss starts a walk; one for a host access after the revoke point is marked as gone (R340). -/
theorem execTlbMiss_starts (hfind : tlbFind s i (ofs / 2 ^ (s.surfAt i).pageLog) = none) (hlen : s.surf.walks.length < 8)
    (hr : r < 9 ∨ 12 < r ∨ r = engineRunner e) (w : Bool) (o l q f : Nat) : execTlbMiss i ofs r e w o l q f s =
      .next (s.modSurf fun m => { m with walks := m.walks ++ [⟨i, ofs, r, e, w, o, l, q, f, decide (r = 8 ∧ (s.surfAt i).st = 3)⟩] }) := by
  refine (if_neg ?_).trans ?_
  · rw [hfind]
    simp only [Option.isSome_none, Bool.false_eq_true, false_or]
    omega
  · simp [Bool.decide_and, beq_eq_decide]

theorem execTlbMiss_otherRunner (h9 : 9 ≤ r) (h12 : r ≤ 12) (hr : r ≠ engineRunner e) (w : Bool) (o l q f : Nat) :
    execTlbMiss i ofs r e w o l q f s = .next s :=
  if_pos (.inr (.inr ⟨h9, h12, hr⟩))

end

/-! ### Finished walks (R336, R343 to R345) -/

/-- The slot of a finished walk is free again. -/
def walkFreed (s : State) (k : Nat) : State := s.modSurf fun m => { m with walks := m.walks.eraseIdx k }

/-- What a finished walk has found: a page, or the kind of its fault, 3 where its surface went in the meantime (R336, R340). -/
def walkResult (s : State) (k : Nat) (w : Walk) (poison : Bool) : Nat × Option Nat :=
  if w.gone then (3, none) else walkTables (walkFreed s k) w.surf w.offset false poison

section
variable {k kind : Nat} {w : Walk} {poison : Bool} (hw : s.surf.walks[k]? = some w)

theorem walkResult_live (h : w.gone = false) : walkResult s k w poison = walkTables (walkFreed s k) w.surf w.offset false poison :=
  if_neg (by simp [h])

theorem walkResult_fault (h : (w.gone = true ∧ kind = 3) ∨
    (w.gone = false ∧ walkTables (walkFreed s k) w.surf w.offset false poison = (kind, none))) :
    walkResult s k w poison = (kind, none) := by
  obtain ⟨hgone, rfl⟩ | ⟨hlive, hwalk⟩ := h
  · exact if_pos hgone
  · exact (walkResult_live hlive).trans hwalk

include hw

theorem execTlbWalkDone_enters {z phys : Nat} (h : walkResult s k w poison = (z, some phys)) : execTlbWalkDone k poison s =
    .next (tlbEnter (walkFreed s k) w.surf (w.offset / 2 ^ (s.surfAt w.surf).pageLog) phys) := by
  simp only [walkResult, walkFreed] at h
  simp only [execTlbWalkDone, hw, h]
  rfl

/-- A walk's fault is held for a layer fetch, recorded and reported for a host access, and recorded for every other Runner (R344,
R345). -/
theorem execTlbWalkDone_faults (h : walkResult s k w poison = (kind, none)) : execTlbWalkDone k poison s =
    if 9 ≤ w.runner ∧ w.runner ≤ 12 then
      .next ((walkFreed s k).modSurf fun m => { m with heldFaults := m.heldFaults ++ [(w, kind)] })
    else if w.runner = 8 then
      .next (raiseLimited (recordXlate (walkFreed s k) w kind) 0x0406 0 (xlateData w.surf kind) oneSecond .bar0)
    else .next (recordXlate (walkFreed s k) w kind) := by
  simp only [walkResult, walkFreed] at h
  simp only [execTlbWalkDone, hw, h]
  rfl

end

/-! ### Walks of the tables (R335, R340, R343) -/

theorem walkTables_beyond {i ofs : Nat} (hst : (s.surfAt i).st = 2) (h : (s.surfAt i).bytes ≤ ofs) (host poison : Bool) :
    walkTables s i ofs host poison = (1, none) :=
  (if_neg (by simp [hst])).trans (if_pos h)

theorem walkTables_revoked {i : Nat} (hst : (s.surfAt i).st = 3) (ofs : Nat) (poison : Bool) :
    walkTables s i ofs true poison = (3, none) :=
  if_pos (by simp [hst])

/-- Settles O40: a miss by its Runner, a finished walk by what it found and for whom, a walk of the tables by the surface's state. -/
theorem translationWalks : Obligations.TranslationWalks := by
  refine ⟨fun s i ofs r e w o l q f hfind hlen => ⟨fun hr => execTlbMiss_starts hfind hlen hr w o l q f,
      fun h9 h12 hr => execTlbMiss_otherRunner h9 h12 hr w o l q f⟩,
    ?finished, fun s i ofs host poison hst h => walkTables_beyond hst h host poison,
    fun s i ofs poison hst => walkTables_revoked hst ofs poison⟩
  rintro s u k w poison hw rfl
  refine ⟨fun z phys hlive hwalk => execTlbWalkDone_enters hw ((walkResult_live hlive).trans hwalk), fun kind hkind => ?_⟩
  have hdone := execTlbWalkDone_faults hw (walkResult_fault hkind)
  refine ⟨fun h9 h12 => hdone.trans (if_pos ⟨h9, h12⟩), fun h8 => ?host, fun hother => ?other⟩
  case host => exact hdone.trans ((if_neg (by omega)).trans (if_pos h8))
  case other => exact hdone.trans ((if_neg (by omega)).trans (if_neg (by omega)))

end Sys2Proof.Machine
end

section
/-! SUPPORT. The next frame start of a generator, with and without a reference, and a reference kept or lost (R232, R235 to R237). -/
namespace Sys2Proof.Machine

variable {s : State} {o : Nat}

theorem modTg_modTg (s : State) (o : Nat) (f g : TgState → TgState) : (s.modTg o f).modTg o g = s.modTg o (g ∘ f) :=
  congrArg (fun l => { s with tg := l }) (upd_upd s.tg o f g)

/-! ### The next frame start (R232, R236, R237) -/

/-- Without a reference the next frame start lies one nominal period on (R232). -/
theorem nextStart_free (h : genRef s (s.rt o) o (s.tgAt o).den (s.tgAt o).pos = none) : nextStart s o =
    s.modTg o fun t => { t with len := periodUnits s o, pos := t.pos + periodUnits s o, stretching := false } := by
  simp only [nextStart, h]

/-- Whether the frame is stretched over the error `e` (R237). -/
def stretches (s : State) (o : Nat) (e : Int) : Bool :=
  (s.rt o).bit (aTgCfg o) 15 && decide ((periodUnits s o : Int) < 8 * e.natAbs)

/-- The length of a frame that follows a reference with the error `e` (R236, R237). -/
def followedLen (s : State) (o : Nat) (e : Int) : Nat :=
  if stretches s o e then periodUnits s o + (e % (periodUnits s o : Int)).toNat else (pulledLen (periodUnits s o) e).toNat

/-- How many frames in a row lay within 2 fine steps, with one of the error `e`; 16 lock the generator (R236). -/
def goodFrames (t : TgState) (e : Int) : Nat := if e.natAbs ≤ 2 * t.den then min 16 (t.goodRun + 1) else 0

/-- How many frames in a row lay beyond 40 fine steps, with one of the error `e`; 4 unlock the generator (R236). -/
def badFrames (t : TgState) (e : Int) : Nat := if 40 * t.den < e.natAbs then min 4 (t.badRun + 1) else 0

/-- A generator that has placed its next frame start by a reference with the error `e`. -/
def followed (s : State) (o : Nat) (e : Int) (t : TgState) : TgState := { t with
  err := divAway e (s.tgAt o).den, len := followedLen s o e, pos := t.pos + followedLen s o e, stretching := stretches s o e
  goodRun := goodFrames (s.tgAt o) e, badRun := badFrames (s.tgAt o) e
  locked := (t.locked || (!(s.tgAt o).locked && decide (goodFrames (s.tgAt o) e = 16))) &&
    !((s.tgAt o).locked && decide (badFrames (s.tgAt o) e = 4)) }

/-- With a reference the generator follows it; what is raised beside touches the log alone. -/
theorem logged_nextStart {r : Int} (h : genRef s (s.rt o) o (s.tgAt o).den (s.tgAt o).pos = some r) :
    Logged (s.modTg o (followed s o (genErr (s.tgAt o) (tgNum (s.rt o) o) (tgPhase (s.rt o) o) r))) (nextStart s o) := by
  simp only [nextStart, h]
  exact ((logged_ite _ (logged_raise _ _)).trans (logged_ite _ (logged_raise _ _))).trans (logged_ite _ (logged_raise _ _))

theorem tgAt_nextStart {r : Int} (ho : o < s.tg.length) (h : genRef s (s.rt o) o (s.tgAt o).den (s.tgAt o).pos = some r) :
    (nextStart s o).tgAt o = followed s o (genErr (s.tgAt o) (tgNum (s.rt o) o) (tgPhase (s.rt o) o) r) (s.tgAt o) := by
  rw [State.tgAt, (logged_nextStart h).tg, ← State.tgAt, State.tgAt_same _ _ _ ho]

/-- A pulled frame differs from the period by at most 1/2,000 of it, and by the rounding (R232, R236). -/
theorem pulledLen_near (p : Nat) (e : Int) :
    2000 * (pulledLen p e).toNat ≤ 2001 * p + 1000 ∧ 1999 * p ≤ 2000 * (pulledLen p e).toNat + 1000 := by
  have hnonneg : 0 ≤ 2000 * (p : Int) + clampInt (-p) p (250 * e) := by unfold clampInt; omega
  rw [pulledLen, divAway, if_pos hnonneg, clampInt]
  omega

/-- A generator is locked after a frame that followed a reference when it was and 4 bad frames have not come, or when it was not and 16
good ones have (R236). -/
theorem followed_locked_iff (s : State) (o : Nat) (e : Int) : (followed s o e (s.tgAt o)).locked = true ↔
    ((s.tgAt o).locked = true ∧ badFrames (s.tgAt o) e ≠ 4) ∨ ((s.tgAt o).locked = false ∧ goodFrames (s.tgAt o) e = 16) := by
  cases h : (s.tgAt o).locked <;> simp [followed, h]

/-! ### References kept and lost (R235, R236) -/

/-- Whether the reference of a generator on SYNC_IN is gone, by its last edge. -/
theorem genRefGone_modTg_ref (ho : o < s.tg.length) (hg : genSrc (s.rt o) o = 1) (instant : Nat) :
    genRefGone (s.modTg o fun t => { t with ref := some instant, refPrev := t.ref }) o = longPast s o (some instant) := by
  have hg' : genSrc ((s.modTg o fun t => { t with ref := some instant, refPrev := t.ref }).rt o) o = 1 := hg
  simp only [genRefGone, hg', State.tgAt_same _ _ _ ho]
  rfl

theorem execGenlockReference_near (ho : o < s.tg.length) (hg : genSrc (s.rt o) o = 1) {instant : Nat}
    (h : longPast s o (some instant) = false) : execGenlockReference o instant s =
      .next (s.modTg o fun t => { t with ref := some instant, refPrev := t.ref, refLost := false }) := by
  rw [execGenlockReference, if_pos hg, genRefGone_modTg_ref ho hg, h, modTg_modTg]
  rfl

theorem execGenlockReference_past (ho : o < s.tg.length) (hg : genSrc (s.rt o) o = 1) {instant : Nat}
    (h : longPast s o (some instant) = true) : execGenlockReference o instant s =
      .next (s.modTg o fun t => { t with ref := some instant, refPrev := t.ref }) := by
  rw [execGenlockReference, if_pos hg, genRefGone_modTg_ref ho hg, h, if_pos rfl]

/-- An instant of another source brings no new edge (R235). -/
theorem execGenlockReference_otherSource (hg : genSrc (s.rt o) o ≠ 1) (instant : Nat) : execGenlockReference o instant s =
    .next (if genRefGone s o then s else s.modTg o fun t => { t with refLost := false }) := by
  rw [execGenlockReference, if_neg hg]

/-- A generator that runs free has no reference to lose (R236). -/
theorem genSrc_ne_zero_of_gone (h : genRefGone s o = true) : genSrc (s.rt o) o ≠ 0 := by
  intro h0
  simp [genRefGone, h0] at h

/-- A generator without its reference, unlocked (R236). -/
def unreferenced (t : TgState) : TgState :=
  { t with refLost := true, ref := none, refPrev := none, locked := false, goodRun := 0, badRun := 0 }

theorem execTgRefLost_gone (h : genRefGone s o = true) (hl : (s.tgAt o).refLost = false) : execTgRefLost o s =
    .next (if (s.tgAt o).locked then raise (s.modTg o unreferenced) 0x0221 o else s.modTg o unreferenced) := by
  rw [execTgRefLost, if_pos h, loseGenRef, if_neg (by simp [genSrc_ne_zero_of_gone h, hl])]
  rfl

theorem execTgRefLost_kept (h : genRefGone s o = false) : execTgRefLost o s = .next s := by
  simp [execTgRefLost, h]

/-- Settles O17: the next frame start by whether a reference counts for it, an instant by its source, a loss by whether it is one. -/
theorem generatorReferences : Obligations.GeneratorReferences := by
  refine ⟨fun s o hw => ?next, fun s o instant hw hg => ?edge, fun s o instant hg => ?other, fun s o h hl => ?lost,
    fun s o h => execTgRefLost_kept h⟩
  case next =>
    obtain ⟨-, ho, -⟩ := lt_lengths hw o
    refine ⟨fun h => ?_, fun r e t h he ht => ?_⟩
    · rw [nextStart_free h, State.tgAt_same _ _ _ ho]
      exact ⟨rfl, rfl, rfl⟩
    · rw [tgAt_nextStart ho h, ← he] at ht
      subst ht
      refine ⟨rfl, fun hs => if_pos hs, fun hs => ?_, ?_, rfl, rfl, followed_locked_iff s o e⟩
      · have hlen : (followed s o e (s.tgAt o)).len = (pulledLen (periodUnits s o) e).toNat := if_neg (Bool.eq_false_iff.1 hs)
        rw [hlen]
        exact ⟨rfl, pulledLen_near _ _⟩
      · simp only [followed, stretches, Bool.and_eq_true, decide_eq_true_eq]
        exact and_congr_right fun _ => by omega
  case edge =>
    obtain ⟨-, ho, -⟩ := lt_lengths hw o
    exact ⟨execGenlockReference_near ho hg, execGenlockReference_past ho hg⟩
  case other =>
    refine ⟨fun h => ?_, fun h => ?_⟩
    all_goals
      rw [exec, execGenlockReference_otherSource hg, h]
      rfl
  case lost =>
    refine ⟨fun hk => ?_, fun hk => ?_⟩
    all_goals
      rw [exec, execTgRefLost_gone h hl, hk]
      rfl

end Sys2Proof.Machine
end

section
/-! SUPPORT. The first start of a generator on its new timing, and the disables that retire (R255, R257). -/
namespace Sys2Proof.Machine

variable {s : State} {o since : Nat}

/-! ### The first start of a new timing (R255) -/

/-- A generator that runs on its new settings, its first start counted. -/
def restartCounted (s : State) (o since : Nat) : State :=
  let stays := (s.outAt o).mode = 1 ∨ (s.outAt o).exit ≠ .none_
  (takeSettings (s.modTg o fun t => { t with tm := if stays then .idle else .restarted since, running := true }) o s.act).modTg o fun t =>
    { t with
      counter := t.counter + 1, pos := t.pos * max 1 (tgDen s.act o) / t.den, den := max 1 (tgDen s.act o), ctaken := false
      composeStopped := t.composeStopped && decide stays }

/-- Beyond the count, a first start keeps the core: links, buffers, the frame start and the fast axis are none of it. -/
theorem core_restartTiming (s : State) (o since : Nat) : (restartTiming s o since).core = (restartCounted s o since).core := by
  simp [restartTiming, restartCounted]

/-- The settings that come into force before the count. -/
theorem core_takeSettings_running (s : State) (o : Nat) (tm : TmStep) (new : WordMap) :
    (takeSettings (s.modTg o fun t => { t with tm := tm, running := true }) o new).core = s.core := by
  simp

theorem memories_restartTiming (s : State) (o since : Nat) : (restartTiming s o since).memories = s.memories := by
  rw [memories_of_core (core_restartTiming s o since), restartCounted, memories_modTg, memories_of_core (core_takeSettings_running _ _ _ _)]

theorem counter_restartTiming (ho : o < s.tg.length) (since : Nat) : ((restartTiming s o since).tgAt o).counter = (s.tgAt o).counter + 1 := by
  have hcore := core_takeSettings_running s o (if (s.outAt o).mode = 1 ∨ (s.outAt o).exit ≠ .none_ then .idle else .restarted since) s.act
  have hlt := tg_length_of_shape (shape_of_core hcore) ▸ ho
  rw [counter_of_core (core_restartTiming s o since), restartCounted, State.tgAt_same _ _ _ hlt]
  exact congrArg (· + 1) (counter_of_core hcore o)

theorem counter_restartTiming_of_ne {p : Nat} (hp : p ≠ o) : ((restartTiming s o since).tgAt p).counter = (s.tgAt p).counter := by
  rw [counter_of_core (core_restartTiming s o since), restartCounted, State.tgAt_other _ _ _ _ hp,
    counter_of_core (core_takeSettings_running _ _ _ _)]

/-- A PLANE output that is shown, with a partition, tells its array to unpark (R255 step 4). -/
theorem restartTiming_unparks (hscan : isScan s.act o = false) (hmode : (s.outAt o).mode ≠ 1) (hexit : (s.outAt o).exit = .none_)
    (hfs : fsSize s.act o ≠ 0) (since : Nat) :
    ∃ u : State, restartTiming s o since = if (u.portAt o).link = 5 then portSend u o 0x11 0 else u := by
  simp only [restartTiming, hscan, hmode, hexit, hfs, ne_eq, not_true_eq_false, or_self, if_false, Bool.false_eq_true]
  exact ⟨_, rfl⟩

section
variable (htm : (s.tgAt o).tm = .fixed since)
include htm

theorem execTgRestart_early (h : s.tb.tick < (posInstant (s.tgAt o) (s.tgAt o).pos).1) : execTgRestart o s = .next s := by
  simp only [execTgRestart, htm, if_neg (Nat.not_le.2 h)]

theorem execTgRestart_due (h : (posInstant (s.tgAt o) (s.tgAt o).pos).1 ≤ s.tb.tick) :
    execTgRestart o s = .next (restartTiming s o since) := by
  simp only [execTgRestart, htm, if_pos h]

end

/-! ### Retired disables (R257) -/

section
variable {k : Nat} {d : Retire} (hd : s.ladle.disables[k]? = some d)
include hd

theorem execDisableDone_retired (h : retired s d = true) : execDisableDone k s =
    .next (raise (s.modLadle fun l => { l with disables := l.disables.eraseIdx k }) 0x0106 (disableData d)) := by
  simp only [execDisableDone, hd, if_pos h]

theorem execDisableDone_inFlight (h : retired s d = false) : execDisableDone k s = .next s := by
  simp only [execDisableDone, hd, h, Bool.false_eq_true, if_false]

end

/-- Settles O19: a first start by its instant, its count and memories by the core it keeps, a disable by whether its work has retired. -/
theorem restartsAndDisables : Obligations.RestartsAndDisables := by
  refine ⟨fun s o since hw htm => ⟨execTgRestart_early htm, fun hdue => ?_⟩,
    fun s k d hd => ⟨execDisableDone_retired hd, execDisableDone_inFlight hd⟩⟩
  obtain ⟨-, ho, -⟩ := lt_lengths hw o
  have hmem := memories_restartTiming s o since
  simp only [State.memories, Prod.mk.injEq] at hmem
  obtain ⟨hfs, hhbm, hflash, -⟩ := hmem
  exact ⟨_, execTgRestart_due htm hdue, counter_restartTiming ho since, fun p hp => counter_restartTiming_of_ne hp, hfs, hflash, hhbm,
    fun hscan hmode hexit hsize => restartTiming_unparks hscan hmode hexit hsize since⟩

end Sys2Proof.Machine
end

section
/-! SUPPORT. A request for a Pour by its gates and its checks, and its cancellation (R247, R251, R372, R458). That held writes enter
before a request and that a refusal for the mask reports role bit 1 are choices of the model (assumptions 71 and 76). -/
namespace Sys2Proof.Machine

variable {s : State} {path : PathId} {v target : Nat}

/-! ### Requests (R247, R251, R458) -/

/-- A request without its role, or for outputs outside its path's mask, is refused. -/
theorem pourWrite_refused (h : hasRole s path 1 = false ∨ (nbit v 9 = false ∧ v % 32 &&& pathMask s path ≠ v % 32)) :
    (pourWrite s path v target).1 = refuseRole s path 1 0x10000 := by
  unfold pourWrite
  by_cases hr : hasRole s path 1 = true
  · obtain ⟨h9, hm⟩ := h.resolve_left (by simp [hr])
    simp [hr, h9, hm]
  · simp [hr]

section
variable (hr : hasRole s path 1 = true) (h9 : nbit v 9 = false) (hm : v % 32 &&& pathMask s path = v % 32)
include hr h9 hm

/-- A request that passes the LADLE checks begins its Pour, once the held writes have entered. -/
theorem pourWrite_accepted (h : ladleChecks (flushHeld s) v target = none) :
    (pourWrite s path v target).1 = beginPour (flushHeld s) (v % 32) (nbit v 8) target .host path := by
  simp only [pourWrite, hr, h9, hm, h, Bool.not_true, Bool.false_eq_true, if_false, ne_eq, not_true_eq_false]

theorem pourWrite_rejected {n : Nat} (h : ladleChecks (flushHeld s) v target = some n) :
    (pourWrite s path v target).1 = rejectRequest (flushHeld s) (v % 32) n path := by
  simp only [pourWrite, hr, h9, hm, h, Bool.not_true, Bool.false_eq_true, if_false, ne_eq, not_true_eq_false]

end

theorem execLadlePourRequest_served (hs : serves s path = true) (w : Word) :
    execLadlePourRequest path w s = .next (pourWrite s path w.toNat (ladleTarget s)).1 := if_pos hs

/-! ### Cancellations (R247) -/

theorem execLadlePourCancel_allowed (hs : serves s path = true) (hr : hasRole s path 1 = true) :
    execLadlePourCancel path s = .next (annealKick (cancelPour s path)) := by
  simp [execLadlePourCancel, hs, pourWrite, hr, show nbit 512 9 = true by decide]

theorem cancelPour_of_none (h : s.ladle.pending = none) : cancelPour s path = s := by
  simp only [cancelPour, h]

/-- A host's Pour withdrawn: its staged values stay (R247). -/
def pourWithdrawn (s : State) (p : Pour) (st : Nat) : State :=
  s.modLadle fun l => { l with pending := none, armed := false, st := if p.seq = l.seq then st else l.st }

theorem withdrawPour_host {p : Pour} (hp : s.ladle.pending = some p) (hk : p.kind = .host) (st : Nat) :
    withdrawPour s st = pourWithdrawn s p st := by
  simp only [withdrawPour, hp, hk]
  rfl

/-- A cancellation raises POUR_CANCELLED and writes its record (R247, R467). -/
def pourCancelled (u : State) (p : Pour) (path : PathId) : State :=
  journalKind (raiseP u 0x0105 (pourData p) path) 2 path (changeData (raiseP u 0x0105 (pourData p) path) p.seq p.mask 3 0 false []) 0

theorem logged_pourCancelled (u : State) (p : Pour) (path : PathId) : Logged u (pourCancelled u p path) :=
  (logged_raiseP _ _ _).trans (logged_journalKind _ _ _ _)

theorem cancelPour_host {p : Pour} (hp : s.ladle.pending = some p) (hk : p.kind = .host) :
    cancelPour s path = pourCancelled (pourWithdrawn s p 5) p path := by
  simp only [cancelPour, hp, hk, withdrawPour_host hp hk]
  rfl

/-- Settles O25: a request by its gates and the LADLE checks, a cancellation by the pending Pour. -/
theorem pourRequestsAndCancels : Obligations.PourRequestsAndCancels := by
  refine ⟨fun s r path v hs hr h9 hm hflush => ?request, fun s path p hs hr hp hk hrun => ?cancel, fun s path hs hr hp => ?idle,
    fun s path v hs h => ?refused⟩
  case request =>
    subst hflush
    refine ⟨fun h => ⟨_, (execLadlePourRequest_served hs v).trans (congrArg _ (pourWrite_accepted hr h9 hm h)), rfl, rfl, rfl, rfl⟩,
      fun n h => ?_⟩
    rw [exec, execLadlePourRequest_served hs, pourWrite_rejected hr h9 hm h]
  case cancel =>
    have hlog := logged_pourCancelled (pourWithdrawn s p 5) p path
    have hkick : annealKick (pourCancelled (pourWithdrawn s p 5) p path) = pourCancelled (pourWithdrawn s p 5) p path :=
      annealKick_of_none ((congrArg AnnealState.run hlog.ann).trans hrun)
    refine ⟨pourWithdrawn s p 5, pourCancelled (pourWithdrawn s p 5) p path, ?_, rfl, rfl, (congrArg LadleState.stg hlog.ladle :),
      (congrArg LadleState.act hlog.ladle :)⟩
    rw [exec, execLadlePourCancel_allowed hs hr, cancelPour_host hp hk, hkick]
  case idle => rw [exec, execLadlePourCancel_allowed hs hr, cancelPour_of_none hp]
  case refused => rw [exec, execLadlePourRequest_served hs, pourWrite_refused h]

end Sys2Proof.Machine
end

section
/-! SUPPORT. What the check lists make of a pending Pour, and what its commit makes of an armed one (R247, R249 to R252, R342, R372, R388).
That a commit rewrites all three copies of the selector, and that HALT_LADLE carries 0, are choices of the model (assumption 70). -/
namespace Sys2Proof.Machine

variable {s u : State} {p : Pour}

/-! ### The check lists (R251, R372, R388) -/

/-- Anneal's Pour, once checked, waits for its block to be written (R388). -/
def awaitBlock (s : State) : State := s.modAnn fun a => { a with run := a.run.map fun r =>
  { r with checked := true, st := 4, writeWait := !s.therm.flashOpen, waitAt := s.tb.tick } }

/-- What the check lists of a Pour find. -/
def pourLists (s : State) (p : Pour) : State × Option PourFail :=
  runLists s (pourView s p) (candidateFlux s (pourView s p) (pourBlock s p)) (p.kind == .dawn || p.kind == .ingotApply)

/-- A Pour that is neither armed nor waiting for its block is judged when its check lists complete. -/
theorem execPourChecksDone_judged (hp : s.ladle.pending = some p) (ha : s.ladle.armed = false)
    (hw : p.kind = .anneal → ∀ r, s.ann.run = some r → r.checked = false) : execPourChecksDone s = .next (annealKick (checkPour s p)) := by
  unfold execPourChecksDone
  simp only [hp, ha, Bool.false_or]
  split
  · next r hr =>
    have hn : (p.kind == .anneal && r.checked) = false := by
      by_cases hk : p.kind = .anneal
      · simp [hw hk r hr]
      · simp [hk]
    exact if_neg (Bool.eq_false_iff.1 hn)
  · rw [if_neg Bool.false_ne_true]

theorem checkPour_asleep (h : domainsAwake s p (pourView s p) = false) : checkPour s p = s := by
  simp only [checkPour, h, Bool.not_false, if_true]

section
variable (hd : domainsAwake s p (pourView s p) = true)
include hd

theorem checkPour_rejected {f : PourFail} (h : pourLists s p = (u, some f)) : checkPour s p = rejectPour u p f := by
  rw [pourLists] at h
  simp only [checkPour, hd, h, Bool.not_true, Bool.false_eq_true, if_false]

theorem checkPour_armed (h : pourLists s p = (u, none)) (hk : p.kind ≠ .anneal) : checkPour s p = armPour u := by
  rw [pourLists] at h
  simp only [checkPour, hd, h, hk, Bool.not_true, Bool.false_eq_true, if_false]

theorem checkPour_anneal (h : pourLists s p = (u, none)) (hk : p.kind = .anneal) : checkPour s p = awaitBlock u := by
  rw [pourLists] at h
  simp only [checkPour, hd, h, if_pos hk, Bool.not_true, Bool.false_eq_true, if_false]
  rfl

end

/-! ### The commit (R249, R250, R252, R342) -/

/-- The copies of the selector that a commit finds corrupted. -/
def corruptCopies (k : Nat) : List Nat := (List.range 3).filter (nbit k)

/-- Two or more copies are corrupted exactly when some two of the three are. -/
theorem two_le_corruptCopies_iff (k : Fin 8) : 2 ≤ (corruptCopies k).length ↔
    (nbit k 0 && nbit k 1) = true ∨ (nbit k 0 && nbit k 2) = true ∨ (nbit k 1 && nbit k 2) = true := by
  decide +revert

/-- The selector turned to the other side, in its three copies (R250). -/
def selectorTurned (s : State) : State :=
  s.modLadle fun l => { l with selector := List.replicate 3 (!(nth s.ladle.selector 0 false)) }

theorem execPourCommit_waits (hp : s.ladle.pending = some p)
    (h : s.ladle.armed = false ∨ (p.targeted = true ∧ pourCounter s p < p.target)) (k : Nat) : execPourCommit k s = .next s := by
  simp only [execPourCommit, hp]
  refine if_pos ?_
  simpa using h

section
variable (ha : s.ladle.armed = true) (ht : p.targeted = false ∨ p.target ≤ pourCounter s p) {k : Nat}
include ha ht

/-- The boundary of an armed Pour has come. -/
theorem commit_not_waiting : ¬ ((!s.ladle.armed || (p.targeted && decide (pourCounter s p < p.target))) = true) := by
  simp only [ha, Bool.not_true, Bool.false_or, Bool.and_eq_true, decide_eq_true_eq]
  rcases ht with ht | ht
  · simp [ht]
  · omega

variable (hp : s.ladle.pending = some p)
include hp

theorem execPourCommit_halts (hk : 2 ≤ (corruptCopies k).length) :
    ∃ l : List Bool, execPourCommit k s = .next (raiseHalt (s.modLadle fun d => { d with selector := l }) 0x0F18 0) := by
  simp only [execPourCommit, hp, if_neg (commit_not_waiting ha ht)]
  exact ⟨_, if_pos hk⟩

theorem execPourCommit_commits (hk : ¬ 2 ≤ (corruptCopies k).length) :
    execPourCommit k s = .next (annealKick (commitPour (selectorTurned s) p)) := by
  simp only [execPourCommit, hp, if_neg (commit_not_waiting ha ht)]
  exact if_neg hk

end

/-- A committed Pour before the blocks follow it: its words are taken, it is announced, and its record is written (R252, R467). -/
def pourRecorded (s : State) (p : Pour) : State :=
  let late := p.targeted && decide (p.target < pourCounter s p)
  let announced := announcePour (takeWords (holdSecure s) p) p (pourCounter s p)
  journalKind (if late then raiseP announced 0x0103 (pourData p + pourCounter s p % 2 ^ 32 * 2 ^ 32) p.path else announced) 2 p.path
    (changeRecord (pourCounter s p % 2 ^ 32) p.seq p.mask (if late then 2 else 0) (pourPaths s p) (!(sealedOf s p).isEmpty)
      (pourDigest (pourPairs s p))) 0

/-- A Pour that shows no freed surface is applied: the blocks follow its words (R252). -/
theorem commitPour_applied (hf : freedLayer (pourView s p).settled p = none) (hdawn : p.kind ≠ .dawn) (hingot : p.kind ≠ .ingotApply) :
    commitPour s p = commitBlocks (pourRecorded s p) p (pourView s p).settled := by
  cases hk : p.kind with
  | dawn => exact absurd hk hdawn
  | ingotApply => exact absurd hk hingot
  | host | anneal =>
    simp only [commitPour, hf, hk]
    rfl

theorem announcePour_ladle (s : State) (p : Pour) (counter : Nat) :
    (announcePour s p counter).ladle = { s.ladle with applied := (announcePour s p counter).ladle.applied } := by
  unfold announcePour
  split
  · rfl
  · rw [raiseP_ladle]

/-- The Ladle of a committed Pour: its words, and the Pours that still wait to be announced. -/
theorem pourRecorded_ladle (s : State) (p : Pour) :
    (pourRecorded s p).ladle = { (takeWords s p).ladle with applied := (pourRecorded s p).ladle.applied } := by
  have hlog : Logged (announcePour (takeWords (holdSecure s) p) p (pourCounter s p)) (pourRecorded s p) :=
    (logged_ite _ (logged_raiseP _ _ _)).trans (logged_journalKind _ _ _ _)
  rw [hlog.ladle, announcePour_ladle]
  rfl

/-- Settles O26: the check lists by what they find, the commit by its boundary and by how many copies of the selector are corrupted. -/
theorem poursAreCheckedAndCommitted : Obligations.PoursAreCheckedAndCommitted := by
  refine ⟨fun s p u hp ha hw => ?checks, fun s p k hp ha ht h01 h02 h12 => ?commit, fun s p k hp ha ht hk => ?halt,
    fun s p k hp h => execPourCommit_waits hp h k⟩
  case checks =>
    have hjudged := execPourChecksDone_judged hp ha hw
    refine ⟨fun hd => ?_, fun hd => ⟨fun h => ⟨fun hk => ⟨?_, rfl, rfl⟩, fun hk => ?_⟩, fun f h => ?_⟩⟩
    · rw [exec, hjudged, checkPour_asleep hd]
    · rw [exec, hjudged, checkPour_armed hd h hk]
    · rw [exec, hjudged, checkPour_anneal hd h hk]
      rfl
    · rw [exec, hjudged, checkPour_rejected hd h]
  case commit =>
    have hk : ¬ 2 ≤ (corruptCopies k).length := by simp [two_le_corruptCopies_iff, h01, h02, h12]
    have hcommit := execPourCommit_commits ha ht hp hk
    refine ⟨fun hf hdawn hingot => ⟨pourRecorded (selectorTurned s) p, ?_, ?_⟩, hcommit⟩
    · exact hcommit.trans (congrArg (Host.Outcome.next ∘ annealKick) (commitPour_applied (s := selectorTurned s) hf hdawn hingot))
    · rw [pourRecorded_ladle]
      exact ⟨rfl, rfl, rfl, rfl, rfl⟩
  case halt => exact execPourCommit_halts ha ht hp ((two_le_corruptCopies_iff k).2 hk)

end Sys2Proof.Machine
end

section
/-! SUPPORT. The frames of the capture inputs, from their start to their announcement or their discard, and signals that are lost (R235,
R263 to R266, R273, R279, R286, R287, R427, R428). -/
namespace Sys2Proof.Machine

variable {s : State} {i : Nat} {r : CapRun}

/-! ### The format and the instant of a frame (R267, R273) -/

theorem signalFormat_identified {f : CapFormat} (h : f.pid = true ∨ 4 ≤ i) : signalFormat i f = f :=
  if_neg fun ⟨hi, hp⟩ => h.elim (fun hp' => by simp [hp] at hp') hi.not_ge

theorem signalFormat_unidentified {f : CapFormat} (hi : i < 4) (hp : f.pid = false) :
    signalFormat i f = { f with sampling := 2, depth := 10, color := 0, full := false, transfer := 0 } := if_pos ⟨hi, hp⟩

theorem signalFormat_rate (i : Nat) (f : CapFormat) : (signalFormat i f).rate = f.rate := by
  unfold signalFormat
  split <;> rfl

/-! ### The start of a frame (R265, R266, R287, R427) -/

/-- An input with its last frame and the recoveries it ended put away. -/
def captureCleared (s : State) (i : Nat) : State := recoveredAll (pruneOld (discardRun s i) i) [0x0306, 0x0308, 0x0303] i

theorem discardRun_idle (h : (s.inAt i).run = none) : discardRun s i = s := by
  simp [discardRun, h]

theorem discardRun_running (h : (s.inAt i).run.isSome = true) : discardRun s i = s.modIn i fun x =>
    { x with run := none, packets := [], arrived := [], discarded := satAdd 0xFFFF x.discarded 1 } :=
  if_neg (by simpa [← Option.isSome_iff_ne_none] using h)

theorem pruneOld_ladle (s : State) (i : Nat) : (pruneOld s i).ladle = s.ladle := by
  unfold pruneOld
  dsimp only
  repeat' split
  all_goals rfl

theorem captureCleared_ladle (s : State) (i : Nat) : (captureCleared s i).ladle = s.ladle := by
  have hlog : Logged (pruneOld (discardRun s i) i) (captureCleared s i) := logged_foldl _ (fun _ c => logged_recovered c i) _
  rw [hlog.ladle, pruneOld_ladle, discardRun]
  split <;> rfl

/-- The format that a frame of the signal format `g` is converted from (R269, R278). -/
def captureFormat (m : WordMap) (i : Nat) (g : CapFormat) : CapFormat :=
  appliedFormat m i (if i < 6 then g else { streamFormat m i with transfer := g.transfer })

/-- A frame begun: no packet of it has come yet, and its instant `a` is a reference where there is one (R235, R267). -/
def captureBegun (s : State) (i rate a : Nat) : State := (captureCleared s i).modIn i fun x => { x with
  packets := [], arrived := [], links := 2 ^ (groupOf s.act i).length - 1, rate := rate
  refTimes := if i < 6 ∨ s.ptp.valid then (a :: x.refTimes).take 17 else []
  lastRef := if i < 6 ∨ s.ptp.valid then some a else none }

/-- A frame that fits its input. -/
def captureFits (u : State) (i : Nat) : State := u.modIn i fun x => { x with st := if x.up then 3 else 2, tooLarge := false }

/-- A frame that exceeds its input is counted as discarded (R265). -/
def captureTooLarge (u : State) (i : Nat) : State := refuseFrame (u.modIn i fun x => { x with st := 4, tooLarge := true }) i

section
variable {g : CapFormat} {tRef fine tc rtp : Nat} {metas : Option (Nat × Nat)}

/-- The start of a frame by its size, and then by whether its stream states the format. -/
theorem startCapture_eq : startCapture s i g tRef fine tc rtp metas =
    if inMaxW s.act i < (captureFormat s.act i g).w ∨ inMaxH s.act i < (captureFormat s.act i g).h then
      if (s.inAt i).tooLarge then captureTooLarge (captureBegun s i g.rate (refInstant s i tRef fine rtp)) i
      else raise (captureTooLarge (captureBegun s i g.rate (refInstant s i tRef fine rtp)) i) 0x0304 i
    else if !(decide (i < 6) || streamAgrees (streamFormat s.act i) g) then
      refuseFrame (captureFits (captureBegun s i g.rate (refInstant s i tRef fine rtp)) i) i
    else sealedFrame (captureFits (captureBegun s i g.rate (refInstant s i tRef fine rtp)) i) i (captureFormat s.act i g)
      (refInstant s i tRef fine rtp / 25) (refInstant s i tRef fine rtp % 25) tc (if 6 ≤ i then rtp else 0) metas := by
  have htimed : (decide (i < 6) || s.ptp.valid) = decide (i < 6 ∨ s.ptp.valid = true) := by simp
  simp only [startCapture, htimed, decide_eq_true_eq]
  rfl

/-- A frame too large for its input is discarded, and reported once (R265). -/
theorem startCapture_tooLarge (h : inMaxW s.act i < (captureFormat s.act i g).w ∨ inMaxH s.act i < (captureFormat s.act i g).h) :
    startCapture s i g tRef fine tc rtp metas =
      if (s.inAt i).tooLarge then captureTooLarge (captureBegun s i g.rate (refInstant s i tRef fine rtp)) i
      else raise (captureTooLarge (captureBegun s i g.rate (refInstant s i tRef fine rtp)) i) 0x0304 i := by
  rw [startCapture_eq, if_pos h]

section
variable (hw : (captureFormat s.act i g).w ≤ inMaxW s.act i) (hh : (captureFormat s.act i g).h ≤ inMaxH s.act i)
include hw hh

/-- A frame that its stream's descriptor does not state is discarded (R279). -/
theorem startCapture_disagrees (hi : 6 ≤ i) (ha : streamAgrees (streamFormat s.act i) g = false) :
    startCapture s i g tRef fine tc rtp metas =
      refuseFrame (captureFits (captureBegun s i g.rate (refInstant s i tRef fine rtp)) i) i := by
  rw [startCapture_eq, if_neg (not_or.2 ⟨hw.not_gt, hh.not_gt⟩), if_pos (by simp [ha, hi])]

theorem startCapture_agrees (ha : i < 6 ∨ streamAgrees (streamFormat s.act i) g = true) : startCapture s i g tRef fine tc rtp metas =
    sealedFrame (captureFits (captureBegun s i g.rate (refInstant s i tRef fine rtp)) i) i (captureFormat s.act i g)
      (refInstant s i tRef fine rtp / 25) (refInstant s i tRef fine rtp % 25) tc (if 6 ≤ i then rtp else 0) metas := by
  rw [startCapture_eq, if_neg (not_or.2 ⟨hw.not_gt, hh.not_gt⟩), if_neg (by simpa using fun h => ha.resolve_left (Nat.not_lt.2 h))]

end

end

theorem captureFits_act (s : State) (i rate a : Nat) : (captureFits (captureBegun s i rate a) i).act = s.act := by
  rw [State.act, captureFits, State.modIn_ladle, captureBegun, State.modIn_ladle, captureCleared_ladle, ← State.act]

section
variable {u : State} {f : CapFormat} {tRef fine tc rtp : Nat}

/-! ### Sealed frames and their buffers (R265, R427, R428) -/

theorem sealedFrame_open (h : inSealed u.act i = false) (metas : Option (Nat × Nat)) :
    sealedFrame u i f tRef fine tc rtp metas = takeBuffer u i f tRef fine tc rtp none := by
  simp [sealedFrame, h]

theorem sealedFrame_bare (h : inSealed u.act i = true) :
    sealedFrame u i f tRef fine tc rtp none = raise (refuseFrame u i) 0x1002 i := by
  simp [sealedFrame, h]

theorem sealedFrame_keyed (h : inSealed u.act i = true) {keyId frame : Nat} {k : KeySlot} (hk : streamKey u i keyId = some k) :
    sealedFrame u i f tRef fine tc rtp (some (keyId, frame)) =
      takeBuffer u i f tRef fine tc rtp (some (k.key, k.nonce, if 6 ≤ i then rtp else frame)) := by
  simp [sealedFrame, h, hk]

theorem sealedFrame_keyless (h : inSealed u.act i = true) {keyId frame : Nat} (hk : streamKey u i keyId = none) :
    sealedFrame u i f tRef fine tc rtp (some (keyId, frame)) = raiseLimited (refuseFrame u i) 0x1001 i i oneSecond .internal := by
  simp [sealedFrame, h, hk]

theorem takeBuffer_full (h : freeBuffer (u.inAt i) = none) (key : Option (List Byte × Nat × Nat)) :
    takeBuffer u i f tRef fine tc rtp key = raise (refuseFrame u i) 0x0305 i := by
  simp only [takeBuffer, h, inData]

theorem takeBuffer_free {b : Nat} (h : freeBuffer (u.inAt i) = some b) (key : Option (List Byte × Nat × Nat)) :
    takeBuffer u i f tRef fine tc rtp key = u.modIn i fun x => { x with
      run := some { buf := b, base := bufferBase u i b, fmt := f, tRef := tRef, fine := fine, tc := tc, rtp := rtp, key := key }
      bufs := upd x.bufs b fun y => { y with fence := false, age := x.counter + 1 } } := by
  simp only [takeBuffer, h]

end

/-! ### Frames begun and completed (R263, R265, R266, R272) -/

section
variable {fmt : CapFormat} {tRef fine rtp : Nat} {tc : Timecodes} {metas : Option (Nat × Nat)}

theorem execCaptureFrameStart_begins (hc : captures s i = true) (ha : formatAccepted s.act i (signalFormat i fmt) = true) :
    execCaptureFrameStart i fmt tRef fine tc rtp metas s =
      .next (if ((startCapture s i (signalFormat i fmt) tRef fine (timecode tc) rtp metas).inAt i).lastRef.isSome then
        regainRef (startCapture s i (signalFormat i fmt) tRef fine (timecode tc) rtp metas) 4 i
        else startCapture s i (signalFormat i fmt) tRef fine (timecode tc) rtp metas) :=
  if_pos (by simp [hc, ha])

theorem execCaptureFrameStart_ignored (h : captures s i = false ∨ formatAccepted s.act i (signalFormat i fmt) = false) :
    execCaptureFrameStart i fmt tRef fine tc rtp metas s = .next s :=
  if_neg (by simp only [Bool.and_eq_true]; rcases h with h | h <;> simp [h])

end

section
variable {skew : Bool} {words : List Nat}

theorem execCaptureFrameComplete_idle (h : (s.inAt i).run = none) : execCaptureFrameComplete i skew words s = .next s := by
  simp only [execCaptureFrameComplete, h]

variable (h : (s.inAt i).run = some r)
include h

theorem execCaptureFrameComplete_announced (hk : skew = false ∨ (groupOf s.act i).length ≤ 1) :
    execCaptureFrameComplete i skew words s = .next (announceFrame (storeCapture s i r
      (if 6 ≤ i then (s.inAt i).packets.flatMap (·.2) else words)) i (s.inAt i).prev r.fmt) := by
  simp only [execCaptureFrameComplete, h]
  refine if_neg ?_
  rcases hk with hk | hk
  · simp [hk]
  · simp [Nat.not_lt.2 hk]

/-- A frame whose links are skewed is discarded (R272). -/
theorem execCaptureFrameComplete_skewed (hs : skew = true) (hl : 1 < (groupOf s.act i).length) :
    execCaptureFrameComplete i skew words s = .next (fault (discardRun s i) 0x0308 i i) := by
  simp only [execCaptureFrameComplete, h]
  exact if_pos (by simp [hs, hl])

end

theorem nth_listSet_same {α : Type} {l : List α} {k : Nat} (h : k < l.length) (v d : α) : nth (listSet l k v) k d = v := by
  simp [nth, listSet, h]

theorem nth_listSet_other {α : Type} {l : List α} {k b : Nat} (h : b ≠ k) (v d : α) : nth (listSet l k v) b d = nth l b d := by
  simp [nth, listSet, h.symm]

/-- The record of a frame stored (R266). -/
def capturedFrame (s : State) (i : Nat) (r : CapRun) : CapFrame := {
  count := (s.inAt i).counter + 1, tRef := r.tRef, fine := r.fine, buffer := r.buf, fmtOut := storeFormat r.fmt, fmt := r.fmt, tc := r.tc
  rtp := r.rtp, completed := s.tb.tick, base := r.base }

section
variable (hi : i < s.input.length) (r : CapRun) (words : List Nat)
include hi

theorem storeCapture_counts : ((storeCapture s i r words).inAt i).counter = (s.inAt i).counter + 1 ∧
    ((storeCapture s i r words).inAt i).newest = some ((s.inAt i).counter + 1) ∧ ((storeCapture s i r words).inAt i).run = none := by
  have hx : (storeCapture s i r words).inAt i = _ := State.inAt_same _ _ _ hi
  rw [hx]
  exact ⟨rfl, rfl, rfl⟩

/-- A frame stored sets the fence of its buffer, and leaves the other buffers (R265). -/
theorem storeCapture_bufs : ((storeCapture s i r words).inAt i).bufs =
    listSet (s.inAt i).bufs r.buf { frame := capturedFrame s i r, fence := true, refs := [], age := (s.inAt i).counter + 1 } := by
  have hx : (storeCapture s i r words).inAt i = _ := State.inAt_same _ _ _ hi
  rw [hx]
  rfl

end

/-! ### Signals lost and frames discarded (R235, R264, R265, R279, R286) -/

theorem signalGone_iff (s : State) (i : Nat) : signalGone s i = true ↔
    i < 6 ∨ ∀ p < 2, nbit (streamPaths s.act i) p = true → pathQuiet s i p = true := by
  simp only [signalGone, Bool.or_eq_true, decide_eq_true_eq, List.all_cons, List.all_nil, Bool.and_true, Bool.and_eq_true,
    Bool.not_eq_true', ← Bool.not_eq_true, ← imp_iff_not_or]
  refine or_congr_right ⟨fun ⟨h0, h1⟩ p hp => ?_, fun h => ⟨h 0 (by decide), h 1 (by decide)⟩⟩
  interval_cases p
  · exact h0
  · exact h1

/-- A signal lost, its frame discarded, and the loss counted (R265, R286). -/
def signalDropped (s : State) (i : Nat) : State := (discardRun s i).modIn i fun x => { x with
  st := 1, up := false, consistent := 0, links := 0, rate := 0, lastRef := none, refTimes := [], losses := satAdd 0xFFFF x.losses 1 }

theorem execCapSignalLost_gone (hc : captures s i = true) (hst : (s.inAt i).st ≠ 1) (hg : signalGone s i = true) :
    execCapSignalLost i s = .next (outputs.foldl (fun t o => if genSrc (t.rt o) o = 4 ∧ srcIdx (t.rt o) o = i then loseGenRef t o else t)
      (raise (signalDropped s i) 0x0302 i)) :=
  if_neg (by simp [hc, hst, hg])

theorem execCapSignalLost_kept (h : captures s i = false ∨ (s.inAt i).st = 1 ∨ signalGone s i = false) :
    execCapSignalLost i s = .next s :=
  if_pos (by simpa [or_assoc] using h)

theorem execSignalChangeMidFrame_running (h : (s.inAt i).run.isSome = true) :
    execSignalChangeMidFrame i s = .next (fault (discardRun s i) 0x0303 i i) := if_pos h

theorem execSignalChangeMidFrame_idle (h : (s.inAt i).run = none) : execSignalChangeMidFrame i s = .next s :=
  if_neg (by simp [h])

theorem execCapPktLoss_lost (hi : 6 ≤ i) (hr : (s.inAt i).run.isSome = true) (hl : packetLost s i = true) :
    execCapPktLoss i s = .next (fault (discardRun s i) 0x0306 i i) := if_pos ⟨hi, hr, hl⟩

theorem execCapPktLoss_kept (h : (s.inAt i).run = none ∨ packetLost s i = false) : execCapPktLoss i s = .next s :=
  if_neg fun ⟨_, hr, hl⟩ => h.elim (fun h => by simp [h] at hr) fun h => by simp [h] at hl

/-- While the merge window of every packet that arrived still runs, none is lost (R279). -/
theorem packetLost_of_open (h : ∀ e ∈ (s.inAt i).arrived, s.tb.tick < e.2 + s.act.half (aStream (i - 6) + 22) * 40000) :
    packetLost s i = false :=
  List.any_eq_false.2 fun e he => by simp [Nat.not_le.2 (h e he)]

/-- Settles O49: a frame's start by its format, its size, its stream and its seal, its end by its links, a loss by whether it is one.
That a stream's frame that disagrees with its descriptor is discarded, and the order of the pixels, are choices of the model (assumptions
73 and 124). -/
theorem capturedFrames : Obligations.CapturedFrames := by
  refine ⟨⟨fun s i fmt tRef fine rtp tc metas h => execCaptureFrameStart_ignored h, ?start,
    fun s i tRef fine rtp => ⟨fun h => if_pos h, fun h => if_neg h.not_gt⟩, fun i f h => signalFormat_identified h, ?unidentified,
    fun s i f tRef fine tc rtp key => ⟨fun h => takeBuffer_full h key, fun b h => takeBuffer_free h key⟩,
    fun s i skew words => ⟨execCaptureFrameComplete_idle, fun r h hk => execCaptureFrameComplete_announced h hk,
      fun r h hs hl => execCaptureFrameComplete_skewed h hs hl⟩, ?store⟩,
    fun s i hc hst hg => execCapSignalLost_gone hc hst hg, fun s i h => execCapSignalLost_kept h, signalGone_iff,
    fun s i h => execSignalChangeMidFrame_running h, fun s i hi hr hl => execCapPktLoss_lost hi hr hl,
    fun s i h => execCapPktLoss_kept (.inr h), fun s i h => packetLost_of_open h,
    fun s i h => ⟨execSignalChangeMidFrame_idle h, execCapPktLoss_kept (.inl h), discardRun_idle h⟩, fun s i h => discardRun_running h⟩
  case start =>
    rintro s i fmt g f tRef fine rtp a tc metas hc rfl ha rfl rfl
    have hrate := signalFormat_rate i fmt
    refine ⟨captureBegun s i fmt.rate (refInstant s i tRef fine rtp), _, _, _, rfl, rfl, rfl, execCaptureFrameStart_begins hc ha,
      fun h => ?_, fun hw hh => ⟨fun hi hd => ?_, fun hd => ?_⟩⟩
    · rw [← hrate]
      exact startCapture_tooLarge h
    · rw [← hrate]
      exact startCapture_disagrees hw hh hi hd
    · have hact := captureFits_act s i fmt.rate (refInstant s i tRef fine rtp)
      rw [startCapture_agrees hw hh hd, hrate]
      refine ⟨fun hs => ?_, fun hs hm => ?_, fun hs id fr hm => ⟨fun k hk => ?_, fun hk => ?_⟩⟩
      · exact sealedFrame_open (hact ▸ hs) metas
      · subst hm
        exact sealedFrame_bare (hact ▸ hs)
      · subst hm
        have hrtp : (if 6 ≤ (i : Nat) then (if 6 ≤ (i : Nat) then rtp else 0) else fr) = if 6 ≤ (i : Nat) then rtp else fr := by
          split <;> rfl
        rw [← hrtp]
        exact sealedFrame_keyed (hact ▸ hs) hk
      · subst hm
        exact sealedFrame_keyless (hact ▸ hs) hk
  case unidentified =>
    intro i f hi hp
    rw [signalFormat_unidentified hi hp]
    exact ⟨rfl, rfl, rfl, rfl⟩
  case store =>
    intro s i r words hi hb
    obtain ⟨hcount, hnew, hrun⟩ := storeCapture_counts hi r words
    refine ⟨_, rfl, hcount, hnew, hrun, ?_⟩
    rw [storeCapture_bufs hi, nth_listSet_same hb]
    exact ⟨rfl, rfl, rfl, rfl, fun b hne => nth_listSet_other hne _ _, rfl⟩

end Sys2Proof.Machine
end

section
/-! SUPPORT. Host accesses through BAR2 and BAR0 (R283, R285, R311, R331, R337, R344, R431). -/
namespace Sys2Proof.Machine

variable {s u : State}

/-! ### Translation for the host (R331, R337, R343) -/

section
variable {addr i : Nat} {w : Bool}

theorem hostSurface_inside (h : addr < 2 ^ s.mgmt.bar2Log) : hostSurface s addr = surfaceOf s addr := if_pos h

/-- No surface is reached at or above 2^BAR2_LOG (assumption 129). -/
theorem hostSurface_beyond (h : 2 ^ s.mgmt.bar2Log ≤ addr) : hostSurface s addr = none := if_neg h.not_gt

theorem hostAccess_noSurface (h : hostSurface s addr = none) : hostAccess s addr w = (1, none, s) := by
  simp [hostAccess, h]

/-- A freed surface refuses the host with kind 3, one without the right for the access with kind 2. Either way it heads the
cache of surfaces. -/
theorem hostAccess_refused (h : hostSurface s addr = some i)
    (hr : 3 ≤ (s.surfAt i).st ∨ (if w then (s.surfAt i).hostW else (s.surfAt i).hostR) = false) : hostAccess s addr w =
    (if 3 ≤ (s.surfAt i).st then 3 else 2, none, s.modSurf fun m => { m with cache := (i :: m.cache.filter (· != i)).take 64 }) := by
  by_cases hst : 3 ≤ (s.surfAt i).st
  · simp only [hostAccess, h, if_pos hst]
  · have hright : (if w then !(s.surfAt i).hostW else !(s.surfAt i).hostR) = true := by
      rw [← apply_ite, hr.resolve_left hst, Bool.not_false]
    simp only [hostAccess, h, if_neg hst, if_pos hright]

end

/-! ### BAR2 (R283, R311, R337, R344, R431) -/

section
variable {addr n k a b : Nat} {bytes : List Byte} {l : List (Nat × Nat)}

theorem execBar2Read_reached (h : hostPlaces false n addr (wakeHbm s) = (u, (0, a, b), l)) :
    execBar2Read addr n s = .next (answer u 0 [] (l.map fun p => Sparse.get ramDefault u.hbm.mem p.2)) := by
  simp only [execBar2Read, h]

theorem execBar2Read_faulted (h : hostPlaces false n addr (wakeHbm s) = (u, (k, a, b), l)) (hk : k ≠ 0) : execBar2Read addr n s =
    .next (answer (hostFault u (k, a, b) false) (if k = 2 then statusCA else statusUR) [] []) := by
  obtain ⟨j, rfl⟩ := Nat.exists_eq_succ_of_ne_zero hk
  simp only [execBar2Read, h]

theorem execBar2Write_faulted (h : hostPlaces true bytes.length addr (wakeHbm s) = (u, (k, a, b), l)) (hk : k ≠ 0) :
    execBar2Write addr bytes s = .next (hostFault u (k, a, b) true) := by
  obtain ⟨j, rfl⟩ := Nat.exists_eq_succ_of_ne_zero hk
  simp only [execBar2Write, h]

/-- Bytes stored at the places of a host write. -/
def hostStored (u : State) (l : List (Nat × Nat)) (bytes : List Byte) : State :=
  { u with hbm := { u.hbm with mem := (List.zip l bytes).foldl (fun m e => Sparse.set ramDefault m e.1.2 e.2) u.hbm.mem } }

variable (h : hostPlaces true bytes.length addr (wakeHbm s) = (u, (0, a, b), l))
include h

theorem execBar2Write_open (hprot : (u.surfAt (l.headD (0, 0)).1).prot = false) :
    execBar2Write addr bytes s = .next (hostStored u l bytes) := by
  simp only [execBar2Write, h, hprot]
  rfl

theorem execBar2Write_keyed (hprot : (u.surfAt (l.headD (0, 0)).1).prot = true) {key : KeySlot}
    (hkey : surfaceKey u (l.headD (0, 0)).1 = some key) : execBar2Write addr bytes s =
    .next (hostStored u l ((List.range bytes.length).map fun n =>
      bytes.getD n 0 ^^^ surfaceKeyByte key (addr - (u.surfAt (l.headD (0, 0)).1).lo + n))) := by
  simp only [execBar2Write, h, hprot, hkey]
  rfl

/-- Without a valid key nothing is stored; that it is reported each time, and with which data, is assumption 75. -/
theorem execBar2Write_keyless (hprot : (u.surfAt (l.headD (0, 0)).1).prot = true) (hkey : surfaceKey u (l.headD (0, 0)).1 = none) :
    execBar2Write addr bytes s = .next (raiseP u 0x1001 (0x8000 + (l.headD (0, 0)).1) .bar0) := by
  simp only [execBar2Write, h, hprot, hkey]
  rfl

end

/-! ### BAR0 (R283) -/

section
variable {addr size : Nat}

theorem execHostAccessErr_wellSized (h : (size = 4 ∨ size = 8) ∧ addr % size = 0) (w : Bool) :
    execHostAccessErr addr size w s = .next s := if_pos h

theorem execHostAccessErr_misSized (h : ¬((size = 4 ∨ size = 8) ∧ addr % size = 0)) (w : Bool) : execHostAccessErr addr size w s =
    .next (if w then raiseP s 0x030C 0 .bar0 else answer (raiseP s 0x030C 0 .bar0) statusUR [] []) := if_neg h

end

/-- Settles O51: a BAR2 access by where its bytes lie and by the key of a PROT surface, its translation by the surface and its rights, a
BAR0 access by its size. That no surface is reached at or above 2^BAR2_LOG is assumption 129; that a write without a key raises each time,
with data 0x8000 plus the surface, is a choice of the model (assumption 75). -/
theorem hostWindow : Obligations.HostWindow := by
  refine ⟨⟨?wake, fun s u addr n a b l h => execBar2Read_reached h,
    fun s u addr a b bytes l h => ⟨execBar2Write_open h,
      fun hprot => ⟨fun k hkey => execBar2Write_keyed h hprot hkey, execBar2Write_keyless h hprot⟩⟩,
    fun s u addr n k a b l h hk => execBar2Read_faulted h hk, fun s u addr k a b bytes l h hk => execBar2Write_faulted h hk,
    fun s addr => ⟨hostSurface_inside, hostSurface_beyond⟩, fun s addr w h => hostAccess_noSurface h, ?rights, ?fault,
    fun s addr => rfl⟩, fun s addr size w h => execHostAccessErr_wellSized h w,
    fun s addr size h => ⟨execHostAccessErr_misSized h true, execHostAccessErr_misSized h false⟩, fun s => rfl⟩
  case wake =>
    intro s
    simp [wakeHbm, State.modHbm]
  case rights =>
    intro s addr i w h
    by_cases hr : 3 ≤ (s.surfAt i).st ∨ (if w then (s.surfAt i).hostW else (s.surfAt i).hostR) = false
    · exact ⟨_, .inl ⟨hostAccess_refused h hr, rfl⟩⟩
    · obtain ⟨hst, hright⟩ := not_or.1 hr
      exact ⟨s, .inr ⟨Nat.lt_of_not_le hst, by simpa using hright⟩⟩
  case fault =>
    intro s f w
    simp [hostFault, recordXlate, State.modSurf]

end Sys2Proof.Machine
end

section
/-! SUPPORT. The HBM3 controller's set-point changes and retraining passes (R299, R302, R303). Event 0x0603, the end of a change, is
HBM_FSP_DONE in the list of events. -/
namespace Sys2Proof.Machine

variable {s : State}

/-! ### Self-refresh entry as the steps 1 to 3 of R299 -/

theorem refreshT_pos (h : HbmState) : 0 < refreshT h := by
  unfold refreshT
  split <;> decide

/-- Whole refreshes of `t` each, as many as the debt begins. -/
theorem repaid_nonpos {t : Int} (ht : 0 < t) (d : Int) : repaid t d ≤ 0 := by
  unfold repaid
  split
  · assumption
  · have hcover := Int.lt_ediv_add_one_mul_self (d + t - 1) ht
    rw [Int.add_mul, Int.one_mul] at hcover
    omega

theorem enterSelfRefresh_debt_nonpos (h : HbmState) (tick : Nat) : ∀ d ∈ (enterSelfRefresh h tick).debt, d ≤ 0 :=
  List.forall_mem_map.2 fun d _ => repaid_nonpos (refreshT_pos _) d

/-! ### The course of a change (R299) -/

theorem execHbmFspDrained_drains (hst : s.hbm.st = 2) (hd : s.hbm.drained = false) (hfree : ∀ c ∈ s.run.chans, c.owner = none) :
    execHbmFspDrained s = .next (s.modHbm fun h => { enterSelfRefresh h s.tb.tick with drained := true }) :=
  if_pos ⟨hst, by simp [hd], List.all_eq_true.2 fun c hc => Option.isNone_iff_eq_none.2 (hfree c hc)⟩

theorem execHbmFspDrained_granted (h : ∃ c ∈ s.run.chans, c.owner ≠ none) : execHbmFspDrained s = .next s := by
  obtain ⟨c, hc, howner⟩ := h
  exact if_neg fun ⟨_, _, hall⟩ => howner (Option.isNone_iff_eq_none.1 (List.all_eq_true.1 hall c hc))

/-- The stack at work again at set point `f`, its debts cleared and the trained values of `f` in every PHY (R299 step 5, R311). -/
def resumeAt (h : HbmState) (f tick : Nat) : HbmState :=
  { zeroDebts h tick with st := 1, fspNow := f, target := none, phy := List.replicate 16 (nth h.trained f 0) }

theorem execHbmFspDone_completes (hst : s.hbm.st = 2) (hd : s.hbm.drained = true) {u : State}
    (hu : u = s.modHbm fun h => { resumeAt h (h.target.getD h.fspNow) s.tb.tick with drained := false }) :
    execHbmFspDone s = .next (grantAll (raise u 0x0603 (hbmData u 0))) := by
  subst hu
  exact if_pos ⟨hst, hd⟩

/-! ### Retraining passes (R302, R303) -/

theorem execHbmRetrainStart_due (hst : s.hbm.st = 1) (ht : s.hbm.training = false)
    (hdue : s.hbm.passTick + hbmRetrain (s.rt 4) * 400000000 ≤ s.tb.tick ∨ 64 ≤ (s.hbm.temp - s.hbm.passTemp).natAbs) :
    execHbmRetrainStart s = .next (startPass s) :=
  if_pos ⟨hst, by simp [ht], by simpa using hdue⟩

theorem execHbmTrainSlot_early (hn : s.hbm.slots ≠ 0) (he : s.tb.tick < s.hbm.slotAt + 20000) : execHbmTrainSlot s = .next s :=
  if_neg fun ⟨_, _, hdue⟩ => hdue.elim hn he.not_ge

section
variable (ht : s.hbm.training = true)
include ht

theorem execHbmTrainSlot_gathers (hn : s.hbm.slots < 128) (hdue : s.hbm.slots = 0 ∨ s.hbm.slotAt + 20000 ≤ s.tb.tick) :
    execHbmTrainSlot s = .next (s.modHbm fun h => { h with slots := h.slots + 1, slotAt := s.tb.tick }) :=
  if_pos ⟨ht, hn, hdue⟩

variable (hn : s.hbm.slots = 128)
include hn

theorem execHbmTrainCommit_within : execHbmTrainCommit true s = .next (resumeChange (s.modHbm fun h =>
    { endPass h s.tb.tick with trained := upd h.trained h.fspNow (· + 1), fails := 0 })) :=
  if_pos ⟨ht, hn⟩

/-- A pass outside the tolerance: its failure is counted, reported and recovered from before the count is judged. -/
theorem execHbmTrainCommit_outside {u v : State}
    (hu : u = s.modHbm fun h => { endPass h s.tb.tick with fails := h.fails + 1, retry := true })
    (hv : v = recovered (fault u 0x0604 (hbmData s 0) 0) 0x0604 0) : execHbmTrainCommit false s = .next (if 3 ≤ v.hbm.fails then
      loseFsp (v.modHbm fun h => { h with fails := 0, retry := false }) v.hbm.fspNow else resumeChange v) := by
  subst hu hv
  exact (if_pos ⟨ht, hn⟩).trans (apply_ite _ _ _ _).symm

end

theorem execHbmTrainRetry_due (hr : s.hbm.retry = true) (hst : s.hbm.st = 1) (ht : s.hbm.training = false)
    (hdue : s.hbm.passTick + 400000000 ≤ s.tb.tick) : execHbmTrainRetry s = .next (startPass s) :=
  if_pos ⟨hr, hst, by simp [ht], hdue⟩

theorem execHbmTrainRetry_early (he : s.tb.tick < s.hbm.passTick + 400000000) : execHbmTrainRetry s = .next s :=
  if_neg fun ⟨_, _, _, hdue⟩ => he.not_ge hdue

/-- Settles O34: each command of a change and of a pass by the condition under which it acts; what a drained stack looks like is that of
an entered self-refresh. -/
theorem setPointsAndTraining : Obligations.SetPointsAndTraining := by
  refine ⟨⟨fun s hst hd hfree => ?drained, fun s => execHbmFspDrained_granted, fun s hst hd => ?done⟩,
    fun s => execHbmRetrainStart_due, fun s ht hn => ⟨execHbmTrainSlot_gathers ht hn, execHbmTrainSlot_early⟩,
    fun s => execHbmTrainCommit_within, fun s ht hn => ⟨_, _, rfl, rfl, execHbmTrainCommit_outside ht hn rfl rfl⟩,
    fun s hr hst ht => ⟨execHbmTrainRetry_due hr hst ht, execHbmTrainRetry_early⟩⟩
  case drained =>
    exact ⟨_, execHbmFspDrained_drains hst hd hfree, rfl, hst, rfl, rfl, rfl, enterSelfRefresh_debt_nonpos _ _,
      enterSelfRefresh_mem _ s.tb.tick⟩
  case done =>
    exact ⟨_, execHbmFspDone_completes hst hd rfl, rfl, rfl, rfl, rfl, rfl, rfl, zeroDebts_mem _ s.tb.tick⟩

end Sys2Proof.Machine
end

section
/-! SUPPORT. Refresh debts, self-refresh and the temperature of the HBM3 stack (R303, R305, R306, R308, R310, R311). -/
namespace Sys2Proof.Machine

variable {s : State} {ch : Nat}

/-! ### Refreshes and debt flushes (R303, R305, R306, R308) -/

theorem flushCheck_begins (hdebt : 8 * refreshT s.hbm < debtNow s.hbm s.tb.tick ch) (hf : nth s.hbm.flushing ch false = false) :
    flushCheck s ch = raise (s.modHbm fun x => { x with flushing := listSet x.flushing ch true }) 0x0601 (hbmData s ch) :=
  if_pos (by simp [hdebt, hf])

/-- Of the controller a check for a flush changes only which channels flush. -/
theorem flushCheck_hbm (s : State) (ch : Nat) : (flushCheck s ch).hbm = { s.hbm with flushing := (flushCheck s ch).hbm.flushing } := by
  unfold flushCheck
  split
  · rw [raise_hbm]
    rfl
  · rfl

theorem flushCheck_tb (s : State) (ch : Nat) : (flushCheck s ch).tb = s.tb := by
  unfold flushCheck
  split
  · rw [raise_tb, State.modHbm_tb]
  · rfl

/-- A channel refreshed at a tick: its rows closed, every debt settled and its own less one interval, the trained values in its PHY. -/
def refreshed (h : HbmState) (ch tick : Nat) : HbmState :=
  { settleDebts (closeChannel h ch) tick with
    debt := upd (settleDebts (closeChannel h ch) tick).debt ch fun d => d - refreshT h
    phy := listSet h.phy ch (nth h.trained h.fspNow 0) }

theorem nth_refreshed_debt (h : HbmState) (hch : ch < 16) (tick : Nat) :
    nth (refreshed h ch tick).debt ch 0 = debtNow h tick ch - refreshT h := by
  have hsettled : (settleDebts (closeChannel h ch) tick).debt = (List.range 16).map (debtNow h tick) := rfl
  simp [refreshed, hsettled, nth, upd, hch]

section
variable {u : State} (hu : u = flushCheck s ch) (hc : carrying u = true)
include hu hc

theorem execHbmRefresh_due (hdue : refreshDue u ch = true) : execHbmRefresh ch s =
    .next { u with hbm := refreshed { s.hbm with flushing := u.hbm.flushing } ch s.tb.tick } := by
  subst hu
  rw [← flushCheck_hbm, ← flushCheck_tb s ch]
  exact (if_pos hc).trans (if_pos hdue)

theorem execHbmRefresh_notDue (hdue : refreshDue u ch = false) : execHbmRefresh ch s = .next u := by
  subst hu
  exact (if_pos hc).trans (if_neg (Bool.eq_false_iff.1 hdue))

end

theorem execHbmRefreshDone_ends (hf : nth s.hbm.flushing ch false = true) (hdebt : debtNow s.hbm s.tb.tick ch ≤ 7 * refreshT s.hbm) :
    execHbmRefreshDone ch s = .next (s.modHbm fun x => { x with flushing := listSet x.flushing ch false }) :=
  if_pos (by simp [hf, hdebt])

theorem execHbmRefreshDone_continues (h : nth s.hbm.flushing ch false = false ∨ 7 * refreshT s.hbm < debtNow s.hbm s.tb.tick ch) :
    execHbmRefreshDone ch s = .next (flushCheck s ch) :=
  if_neg (by rcases h with hf | hdebt <;> simp [*])

/-! ### Self-refresh (R310, R311) -/

theorem execHbmSrEnter_enters {dusk : Bool} (ht : s.hbm.training = false) (hdusk : dusk = true ↔ s.mode.dev = 7 ∧ s.mode.duskStep = 5)
    (hout : dusk = true → s.hbm.st ≠ 4) (hauto : dusk = false → s.hbm.st = 1 ∧ autoSelfRefresh s = true) :
    execHbmSrEnter s = .next (s.modHbm fun h => { enterSelfRefresh h s.tb.tick with st := 4, srDusk := dusk, drained := false }) := by
  have hval : (decide (s.mode.dev = 7) && decide (s.mode.duskStep = 5)) = dusk := by
    rw [Bool.eq_iff_iff, hdusk, Bool.and_eq_true, decide_eq_true_eq, decide_eq_true_eq]
  simp only [execHbmSrEnter, hval]
  refine if_pos ⟨?_, by simp [ht], ?_⟩ <;> cases dusk
  · simp [(hauto rfl).1]
  · exact hout rfl
  · simpa using hauto rfl
  · rfl

theorem execHbmSrExit_idle (h : s.hbm.st ≠ 5) (pattern train : Bool) : execHbmSrExit pattern train s = .next s :=
  if_neg fun ⟨hst, _⟩ => h hst

/-- The stack out of self-refresh, at the set point asked for meanwhile if there is one (R311). -/
def srExited (s : State) : State :=
  s.modHbm fun h => { resumeAt h (h.target.getD h.fspNow) s.tb.tick with lastUse := List.replicate 16 s.tb.tick }

section
variable (hst : s.hbm.st = 5) (hd : s.hbm.srDusk = false) {u v : State} (hu : u = srExited s)
  (hv : v = if s.hbm.target.isSome then raise u 0x0603 (hbmData u 0) else u)
include hst hd hu hv

theorem execHbmSrExit_good (train : Bool) : execHbmSrExit true train s = .next (grantAll v) := by
  subst hu hv
  exact if_pos ⟨hst, by simp [hd]⟩

theorem execHbmSrExit_retrained : execHbmSrExit false true s = .next (grantAll ((raise v 0x0608 (hbmData v 0)).modHbm fun h =>
    { h with trained := upd h.trained u.hbm.fspNow (· + 1), phy := List.replicate 16 (nth h.trained u.hbm.fspNow 0 + 1) })) := by
  subst hu hv
  exact if_pos ⟨hst, by simp [hd]⟩

end

/-! ### The stack's temperature (R305) -/

section
variable {x : Int} (hst : s.hbm.st ≠ 4)
include hst

theorem execHbmTempRead_heats (hh : s.hbm.hot = false) (hx : 680 ≤ x) : execHbmTempRead x s = .next ((List.range 16).foldl flushCheck
    (raise (s.modHbm fun h => { settleDebts h s.tb.tick with temp := x, hot := true, coolSince := none }) 0x0602 1)) := by
  have hheats : (!s.hbm.hot && decide (680 ≤ x)) = true := by simp [hh, hx]
  exact (if_neg hst).trans (if_pos hheats)

theorem execHbmTempRead_cools {since : Nat} (hh : s.hbm.hot = true) (hx : x < 648) (hs : s.hbm.coolSince = some since)
    (hlong : since + 3200000 ≤ s.tb.tick) : execHbmTempRead x s = .next
      (raise (s.modHbm fun h => { settleDebts h s.tb.tick with temp := x, coolSince := some since, hot := false }) 0x0602 0) := by
  have hheats : ¬ (!s.hbm.hot && decide (680 ≤ x)) = true := by simp [hh]
  have hcools : (s.hbm.hot && decide (since + 3200000 ≤ s.tb.tick)) = true := by simp [hh, hlong]
  simp only [execHbmTempRead, if_neg hst, if_pos hx, hs]
  exact (if_neg hheats).trans (if_pos hcools)

/-- A stack that is not hot only keeps the reading, and since when it is below 81 °C. -/
theorem execHbmTempRead_normal (hh : s.hbm.hot = false) (hx : x < 680) : ∃ cool : Option Nat, execHbmTempRead x s =
    .next (s.modHbm fun h => { settleDebts h s.tb.tick with temp := x, coolSince := cool }) := by
  have hheats : ¬ (!s.hbm.hot && decide (680 ≤ x)) = true := by simp [hx]
  exact ⟨_, (if_neg hst).trans ((if_neg hheats).trans
    (if_neg fun h => Bool.false_ne_true (hh.symm.trans (Bool.and_eq_true_iff.1 h).1)))⟩

end

/-- Settles O35: a refresh by whether it is due after the check for a flush, self-refresh by its entry and its exit, a reading of the
temperature by what the stack was before it. That the entry is a single step is a choice of the model (assumption 50). -/
theorem refreshAndTemperature : Obligations.RefreshAndTemperature := by
  refine ⟨⟨fun s u h hu hc => ⟨fun hdue => ?refresh, execHbmRefresh_notDue hu hc⟩, fun s h => execHbmRefreshDone_ends,
    fun s h => execHbmRefreshDone_continues, fun s h => flushCheck_begins, fun s dusk ht hdusk hout hauto => ?enter,
    fun s a b h => execHbmSrExit_idle h a b, fun s hst hd => ?exit⟩,
    fun s x hst hh hx => ⟨_, execHbmTempRead_heats hst hh hx, rfl, rfl, rfl, settleDebts_mem _ s.tb.tick⟩,
    fun s x since hst hh hx hs hlong => ⟨_, execHbmTempRead_cools hst hh hx hs hlong, rfl, rfl, rfl⟩, fun s x hst hh hx => ?normal⟩
  case refresh =>
    exact ⟨_, execHbmRefresh_due hu hc hdue, rfl, rfl, rfl, nth_refreshed_debt _ h.isLt _, rfl⟩
  case enter =>
    exact ⟨_, execHbmSrEnter_enters ht hdusk hout hauto, rfl, rfl, rfl, enterSelfRefresh_debt_nonpos _ _, enterSelfRefresh_mem _ s.tb.tick, rfl⟩
  case exit =>
    exact ⟨srExited s, _, rfl, rfl, rfl, rfl, rfl, zeroDebts_mem _ s.tb.tick, rfl, execHbmSrExit_good hst hd rfl rfl,
      execHbmSrExit_retrained hst hd rfl rfl⟩
  case normal =>
    obtain ⟨cool, hread⟩ := execHbmTempRead_normal hst hh hx
    exact ⟨_, hread, rfl, hh, rfl, settleDebts_mem _ s.tb.tick⟩

end Sys2Proof.Machine
end

section
/-! SUPPORT. What the resets keep (R472, R473), the loss of VAUX (R492, R505), and the step that runs the front command. -/
namespace Sys2Proof.Machine

variable {s : State}

/-! ### The front command, and the state after reset -/

/-- Settles O1: a queue that is not empty gives its front command to `exec`. -/
theorem stepRunsTheFrontCommand : Obligations.StepRunsTheFrontCommand := by
  intro s c rest h
  simp [step, h]

/-- Settles O3: every part of the reset state is a literal. The empty memories and the zero internal state are the model's choices
(assumptions 1, 5 and 6). -/
theorem resetLeavesDawn : Obligations.ResetLeavesDawn := by
  refine ⟨rfl, ?outs, rfl, rfl, rfl, rfl, rfl, rfl, rfl, rfl, rfl, rfl, rfl, rfl, ?seqs, rfl, ?sessions, rfl, rfl, rfl⟩
  case outs => simp [State.reset]
  case seqs => simp [State.reset]
  case sessions => simp [State.reset]

/-! ### Warm resets (R472, R473) -/

/-- A record whose writing is cut short goes back to the queue; nothing else of the always-on domain moves. -/
theorem requeueWriting_eq (a : AodState) (j : JournalState) : requeueWriting a j = { a with queue := (requeueWriting a j).queue } := by
  unfold requeueWriting
  repeat' split
  all_goals rfl

theorem addSource_eq_withBit (m src : Nat) : addSource m src = withBit m src true := by
  simp [addSource, withBit]

theorem nbit_addSource (m src k : Nat) : nbit (addSource m src) k = (nbit m k || decide (k = src)) := by
  rw [addSource_eq_withBit, nbit_withBit_true]

theorem hasSource_warmReset (s : State) (cause k : Nat) : hasSource (warmReset s cause) k = (hasSource s k || decide (k = 11)) :=
  nbit_addSource s.aod.sources 11 k

/-- What a warm reset makes of the always-on domain. -/
theorem warmReset_aod (s : State) (cause : Nat) : (warmReset s cause).aod = { s.aod with
    queue := (requeueWriting s.aod s.jrn).queue, valid := true, dawns := satAdd 0xFFFF s.aod.dawns 1, cause := cause, latch := true
    sources := addSource s.aod.sources 11, first := if s.aod.latch then s.aod.first else 11, dropped := 0 } := by
  simp only [warmReset, keepPins]
  rw [requeueWriting_eq]

/-- A Dawn after one of the causes 1 to 4, as R473 states it. -/
def DawnsWith (s t : State) (cause : Nat) : Prop :=
  t.mode.dev = 0 ∧ t.aod.cause = cause ∧ t.aod.latch = true ∧ hasSource t 11 = true ∧
    (∀ k, hasSource s k = true → hasSource t k = true) ∧ (∀ k, k ≠ 11 → hasSource t k = true → hasSource s k = true) ∧
    t.aod.halt = s.aod.halt ∧ t.aod.cls = s.aod.cls ∧ t.aod.dawns = satAdd 0xFFFF s.aod.dawns 1

/-- A warm reset from a state with the always-on domain of `s` is a Dawn of `s`. -/
theorem dawnsWith_warmReset {u : State} (cause : Nat) 
    (h : u.aod = { s.aod with queue := u.aod.queue, lost := u.aod.lost, dropped := u.aod.dropped }) : DawnsWith s (warmReset u cause) cause := by
  have hsrc (k : Nat) : hasSource (warmReset u cause) k = (hasSource s k || decide (k = 11)) := by
    rw [hasSource_warmReset, hasSource, h, hasSource]
  have haod := warmReset_aod u cause
  rw [h] at haod
  exact ⟨rfl, by rw [haod], by rw [haod], by simp [hsrc], fun k hk => by simp [hsrc, hk], fun k hne hk => by simpa [hsrc, hne] using hk,
    by rw [haod], by rw [haod], by rw [haod]⟩

theorem execResetNAssert_up (h : vauxUp s = true) : execResetNAssert s = .next (warmReset s 1) := by
  simp [execResetNAssert, h]

theorem execResetNAssert_down (h : vauxUp s = false) : execResetNAssert s = .next s := by
  simp [execResetNAssert, h]

theorem execVcoreReturn_lost (h : vauxUp s = true) (hc : s.mode.core = false) (hb : s.guard.heartbeat = false) :
    execVcoreReturn s = .next (warmReset (s.modMode fun x => { x with rails := listSet x.rails 1 true }) 2) := by
  simp [execVcoreReturn, h, hc, hb]

theorem execVcoreReturn_idle (h : vauxUp s = false ∨ s.mode.core = true ∨ s.guard.heartbeat = true) : execVcoreReturn s = .next s := by
  refine congrArg _ (if_neg ?_)
  rintro ⟨hv, hc, hb⟩
  simp_all

theorem execPwrfailNHighTimeout_ended (h : vauxUp s = true) (hd : s.mode.dev = 7) (hc : s.mode.duskCause = 2) (hs : s.mode.duskStep = 6) :
    execPwrfailNHighTimeout s = .next (warmReset (s.modMode fun x => { x with pwrfail := false }) 4) := by
  simp [execPwrfailNHighTimeout, h, hd, hc, hs]

theorem execPwrfailNHighTimeout_running (h : s.mode.dev ≠ 7 ∨ s.mode.duskCause ≠ 2 ∨ s.mode.duskStep ≠ 6) :
    execPwrfailNHighTimeout s = .next { s with mode := { s.mode with pwrfail := false } } := by
  refine congrArg _ (if_neg ?_)
  rintro ⟨-, hd, hc, hs⟩
  simp [hd, hc, hs] at h

/-- HBM3's self-refresh for Dusk moves nothing but the controller; the stack keeps its bytes. -/
theorem duskRefresh_eq (s : State) : ∃ h : HbmState, duskRefresh s = { s with hbm := h } ∧ h.st = 4 ∧ h.mem = s.hbm.mem ∧ h.srDusk = true := by
  unfold duskRefresh
  split
  · next h => exact ⟨_, rfl, h, rfl, rfl⟩
  · exact ⟨_, rfl, rfl, enterSelfRefresh_mem _ s.tb.tick, rfl⟩

/-- The state in which a Dusk has ended (R489), before the Dawn that may follow. -/
def duskEnded (s : State) : State := (raise (duskRefresh s) 0x0006 0).modMode fun x => { x with duskStep := 6 }

theorem execDuskDone_ended (h : s.mode.dev = 7) (hs : s.mode.duskStep = 5) (ht : s.hbm.training = false) :
    execDuskDone s = .next (if s.mode.dawnFollows then warmReset (duskEnded s) 3 else duskEnded s) := by
  obtain ⟨x, hx, -⟩ := duskRefresh_eq s
  have hfollows : (duskEnded s).mode.dawnFollows = s.mode.dawnFollows := by simp [duskEnded, State.modMode, hx]
  rw [execDuskDone, if_pos ⟨h, hs, by simp [ht]⟩, ← hfollows]
  rfl

/-- The end of a Dusk touches the always-on domain by its event's record alone. -/
theorem duskEnded_aod (s : State) : (duskEnded s).aod = { s.aod with
    queue := (duskEnded s).aod.queue, lost := (duskEnded s).aod.lost, dropped := (duskEnded s).aod.dropped } := by
  obtain ⟨x, hx, -⟩ := duskRefresh_eq s
  have h := congrArg State.aod (logged_raise (s := duskRefresh s) 0x0006 0)
  rw [hx] at h
  simpa [duskEnded, hx] using h

/-- Settles O7: VAUX's rise gives the reset state; each other cause is a warm reset of a state with the sources, HALT flag and CLASS of
`s`. -/
theorem everyDawnSetsTheLatch : Obligations.EveryDawnSetsTheLatch := by
  refine ⟨fun s => ⟨_, rfl, rfl, rfl, rfl, rfl⟩, fun s c cause h => ?_⟩
  obtain ⟨rfl, rfl, hv⟩ | ⟨rfl, rfl, hv, hc, hb⟩ | ⟨rfl, rfl, hd, hs, hf, ht⟩ | ⟨rfl, rfl, hv, hd, hc, hs⟩ := h
  · exact ⟨_, execResetNAssert_up hv, dawnsWith_warmReset 1 rfl⟩
  · exact ⟨_, execVcoreReturn_lost hv hc hb, dawnsWith_warmReset 2 rfl⟩
  · exact ⟨_, (execDuskDone_ended hd hs ht).trans (by rw [hf]; rfl), dawnsWith_warmReset 3 (duskEnded_aod s)⟩
  · exact ⟨_, execPwrfailNHighTimeout_ended hv hd hc hs, dawnsWith_warmReset 4 rfl⟩

/-! ### The loss of VAUX (R492, R505) -/

theorem vauxUp_listSet_zero (l : List Bool) : nth (listSet l 0 false) 0 false = false := by
  cases l <;> rfl

theorem requeueWriting_of_none (a : AodState) {j : JournalState} (h : j.writing = none) : requeueWriting a j = a := by
  simp [requeueWriting, h]

/-- Settles O8: each reset is the reset state with what it keeps written over it. That VAUX's rise keeps the layout (assumption 93) and
that the other causes do nothing while VAUX is down (assumption 91) are choices of the model. -/
theorem resetsKeepAndSuppliesLose : Obligations.ResetsKeepAndSuppliesLose := by
  refine ⟨⟨fun s => ⟨_, rfl, rfl, rfl, rfl, rfl, rfl⟩, fun s h => ⟨_, execResetNAssert_up h, rfl, ?_⟩,
    fun s h => ⟨execResetNAssert_down h, execVcoreReturn_idle (.inl h)⟩,
    fun s h => ⟨execResetNAssert_up h, execVcoreReturn_lost h, fun hb => execVcoreReturn_idle (.inr hb)⟩⟩,
    fun s => ⟨_, rfl, rfl, vauxUp_listSet_zero _, ?_⟩, fun s => execPwrfailNHighTimeout_running⟩
  · rw [warmReset_aod]
    exact ⟨rfl, rfl, rfl, rfl, fun hw => by rw [requeueWriting_of_none s.aod hw], rfl⟩
  · intro x hx
    obtain ⟨y, -, rfl⟩ := List.mem_map.1 hx
    exact ⟨rfl, rfl⟩

end Sys2Proof.Machine
end

section
/-! SUPPORT. The judgement of a copy by the anchors (R423, R424, R451), and the commands of an update (R455, R456, R368). -/
namespace Sys2Proof.Machine

variable {s : State} {path : PathId} {u : Update}

/-! ### The judgement of a copy -/

/-- A copy is valid only if the Crucible accepts it: that is step 6 of R451. -/
theorem crucAccepts_of_judgeCopy_eq_zero {c : Nat} {commit : Bool} (h : judgeCopy s c commit = 0) : crucAccepts s c commit = true := by
  by_contra hrefused
  refine absurd h ?_
  simp only [judgeCopy, Bool.eq_false_iff.2 hrefused, Bool.not_false, if_true]
  split_ifs <;> decide

theorem crucAccepts_of_blank_anchors (c : Nat) (commit : Bool) (h : ∀ x ∈ s.fuse.anchors, x = none) : crucAccepts s c commit = false := by
  have hblank (k : Nat) : nth s.fuse.anchors k none = none := by
    by_cases hk : k < s.fuse.anchors.length
    · simp [nth, hk, h _ (List.getElem_mem hk)]
    · simp [nth, hk]
  simp [crucAccepts, hblank]

/-- Settles O32: a valid copy needs the Crucible's acceptance, which needs an anchor slot that holds the hash of its key. -/
theorem noAnchorNoIngot : Obligations.NoAnchorNoIngot := by
  intro s c update hblank h
  have haccepts := crucAccepts_of_judgeCopy_eq_zero h
  rw [crucAccepts_of_blank_anchors c update hblank] at haccepts
  exact Bool.false_ne_true haccepts

/-! ### The commands of an update -/

theorem withCommandRole_held {role : Nat} (f : State → State) (h : hasRole s path role = true) : withCommandRole s path role f = f s := by
  simp [withCommandRole, h]

section
variable (hs : serves s path = true) (hr : hasRole s path 7 = true)
include hs hr

theorem execIngotBegin_allowed (n : Nat) : execIngotBegin path n s = .next (beginIngot s path n) :=
  (if_pos hs).trans (congrArg _ (withCommandRole_held _ hr))

theorem execIngotData_allowed (ofs : Nat) (l : List Byte) : execIngotData path ofs l s = .next (dataIngot s ofs l) :=
  (if_pos hs).trans (congrArg _ (withCommandRole_held _ hr))

theorem execIngotCommit_allowed : execIngotCommit path s = .next (commitRequest s) :=
  (if_pos hs).trans (congrArg _ (withCommandRole_held _ hr))

theorem execIngotApply_allowed : execIngotApply path s = .next (applyIngot s path) :=
  (if_pos hs).trans (congrArg _ (withCommandRole_held _ hr))

end

/-- An update of `n` bytes has begun on the copy that is not in force. -/
def updateBegun (s : State) (path : PathId) (n : Nat) : State := s.modMgmt fun m => { m with
  update := some { path := path, length := n, copy := targetCopy s, erased := false }
  committed := if m.committed = some (targetCopy s) then none else m.committed }

theorem beginIngot_open {n : Nat} (hn : n ≤ 16777216) (h4 : n % 4 = 0) (hu : s.mgmt.update = none) (hf : s.therm.flashOpen = true) :
    beginIngot s path n =
      answer (journalIngot (eraseFlash (updateBegun s path n) (copyBase (targetCopy s)) s.jrn.eraseUnit) 6 (targetCopy s) path) 0 [] [] := by
  have hlength : ¬ (16777216 < n ∨ n % 4 ≠ 0) := by omega
  simp only [beginIngot, if_neg hlength, hu, hf, Option.isSome_none, Bool.false_eq_true, if_false, if_true]
  rfl

theorem execIngotEraseDone_open (hu : s.mgmt.update = some u) (he : u.erased = false) (hf : s.therm.flashOpen = true) :
    execIngotEraseDone s = .next ((eraseFlash s (copyBase u.copy) (ceilDiv u.length s.jrn.eraseUnit * s.jrn.eraseUnit)).modMgmt fun m =>
      { m with update := some { u with erased := true } }) := by
  simp [execIngotEraseDone, hu, he, hf]

section
variable (hu : s.mgmt.update = some u) (he : u.erased = true) (hd : u.waitData = none) (hc : u.waitCommit = false)
include hu he hd hc

theorem dataIngot_ready {ofs : Nat} {l : List Byte} (hl : l.length ≤ 1024) (ho : 4 ≤ ofs) (hend : ofs + l.length ≤ u.length) :
    dataIngot s ofs l = if s.therm.flashOpen then answer (programFlash s (copyBase u.copy + ofs) l) 0 [] []
      else s.modMgmt fun m => { m with update := some { u with waitData := some (ofs, l), waitAt := some s.tb.tick } } := by
  have hrange : ¬ (ofs < 4 ∨ u.length < ofs + l.length) := by omega
  simp [dataIngot, hu, he, hd, hc, hl.not_gt, hrange]

theorem commitRequest_open (hf : s.therm.flashOpen = true) : commitRequest s = commitIngot s u := by
  simp [commitRequest, hu, he, hd, hc, hf]

end

/-! ### INGOT_APPLY -/

/-- A list of words staged leaves the settings in force, and changes nothing outside the Ladle. -/
theorem stageWords_eq (s : State) (path : PathId) (ws : List (Nat × Word)) : stageWords s path ws = { s with ladle := { s.ladle with
    stg := (stageWords s path ws).ladle.stg, touched := (stageWords s path ws).ladle.touched } } := by
  induction ws generalizing s with
  | nil => rfl
  | cons w ws ih => exact (ih (stageWord s path w.1 w.2)).trans rfl

/-- The state whose Pour INGOT_APPLY requests (R456): the open settings of copy `c` staged, the sealed ones ready to travel. -/
def applyStaged (s : State) (c : Nat) : State :=
  let s0 := flushHeld s
  let ws := copyWords s.flash c s0.ladle.stg 6 7
  (stageWords (saveTouched s0 (savedWords s0 ws)) .ingot ws).modMgmt fun m => { m with
    applying := some c, applySaved := savedWords s0 ws, sealed := (copyWords s.flash c s0.act 4 5).filter fun e => e.1 != 0x60000 }

theorem applyStaged_act {c : Nat} (hp : s.ladle.pending = none) : (applyStaged s c).ladle.act = s.ladle.act := by
  simp only [applyStaged, State.modMgmt_ladle]
  rw [stageWords_eq, flushHeld_of_none hp]
  rfl

section
variable {c : Nat} (hc : s.mgmt.committed = some c)
include hc

theorem applyIngot_masked (h : 31 &&& pathMask s path ≠ 31) : applyIngot s path = answer (refuseRole s path 7 0) 3 [] [] := by
  simp only [applyIngot, hc, if_pos h]

theorem applyIngot_pours (h : 31 &&& pathMask s path = 31) (hp : s.ladle.pending = none) : applyIngot s path =
    answer (beginPour (applyStaged s c) 31 false 0 .ingotApply path) 0 [BitVec.ofNat 32 ((applyStaged s c).ladle.seq + 1)] [] := by
  simp only [applyIngot, hc, h, hp, ne_eq, not_true_eq_false, if_false, Option.isSome_none, Bool.false_eq_true]
  rfl

end

/-! ### A rejected commit -/

theorem logged_rejectEvent (s : State) (cause : Nat) : Logged s (rejectEvent s cause) := logged_ite _ (logged_raise _ _)

theorem logged_journalIngot (s : State) (result c : Nat) (path : PathId) : Logged s (journalIngot s result c path) :=
  logged_journalKind _ _ _ _

theorem logged_ingotFail (s : State) (path : PathId) : Logged s (ingotFail s path) := logged_raiseP _ _ _

theorem Logged.committed {t : State} (h : Logged s t) : t.mgmt.committed = s.mgmt.committed := by rw [h]

/-- The cause of a judgement is noted for its copy (R451). -/
def causeNoted (s : State) (c cause : Nat) : State :=
  if c = 0 then s.modMgmt fun m => { m with causeA := cause } else s.modMgmt fun m => { m with causeB := cause }

theorem commitIngot_rejected (h : judgeCopy s u.copy true ≠ 0) : commitIngot s u =
    answer (journalIngot (ingotFail (causeNoted ((rejectEvent s (judgeCopy s u.copy true)).modMgmt fun m => { m with update := none })
      u.copy (judgeCopy s u.copy true)) u.path) 8 u.copy u.path) 5 [BitVec.ofNat 32 (judgeCopy s u.copy true)] [] :=
  if_neg fun hboth => h hboth.1

theorem causeNoted_keeps (s : State) (c cause : Nat) : (causeNoted s c cause).flash = s.flash ∧
    (causeNoted s c cause).mgmt.committed = s.mgmt.committed := by
  unfold causeNoted
  split <;> exact ⟨rfl, rfl⟩

theorem commitIngot_rejected_keeps (h : judgeCopy s u.copy true ≠ 0) :
    (commitIngot s u).flash = s.flash ∧ (commitIngot s u).mgmt.committed = s.mgmt.committed := by
  rw [commitIngot_rejected h]
  have hend (v : State) := (logged_ingotFail v u.path).trans (logged_journalIngot _ 8 u.copy u.path)
  have hreject := logged_rejectEvent s (judgeCopy s u.copy true)
  exact ⟨(hend _).flash.trans ((causeNoted_keeps _ _ _).1.trans hreject.flash),
    (hend _).committed.trans ((causeNoted_keeps _ _ _).2.trans hreject.committed)⟩

/-- Settles O31: each command by its gates. That INGOT_BEGIN answers at once (assumption 32) and the role bit that INGOT_APPLY's refused
mask reports (assumption 78) are choices of the model. -/
theorem ingotCommands : Obligations.IngotCommands := by
  refine ⟨fun s path n hs hr hn h4 hu hf => ?begin, fun s u => execIngotEraseDone_open,
    fun s path ofs l u hs hr hu he hd hc hl ho hend => ?data, fun s path u hs hr hu he hd hc hf => ?commit,
    fun s path c hs hr hc => ⟨fun hm hp => ?apply, fun hm => ?masked⟩, fun s u => commitIngot_rejected_keeps⟩
  case begin =>
    exact ⟨_, _, _, (execIngotBegin_allowed hs hr n).trans (congrArg _ (beginIngot_open hn h4 hu hf)), rfl, rfl, rfl⟩
  case data =>
    have hdata := (execIngotData_allowed hs hr ofs l).trans (congrArg _ (dataIngot_ready hu he hd hc hl ho hend))
    exact ⟨fun hf => hdata.trans (congrArg _ (if_pos hf)), fun hf => hdata.trans (congrArg _ (if_neg (by simp [hf])))⟩
  case commit =>
    exact (execIngotCommit_allowed hs hr).trans (congrArg _ (commitRequest_open hu he hd hc hf))
  case apply =>
    refine ⟨applyStaged s c, _, (execIngotApply_allowed hs hr).trans (congrArg _ (applyIngot_pours hc hm hp)), rfl, rfl, applyStaged_act hp⟩
  case masked =>
    exact (execIngotApply_allowed hs hr).trans (congrArg _ (applyIngot_masked hc hm))

end Sys2Proof.Machine
end

section
/-! SUPPORT. POUR, TIME, REVOKE and PROVISION (R422, R431, R460, R462), and the frames of the SPI port (R465, R466). -/
namespace Sys2Proof.Machine

variable {s : State} {path : PathId}

/-! ### POUR, TIME, REVOKE and PROVISION -/

theorem withSession_held (k : Fin 4) {role : Nat} (f : State → State) (h : hasRole s (.eth k) role = true) :
    withSession s (.eth k) role f = f s := withCommandRole_held f h

/-- LADLE_TARGET holds the target that a POUR names. -/
def targetPut (s : State) (target : Nat) : State :=
  putWord (putWord s 0x10004 (BitVec.ofNat 32 target)) 0x10008 (BitVec.ofNat 32 (target / 2 ^ 32))

theorem pourCommand_allowed {v : Word} {target : Nat} (h : writeRefused s path 0x10000 v = none) : pourCommand s path v target =
    answer (pourWrite (targetPut s target) path v.toNat (ladleTarget (targetPut s target))).1
      (pourWrite (targetPut s target) path v.toNat (ladleTarget (targetPut s target))).2
      [BitVec.ofNat 32 (ladleStatus (pourWrite (targetPut s target) path v.toNat (ladleTarget (targetPut s target))).1)] [] := by
  simp only [pourCommand, h]
  rfl

section
variable {slot : Nat} (hslot : slot < 4)
include hslot

theorem revokeSlot_held (k : Fin 4) (hr : hasRole s (.eth k) 8 = true) : revokeSlot s (.eth k) slot =
    answer { s with fuse := { s.fuse with revoked := listSet s.fuse.revoked slot true } } 0 [] [] :=
  (withSession_held k _ hr).trans (if_neg hslot.not_ge)

theorem provisionSlot_local {key : List Byte} (hp : path = .spi ∨ path = .bar0) (hk : key.length = 97) : provisionSlot s path slot key =
    if (nth s.fuse.anchors slot none).isSome then answer s 5 [] []
    else answer { s with fuse := { s.fuse with anchors := listSet s.fuse.anchors slot (some (Config.sha384 key)) } } 0 [] [] := by
  have hpath : ¬ (path ≠ .spi ∧ path ≠ .bar0) := fun h => hp.elim h.1 h.2
  have hform : ¬ (4 ≤ slot ∨ key.length ≠ 97) := by omega
  simp only [provisionSlot, if_neg hpath, if_neg hform]

end

/-- Settles O30: each command by its gates. RESULT 5 for a slot that is not blank is a choice of the model (assumption 90). -/
theorem keyAndTimeCommands : Obligations.KeyAndTimeCommands := by
  refine ⟨fun s path v target hs hw => ⟨_, (if_pos hs).trans (congrArg _ (pourCommand_allowed hw))⟩,
    fun s k ns hs hr => (if_pos hs).trans (congrArg _ (withSession_held k _ hr)),
    fun s k slot hs hr hslot => (if_pos hs).trans (congrArg _ (revokeSlot_held hslot k hr)),
    fun s path slot key hs hp hslot hk hblank => ?blank, fun s path slot key hs hp hslot hk hfull => ?full⟩
  case blank =>
    exact (if_pos hs).trans (congrArg _ ((provisionSlot_local hslot hp hk).trans (if_neg (by simp [hblank]))))
  case full =>
    exact (if_pos hs).trans (congrArg _ ((provisionSlot_local hslot hp hk).trans (if_pos (Option.isSome_iff_ne_none.2 hfull))))

/-! ### SPI frames -/

/-- A good frame's end leaves the count of refused frames and raises nothing. -/
theorem spiEnd_good (s : State) (op : Nat) (out : List Byte) : spiEnd s op 0 out = s.modMgmt fun m =>
    { m with lastResult := 0, lastOp := op, spiReply := out, refused := m.refused % 256 } := rfl

/-- A refused frame's end counts it and raises SPI_FRAME_ERR. -/
theorem spiEnd_refused {op result : Nat} {out : List Byte} (h : result ≠ 0) : spiEnd s op result out = raiseP (s.modMgmt fun m =>
    { m with lastResult := result, lastOp := op, spiReply := out, refused := (m.refused + 1) % 256 }) 0x0016 1 .spi := by
  simp only [spiEnd, if_neg h]

variable {l : List Byte}

theorem spiWrite_malformed {e : Nat} (h : spiForm 0x02 1 l = e) (he : e ≠ 0) : spiWrite s l = spiEnd s (l.getD 0 0).toNat e [] := by
  simp only [spiWrite, h]

theorem spiRead_malformed {e : Nat} (ready : Bool) (h : spiForm 0x03 0 l = e) (he : e ≠ 0) :
    spiRead s l ready = spiEnd s (l.getD 0 0).toNat e [0x5A] := by
  simp only [spiRead, h]

theorem spiWrite_good (h : spiForm 0x02 1 l = 0) (hs : serves s .spi = true) : spiWrite s l =
    spiEnd (pathWrite s .spi (beAt l 2 4) (beWords ((l.drop 6).take (4 * beAt l 1 1)))).1 (l.getD 0 0).toNat
      (spiResult (pathWrite s .spi (beAt l 2 4) (beWords ((l.drop 6).take (4 * beAt l 1 1)))).2) [] := by
  simp only [spiWrite, h, hs, Bool.true_or, if_true]

theorem spiRead_word {w : Word} {u : State} (h : spiForm 0x03 0 l = 0) (hn : beAt l 1 1 = 1) (hs : servesRead s .spi (beAt l 2 4) = true)
    (hg : gatedRead s .spi (beAt l 2 4) = (u, 0, w)) :
    spiRead s l true = spiEnd u (l.getD 0 0).toNat 0 ([0xA5] ++ beBytes 4 w.toNat ++ beBytes 2 (crc16 (beBytes 4 w.toNat))) := by
  have hread : gatedReads .spi 1 (beAt l 2 4) s = (u, 0, [w]) := gatedReads_succ hg rfl
  simp [spiRead, h, hn, hs, hread]

/-- Settles O33: each frame by its form. That a refused READ answers 0x5A and that STATUS leaves the last opcode are choices of the model
(assumption 89). -/
theorem spiFrames : Obligations.SpiFrames := by
  refine ⟨fun s hc => if_pos hc, fun s l e hc h he => ?badWrite, fun s l e ready hc h he => ?badRead,
    fun s l hc h hs hw => ?write, fun s l w u hc h hn hs hg => ?read⟩
  case badWrite => exact (if_pos hc).trans (congrArg _ ((spiWrite_malformed h he).trans (spiEnd_refused he)))
  case badRead => exact (if_pos hc).trans (congrArg _ ((spiRead_malformed ready h he).trans (spiEnd_refused he)))
  case write =>
    refine (if_pos hc).trans (congrArg _ ((spiWrite_good h hs).trans ?_))
    rw [hw]
    exact spiEnd_good _ _ _
  case read => exact (if_pos hc).trans (congrArg _ ((spiRead_word h hn hs hg).trans (spiEnd_good _ _ _)))

end Sys2Proof.Machine
end

section
/-! SUPPORT. The record of an event, its place in the log and what else it signals, and the rate limit (R284, R498 to R501, R519, R520). -/
namespace Sys2Proof.Machine

variable {s : State} {code data : Nat} {path : PathId}

/-! ### The bytes of a record (R498) -/

/-- The bytes of a record before its CRC. -/
def evtHead (r : EvtRec) : List Byte :=
  leBytes 8 r.ts ++ leBytes 4 r.frame ++ leBytes 2 r.code ++ leBytes 2 (r.path % 16 + 16 * (r.seq % 4096))
    ++ leBytes 8 r.data ++ leBytes 1 r.sev ++ leBytes 1 (if r.tdom then 1 else 0) ++ leBytes 4 0

theorem evtBytes_eq (r : EvtRec) : evtBytes r = evtHead r ++ leBytes 2 (crc16 (evtHead r)) := rfl

theorem evtHead_length (r : EvtRec) : (evtHead r).length = 30 := by simp [evtHead]

theorem evtBytes_length (r : EvtRec) : (evtBytes r).length = 32 := by simp [evtBytes_eq, evtHead_length]

theorem evtBytes_take (r : EvtRec) : (evtBytes r).take 30 = evtHead r := by simp [evtBytes_eq, evtHead_length]

theorem evtBytes_drop (r : EvtRec) : (evtBytes r).drop 30 = leBytes 2 (crc16 (evtHead r)) := by simp [evtBytes_eq, evtHead_length]

/-- A field that ends before the CRC is one of the bytes before it. -/
theorem evtBytes_field (r : EvtRec) (k n : Nat) (h : k + n ≤ 30) : ((evtBytes r).drop k).take n = ((evtHead r).drop k).take n := by
  rw [← evtBytes_take, List.drop_take, List.take_take, Nat.min_eq_left (by omega)]

theorem evtBytes_fields (r : EvtRec) :
    leNat (((evtBytes r).drop 0).take 8) = r.ts % 2 ^ 64 ∧ leNat (((evtBytes r).drop 8).take 4) = r.frame % 2 ^ 32 ∧
    leNat (((evtBytes r).drop 12).take 2) = r.code % 2 ^ 16 ∧ leNat (((evtBytes r).drop 14).take 2) = r.path % 16 + 16 * (r.seq % 4096) ∧
    leNat (((evtBytes r).drop 16).take 8) = r.data % 2 ^ 64 ∧ leNat (((evtBytes r).drop 24).take 1) = r.sev % 256 ∧
    leNat (((evtBytes r).drop 25).take 1) = (if r.tdom then 1 else 0) ∧ leNat (((evtBytes r).drop 26).take 4) = 0 ∧
    leNat (((evtBytes r).drop 30).take 2) = crc16 ((evtBytes r).take 30) % 2 ^ 16 := by
  have hpath : (r.path % 16 + 16 * (r.seq % 4096)) % 2 ^ 16 = r.path % 16 + 16 * (r.seq % 4096) := Nat.mod_eq_of_lt (by omega)
  have hdomain : (if r.tdom then 1 else 0) % 256 = if r.tdom then 1 else 0 := by split <;> rfl
  refine ⟨?_, ?_, ?_, hpath ▸ ?_, ?_, ?_, hdomain ▸ ?_, ?_, ?crc⟩
  case crc =>
    rw [evtBytes_drop, evtBytes_take, List.take_of_length_le (by simp), leNat_leBytes, show 256 ^ 2 = 2 ^ 16 by decide]
  all_goals
    rw [evtBytes_field _ _ _ (by decide)]
    simp [evtHead, List.drop_append, List.drop_eq_nil_of_le, List.take_of_length_le, leNat_leBytes]

/-! ### The log (R499, R501, R519) -/

theorem length_insertRecord (r : EvtRec) (l : List EvtRec) : (insertRecord r l).length = l.length + 1 := by
  induction l generalizing r with
  | nil => rfl
  | cons e l ih =>
    unfold insertRecord
    split
    · simp [ih]
    · rfl

/-- A record goes in front of the log unless one of its instant has a higher code. -/
theorem insertRecord_front {r : EvtRec} {l : List EvtRec} (h : ∀ e ∈ l, e.at_ = r.at_ → e.code ≤ r.code) : insertRecord r l = r :: l := by
  cases l with
  | nil => rfl
  | cons e l => exact if_neg fun ⟨hat, hcode⟩ => hcode.not_ge (h e List.mem_cons_self hat)

theorem msix_eq (s : State) (v : Nat) : ∃ x y, msix s v = { s with pcie := { s.pcie with msixLast := x, msixSent := y } } := by
  unfold msix
  dsimp only
  repeat' split
  all_goals exact ⟨_, _, rfl⟩

/-- The interrupts move nothing but the endpoint's record of them (R284). -/
theorem foldl_msix_eq (s : State) (l : List Nat) : ∃ x y, l.foldl msix s = { s with pcie := { s.pcie with msixLast := x, msixSent := y } } := by
  induction l generalizing s with
  | nil => exact ⟨_, _, rfl⟩
  | cons v l ih =>
    obtain ⟨x, y, hone⟩ := msix_eq s v
    obtain ⟨x', y', hrest⟩ := ih (msix s v)
    exact ⟨x', y', hrest.trans (by rw [hone])⟩

/-- The record of an event raised now (R498, R519). -/
def eventRecord (s : State) (code data : Nat) (path : PathId) : EvtRec :=
  { ts := (stamp s).1, frame := frameStamp s, code := code, path := pathNum path, seq := s.log.head % 4096,
    data := data % 2 ^ 64, sev := evtSev code, tdom := (stamp s).2, at_ := s.tb.tick }

/-- The log with the record of an event raised now. -/
def eventLogged (s : State) (code data : Nat) (path : PathId) : State := { s with log := { s.log with
  records := (insertRecord (eventRecord s code data path) s.log.records).take 1024, head := (s.log.head + 1) % 2 ^ 32 } }

/-- An event raised while the core runs: its record, and the interrupts it signals. -/
def eventSignalled (s : State) (code data : Nat) (path : PathId) : State :=
  let t := (evtVectors code (evtSev code)).foldl msix (eventLogged s code data path)
  if s.act.bit 0x80C (evtSev code) then t.modMgmt fun m => { m with irq := true } else t

theorem logOne_running (h : s.mode.core = true) : logOne s code (evtSev code) data path =
    (eventSignalled s code data path, some (eventRecord s code data path)) := by
  rw [logOne, if_neg (by simp [h])]
  rfl

theorem raiseP_stopped (h : s.mode.core = false) : raiseP s code data path = s := by
  have hlog : logOne s code (evtSev code) data path = (s, none) := if_pos (by simp [h])
  simp only [raiseP, raiseSev, hlog]

/-- An event below AUDIT_MIN leaves no journal copy (R438). -/
theorem raiseP_quiet (h : s.mode.core = true) (hsev : evtSev code < auditMin s) : raiseP s code data path = eventSignalled s code data path := by
  have hlog := logOne_running (code := code) (data := data) (path := path) h
  have hladle : (eventSignalled s code data path).ladle = s.ladle := by
    have hsame := (logged_logOne (s := s) code (evtSev code) data path).ladle
    rwa [hlog] at hsame
  have hcopy : copyRecord (eventSignalled s code data path) (eventRecord s code data path) path = none := by
    have hmin : auditMin (eventSignalled s code data path) = auditMin s := by rw [auditMin, State.act, hladle]; rfl
    exact if_neg (by rw [hmin]; exact hsev.not_ge)
  simp only [raiseP, raiseSev, hlog, hcopy]

theorem eventSignalled_eq (s : State) (code data : Nat) (path : PathId) : ∃ x y, eventSignalled s code data path = { s with
    log := (eventLogged s code data path).log
    pcie := { s.pcie with msixLast := x, msixSent := y }
    mgmt := { s.mgmt with irq := s.mgmt.irq || s.act.bit 0x80C (evtSev code) } } := by
  obtain ⟨x, y, hvectors⟩ := foldl_msix_eq (eventLogged s code data path) (evtVectors code (evtSev code))
  refine ⟨x, y, ?_⟩
  unfold eventSignalled
  dsimp only
  rw [hvectors]
  split
  · next h => simp [h, State.modMgmt, eventLogged]
  · next h => simp [h, eventLogged]

/-! ### The rate limit (R520) -/

section
variable {key interval : Nat}

theorem raiseLimited_suppressed {t : Nat} (h : lastRaised s code key = some t) (hnear : localNs s < t + interval) :
    raiseLimited s code key data interval path = s := by
  simp [raiseLimited, h, hnear]

theorem raiseLimited_due (h : ∀ t, lastRaised s code key = some t → t + interval ≤ localNs s) :
    raiseLimited s code key data interval path = raiseP (noteRaised s code key) code data path := by
  unfold raiseLimited
  cases hlast : lastRaised s code key with
  | none => rfl
  | some t => exact if_pos (decide_eq_true (h t hlast))

theorem lastRaised_noteRaised_same (s : State) (code key : Nat) : lastRaised (noteRaised s code key) code key = some (localNs s) := by
  simp [lastRaised, noteRaised]

theorem lastRaised_noteRaised_other {c k : Nat} (h : (c, k) ≠ (code, key)) :
    lastRaised (noteRaised s code key) c k = lastRaised s c k := by
  have hnew : (code == c && key == k) = false := by
    simp only [Bool.and_eq_false_iff, beq_eq_false_iff_ne]
    by_contra hboth
    simp_all
  have hold (e : Nat × Nat × Nat) (he : (e.1 == c && e.2.1 == k) = true) : (e.1 == code && e.2.1 == key) = false := by
    simp only [Bool.and_eq_true, beq_iff_eq] at he
    rw [he.1, he.2, Bool.beq_comm (a := c), Bool.beq_comm (a := k)]
    exact hnew
  simp only [lastRaised, noteRaised, List.find?_cons, hnew, List.find?_filter]
  congr 2
  funext e
  by_cases he : (e.1 == c && e.2.1 == k) = true
  · rw [he, hold e he]
    rfl
  · rw [Bool.not_eq_true] at he
    rw [he]
    simp

end

/-- Settles O9: the bytes field by field; a record's place by the codes of its instant; the limit by the last record of its key. The
order of the records of an instant is a choice of the model (assumption 12). -/
theorem eventsAreRecorded : Obligations.EventsAreRecorded := by
  refine ⟨fun r => ⟨evtBytes_length r, evtBytes_fields r⟩, ⟨fun s code data path => raiseP_stopped, fun s code data path hc hsev => ?logged⟩,
    fun s code key data interval path => ⟨fun t h hnear => raiseLimited_suppressed h hnear,
      fun h => ⟨noteRaised s code key, raiseLimited_due h, rfl, lastRaised_noteRaised_same s code key, fun c k hk => lastRaised_noteRaised_other hk⟩⟩⟩
  case logged =>
    dsimp only
    obtain ⟨x, y, hsignalled⟩ := eventSignalled_eq s code data path
    rw [raiseP_quiet hc hsev, hsignalled]
    refine ⟨rfl, rfl, ?_, fun hfront => congrArg (List.take 1024) (insertRecord_front hfront), rfl⟩
    simp [eventLogged, length_insertRecord]

end Sys2Proof.Machine
end

section
/-! SUPPORT. A Runner's requests and releases, its tokens, and the lottery with its ceilings (R319 to R322, R363, R364). -/
namespace Sys2Proof.Machine

variable {s : State} {h r : Nat}

/-! ### Requests and tokens (R319, R363, R364) -/

theorem takeTokens_free (n : Nat) (hfree : r < 8 ∨ temperLevel s = 0) : takeTokens s r n = some s := if_pos hfree

section
variable (hr : 8 ≤ r) (hk : temperLevel s ≠ 0)
include hr hk

theorem takeTokens_held {n : Nat} (hn : n ≤ tokensNow s) :
    takeTokens s r n = some (s.modRun fun x => { x with tokens := tokensNow s - n, tokensAt := s.tb.tick }) :=
  (if_neg fun hfree => hfree.elim hr.not_gt hk).trans (if_pos hn)

theorem takeTokens_short {n : Nat} (hn : tokensNow s < n) : takeTokens s r n = none :=
  (if_neg fun hfree => hfree.elim hr.not_gt hk).trans (if_neg hn.not_ge)

end

section
variable {n : Nat} {lock : Bool}

/-- A Runner that waits for its tokens on the channel already asks for nothing more. -/
theorem askChannel_waiting (hw : (s.run.tokenWait.any fun w => w.1 == r && w.2.1 == h) = true) : askChannel s h r n lock = s := if_pos hw

variable (hw : (s.run.tokenWait.any fun w => w.1 == r && w.2.1 == h) = false)
include hw

theorem askChannel_queued (hr : 8 ≤ r) (hq : s.run.tokenWait ≠ []) : askChannel s h r n lock =
    serveTokens (s.modRun fun x => { x with tokenWait := s.run.tokenWait ++ [(r, h, n, lock)] })
      ((s.run.tokenWait ++ [(r, h, n, lock)]).foldl (fun l w => insertWait w l) []) :=
  (if_neg (by simp [hw])).trans (if_pos ⟨hr, hq⟩)

/-- With none before it in the queue, or with none needed, a Runner takes its tokens at once. -/
theorem askChannel_first (hq : r < 8 ∨ s.run.tokenWait = []) : askChannel s h r n lock =
    match takeTokens s r n with
    | some t => addRequest t h r lock
    | none => s.modRun fun x => { x with tokenWait := [(r, h, n, lock)] } :=
  (if_neg (by simp [hw])).trans (if_neg fun ⟨hr, hne⟩ => hq.elim hr.not_gt hne)

end

theorem any_wait_nil (h : s.run.tokenWait = []) (p : Nat × Nat × Nat × Bool → Bool) : s.run.tokenWait.any p = false := by
  rw [h, List.any_nil]

/-! ### Releases and grants (R319, R320) -/

theorem execRunnerRelease_owner (ho : (s.chanAt h).owner = some r) : execRunnerRelease r h s = .next (releaseOwner s h) := if_pos ho

theorem execRunnerRelease_waiting (ho : (s.chanAt h).owner ≠ some r) : execRunnerRelease r h s = .next (dropRequest s h r) := if_neg ho

theorem grantFree_lone (ho : (s.chanAt h).owner = none) (hd : (s.chanAt h).drawn = none) (hr : requesters s h = [r]) :
    grantFree s h = grantTo s h r := by
  simp [grantFree, grantAnew, ho, hd, hr]

/-! ### The lottery (R321) -/

section
variable {tk : Nat → Nat}

/-- A number below the sum of the tickets lies in the interval of one of the Runners. -/
theorem intervalOf_of_lt_sum {j : Nat} {l : List Nat} (hj : j < (l.map tk).sum) : ∃ r ∈ l, intervalOf tk j l = some r := by
  induction l generalizing j with
  | nil => simp at hj
  | cons q l ih =>
    by_cases hq : j < tk q
    · exact ⟨q, List.mem_cons_self, if_pos hq⟩
    · rw [List.map_cons, List.sum_cons] at hj
      obtain ⟨r, hr, hwins⟩ := ih (j := j - tk q) (by omega)
      exact ⟨r, List.mem_cons_of_mem q hr, (if_neg hq).trans hwins⟩

/-- A Runner's interval begins where those before it end. -/
theorem intervalOf_append {j : Nat} (pre post : List Nat) (r : Nat) (hlo : (pre.map tk).sum ≤ j) (hhi : j < (pre.map tk).sum + tk r) :
    intervalOf tk j (pre ++ r :: post) = some r := by
  induction pre generalizing j with
  | nil => exact if_pos (by simpa using hhi)
  | cons q pre ih =>
    rw [List.map_cons, List.sum_cons] at hlo hhi
    exact (if_neg (by omega)).trans (ih (by omega) (by omega))

theorem lotteryWinner_of_tickets {req : List Nat} (x : Nat) (hp : (req.filter fun r => tk r ≠ 0) ≠ []) : lotteryWinner tk x req =
    intervalOf tk (x * ((req.filter fun r => tk r ≠ 0).map tk).sum / 65536) (req.filter fun r => tk r ≠ 0) :=
  if_neg (by simpa using hp)

theorem lotteryWinner_noTickets {req : List Nat} (x : Nat) (hz : ∀ r ∈ req, tk r = 0) : lotteryWinner tk x req = req.head? :=
  if_pos (by simpa using hz)

/-- A draw among Runners of which one holds tickets is won by one that does. -/
theorem lotteryWinner_holds {x : Nat} {req : List Nat} (hx : x < 65536) (h : ∃ r ∈ req, tk r ≠ 0) :
    ∃ r, lotteryWinner tk x req = some r ∧ r ∈ req ∧ tk r ≠ 0 := by
  obtain ⟨q, hq, hqt⟩ := h
  have hmem : q ∈ req.filter fun r => tk r ≠ 0 := List.mem_filter.2 ⟨hq, by simpa using hqt⟩
  have hpos : 0 < ((req.filter fun r => tk r ≠ 0).map tk).sum :=
    (Nat.pos_of_ne_zero hqt).trans_le (List.single_le_sum (fun _ _ => Nat.zero_le _) _ (List.mem_map_of_mem hmem))
  have hlt : x * ((req.filter fun r => tk r ≠ 0).map tk).sum / 65536 < ((req.filter fun r => tk r ≠ 0).map tk).sum :=
    Nat.div_lt_of_lt_mul (Nat.mul_lt_mul_of_pos_right hx hpos)
  obtain ⟨r, hr, hwins⟩ := intervalOf_of_lt_sum hlt
  obtain ⟨hreq, htk⟩ := List.mem_filter.1 hr
  exact ⟨r, (lotteryWinner_of_tickets x (List.ne_nil_of_mem hmem)).trans hwins, hreq, by simpa using htk⟩

/-- Among Runners that all hold tickets, a draw is won by the one in whose interval it falls. -/
theorem lotteryWinner_interval {x : Nat} {pre post : List Nat} (hall : ∀ q ∈ pre ++ r :: post, tk q ≠ 0)
    (hlo : (pre.map tk).sum ≤ x * ((pre ++ r :: post).map tk).sum / 65536)
    (hhi : x * ((pre ++ r :: post).map tk).sum / 65536 < (pre.map tk).sum + tk r) : lotteryWinner tk x (pre ++ r :: post) = some r := by
  have hfilter : (pre ++ r :: post).filter (fun r => tk r ≠ 0) = pre ++ r :: post := List.filter_eq_self.2 fun q hq => by simpa using hall q hq
  rw [lotteryWinner_of_tickets x (by rw [hfilter]; simp), hfilter]
  exact intervalOf_append pre post r hlo hhi

end

/-! ### The ceiling (R322) -/

/-- The ceiling names a requester that has reached it; one of RUNNER_08 to RUNNER_15 only where none below does. -/
theorem ceilingWinner_spec {c : ChanArb} {req : List Nat} (hw : ceilingWinner c req = some r) :
    r ∈ req ∧ r ∈ c.atCeil ∧ (8 ≤ r → ∀ q ∈ c.atCeil, q ∈ req → 8 ≤ q) := by
  have hmem {q : Nat} : q ∈ c.atCeil.filter req.contains ↔ q ∈ c.atCeil ∧ q ∈ req := by simp
  unfold ceilingWinner at hw
  dsimp only at hw
  split at hw
  · next q l hlow =>
    obtain rfl := Option.some.inj hw
    obtain ⟨hin, hlt⟩ := List.mem_filter.1 (hlow ▸ List.mem_cons_self : q ∈ (c.atCeil.filter req.contains).filter (· < 8))
    exact ⟨(hmem.1 hin).2, (hmem.1 hin).1, fun hge => absurd hge (of_decide_eq_true hlt).not_ge⟩
  · next hnone =>
    have hin := hmem.1 (List.mem_of_mem_head? hw)
    refine ⟨hin.2, hin.1, fun _ q hq hreq => ?_⟩
    by_contra hlt
    exact List.not_mem_nil (hnone ▸ List.mem_filter.2 ⟨hmem.2 ⟨hq, hreq⟩, decide_eq_true (Nat.lt_of_not_le hlt)⟩)

/-- Settles O37: a request by who waits for tokens and whether it needs them; a release by who owns the channel; the lottery by the
interval in which the draw falls. -/
theorem runnersAndTheLottery : Obligations.RunnersAndTheLottery := by
  refine ⟨⟨fun s r h hw hfree => ?free, fun s r h hr hk hq hn => ?takes, fun s r h hr hk hq hn => ?waits,
    fun s r h hr hq hw => congrArg _ (askChannel_queued hw hr hq), fun s r h hw => congrArg _ (askChannel_waiting hw),
    fun s r h => execRunnerRelease_owner, fun s r h => execRunnerRelease_waiting, fun s h r => grantFree_lone, fun s => rfl⟩,
    fun tk x req => lotteryWinner_holds, fun tk x req => lotteryWinner_noTickets x, fun tk x pre post r => lotteryWinner_interval,
    fun c req r => ceilingWinner_spec⟩
  case free =>
    refine congrArg _ ((askChannel_first hw (hfree.imp_right And.right)).trans ?_)
    rw [takeTokens_free 1 (hfree.imp_right And.left)]
  case takes =>
    refine congrArg _ ((askChannel_first (any_wait_nil hq _) (.inr hq)).trans ?_)
    rw [takeTokens_held hr hk hn]
  case waits =>
    refine congrArg _ ((askChannel_first (any_wait_nil hq _) (.inr hq)).trans ?_)
    rw [takeTokens_short hr hk (by omega)]

end Sys2Proof.Machine
end

section
/-! SUPPORT. SURF_CMD by its operations, and the life of a surface from its zeroing to its reclaim (R332, R337, R340, R342, R348). -/
namespace Sys2Proof.Machine

variable {s : State} {path : PathId} {i : Nat}

/-! ### SURF_CMD (R332, R340, R348, R458) -/

/-- A request of a path that is served but lacks the role is refused. -/
theorem withRole_lacked {role : Nat} (addr : Nat) (f : State → State) (hs : serves s path = true) (hr : hasRole s path role = false) :
    withRole s path role addr f = refuseRole s path role addr := by
  simp [withRole, hs, hr]

theorem nbits_command (op : Nat) (hi : i < 4096) (hop : op < 16) :
    nbits (op * 2 ^ 28 + i) 31 28 = op ∧ nbits (op * 2 ^ 28 + i) 11 0 = i := by
  unfold nbits
  omega

section
variable {v : Nat}

theorem surfCmd_map (h : nbits v 31 28 = 1) : surfCmd s v path = surfMap s (nbits v 11 0) path := by
  simp only [surfCmd, h]

theorem surfCmd_free (h : nbits v 31 28 = 2) : surfCmd s v path = surfFree s (nbits v 11 0) path := by
  simp only [surfCmd, h]

theorem surfCmd_undefined (h1 : nbits v 31 28 ≠ 1) (h2 : nbits v 31 28 ≠ 2) :
    surfCmd s v path = surfResult s (nbits v 11 0) (if s.surf.busy then 1 else 2) path := by
  unfold surfCmd
  split
  · contradiction
  · contradiction
  · rfl

end

/-- A command that fails reports its result and changes no surface. -/
theorem surfResult_failed {result : Nat} (h : result ≠ 0) :
    surfResult s i result path = raiseP (s.modSurf fun m => { m with result := result, cmdSurf := i }) 0x0402 i path := if_neg h

theorem surfCmd_badOp {v : Nat} (h1 : nbits v 31 28 ≠ 1) (h2 : nbits v 31 28 ≠ 2) : surfCmd s v path = raiseP (s.modSurf fun m =>
    { m with result := if m.busy then 1 else 2, cmdSurf := nbits v 11 0 }) 0x0402 (nbits v 11 0) path := by
  rw [surfCmd_undefined h1 h2, surfResult_failed (by split <;> decide)]
  rfl

/-! ### MAP -/

theorem surfMap_busy (h : s.surf.busy = true ∨ (s.surfAt i).st ≠ 0) : surfMap s i path = surfResult s i 1 path := if_pos h

section
variable (hb : s.surf.busy = false) (hst : (s.surfAt i).st = 0)
include hb hst

theorem not_mapBusy : ¬ (s.surf.busy = true ∨ (s.surfAt i).st ≠ 0) := by simp [hb, hst]

theorem surfMap_badArgs (h : mapArgs s (argSurface s) ≠ 0) : surfMap s i path = surfResult s i (mapArgs s (argSurface s)) path :=
  (if_neg (not_mapBusy hb hst)).trans (if_pos h)

theorem surfMap_takes {l1 : Nat} {pages l2s pool tp1 tp2 : List (Nat × Nat)} (h : mapArgs s (argSurface s) = 0)
    (hpages : takePages (2 ^ (argSurface s).pageLog) (argSurface s).bytes s.surf.pool = (pages, pool, 0))
    (hrun : takeRun (argSurface s).l1Bytes s.surf.tablePool = some (l1, tp1))
    (htables : takePages 4096 (4096 * (argSurface s).l1Count) tp1 = (l2s, tp2, 0)) :
    surfMap s i path = ((s.setSurf i { argSurface s with
        l1 := l1 / 4096, pages := pages, tables := (l1, (argSurface s).l1Bytes) :: l2s, mapNo := s.surf.maps + 1 }).modSurf
      fun m => { m with pool := pool, tablePool := tp2, busy := true, maps := s.surf.maps + 1, result := 0, cmdSurf := i }) := by
  refine (if_neg (not_mapBusy hb hst)).trans ?_
  simp only [h, ne_eq, not_true_eq_false, if_false, hpages, hrun, htables]
  rfl

end

/-! ### FREE -/

theorem surfFree_busy (hb : s.surf.busy = true) : surfFree s i path = surfResult s i 1 path := if_pos hb

section
variable (hb : s.surf.busy = false)
include hb

theorem surfFree_notMapped (hst : (s.surfAt i).st ≠ 2) : surfFree s i path = surfResult s i 6 path :=
  (if_neg (by simp [hb])).trans (if_pos hst)

theorem surfFree_mapped (hst : (s.surfAt i).st = 2) : surfFree s i path = raiseP (((s.modLadle fun l => if l.armed then
    { l with pending := l.pending.map fun p => { p with freed := i :: p.freed } } else l).modSurfAt i fun x =>
      { x with st := 3, revoking := true }).modSurf fun m => { m with result := 0, cmdSurf := i }) 0x0403 i path :=
  (if_neg (by simp [hb])).trans (if_neg (by simp [hst]))

end

/-! ### From the zeroing to the reclaim -/

/-- A surface that has been written reads back, unless it was made free. -/
theorem surfAt_setSurf_same {x : Surface} (hx : x ≠ {}) : (s.setSurf i x).surfAt i = x := by
  have hput : Sparse.set (fun _ => ({} : Surface)) s.surf.surfs i x = Sparse.put s.surf.surfs i x := if_neg hx
  rw [State.surfAt, State.setSurf, State.modSurf, hput, Sparse.get_put_any, if_pos rfl]

theorem execSurfMapped_builds {x : Surface} (hfind : (s.surf.surfs.find? fun e => e.2.st == 1) = some (i, x)) (hb : s.surf.busy = true) :
    execSurfMapped s = .next (raise (((s.modHbm fun h => { h with mem := buildTables i x (zeroExtents h.mem x.pages) }).modSurfAt i fun x =>
      { x with st := 2 }).modSurf fun m => { m with busy := false }) 0x0401 i) := by
  simp only [execSurfMapped, hfind, hb, Bool.not_true, Bool.false_eq_true, if_false]

/-- The revoke of a freed surface has reached the TLB and the cache. -/
def revoked (s : State) (i : Nat) : State := (s.modSurfAt i fun x => { x with revoking := false }).modSurf fun m => { m with
  tlb := m.tlb.map fun e => if e.surf = i then { e with hostR := false, hostW := false } else e
  cache := m.cache.filter (· != i) }

theorem revoked_noHostRight : ∀ e ∈ (revoked s i).surf.tlb, e.surf = i → e.hostR = false ∧ e.hostW = false := by
  intro e he hi
  obtain ⟨f, -, rfl⟩ := List.mem_map.1 he
  by_cases hf : f.surf = i
  · rw [if_pos hf]
    exact ⟨rfl, rfl⟩
  · rw [if_neg hf] at hi
    exact absurd hi hf

/-- The reclaim of a surface has begun. -/
def reclaiming (s : State) (i : Nat) : State := (s.modSurfAt i fun x => { x with st := 4, revoking := false }).modSurf fun m => { m with
  tlb := m.tlb.filter fun e => e.surf != i
  walks := m.walks.map fun w => if w.surf = i then { w with gone := true } else w
  cache := m.cache.filter (· != i) }

theorem reclaiming_st : ((reclaiming s i).surfAt i).st = 4 := by
  have hx : { s.surfAt i with st := 4, revoking := false } ≠ ({} : Surface) := fun h => absurd (congrArg Surface.st h) (show (4 : Nat) ≠ 0 by decide)
  have hsame := surfAt_setSurf_same (s := s) (i := i) hx
  exact congrArg Surface.st hsame

theorem reclaiming_walks : ∀ w ∈ (reclaiming s i).surf.walks, w.surf = i → w.gone = true := by
  intro w hw hi
  obtain ⟨f, -, rfl⟩ := List.mem_map.1 hw
  by_cases hf : f.surf = i
  · rw [if_pos hf]
  · rw [if_neg hf] at hi
    exact absurd hi hf

theorem notMem_filter_ne (l : List Nat) (i : Nat) : i ∉ l.filter (· != i) := by simp

/-- Settles O39: each command by its gates and its operation; the life of a surface by its state. Which pages and tables a MAP takes is a
choice of the model (assumption 16). -/
theorem surfaces : Obligations.Surfaces := by
  refine ⟨⟨fun s path i v hs hr => ?served, fun s path i v hs hr => ⟨?_, ?_, ?_⟩, fun s i path => ?results,
    fun s i l1 path pages l2s pool tp1 tp2 hb hst hargs hp hr ht => surfMap_takes hb hst hargs hp hr ht⟩,
    fun s i x => execSurfMapped_builds, fun s i hst => ?revoke, fun s i hst hu => ?reclaim, fun s i hu => ?referenced, fun s i hst => ?reclaimed⟩
  case served =>
    have hheld (n : Nat) : withRole s path 2 0x40000 (fun s => surfCmd s n path) = surfCmd s n path := withRole_held _ _ hs hr
    obtain ⟨hmap, hmapped⟩ := nbits_command 1 i.isLt (by decide)
    obtain ⟨hfree, hfreed⟩ := nbits_command 2 i.isLt (by decide)
    refine ⟨congrArg _ ((hheld _).trans ?_), congrArg _ ((hheld _).trans ?_), fun h => congrArg _ ((hheld _).trans (surfCmd_map h)),
      fun h => congrArg _ ((hheld _).trans (surfCmd_free h)), fun h1 h2 => congrArg _ ((hheld _).trans (surfCmd_badOp h1 h2))⟩
    · rw [← Nat.one_mul (2 ^ 28), surfCmd_map hmap, hmapped]
    · rw [surfCmd_free hfree, hfreed]
  iterate 3 exact congrArg _ (withRole_lacked _ _ hs hr)
  case results =>
    exact ⟨fun h => (surfMap_busy h).trans (surfResult_failed (by decide)), fun hb hst h => (surfMap_badArgs hb hst h).trans (surfResult_failed h),
      fun h => (surfFree_busy h).trans (surfResult_failed (by decide)), fun hb h => (surfFree_notMapped hb h).trans (surfResult_failed (by decide)),
      fun hb h => surfFree_mapped hb h⟩
  case revoke => exact ⟨revoked s i, if_pos hst, rfl, revoked_noHostRight, notMem_filter_ne _ _, rfl⟩
  case reclaim =>
    refine ⟨reclaiming s i, if_pos ⟨hst, hu⟩, rfl, reclaiming_st, fun e he => ?_, notMem_filter_ne _ _, reclaiming_walks⟩
    simpa using (List.mem_filter.1 he).2
  case referenced => exact if_neg (by simp [hu])
  case reclaimed => exact ⟨_, _, if_pos hst, rfl, rfl⟩

end Sys2Proof.Machine
end

section
/-! SUPPORT. Thresholds over many conversions, T_die and the values it is taken from, and the steps of the thermal level (R351, R356 to
R359, R361, R362). -/
namespace Sys2Proof.Machine

variable {s : State}

/-! ### Thresholds (R359) -/

/-- A conversion that breaks the condition awaited starts the dwell afresh. -/
theorem Threshold.judge_breaks {t : Threshold} {up down : Bool} (now : Nat) (h : (if t.entered then down else up) = false) :
    t.judge now up down = ({ t with since := none }, false) := by
  rw [Threshold.judge, if_neg (by simp [h])]

/-- A conversion that meets the condition awaited turns the threshold once the dwell is over. -/
theorem Threshold.judge_meets (b : Bool) (since : Option Nat) (now : Nat) : Threshold.judge { entered := b, since := since } now (!b) b =
    if since.getD now + dwell ≤ now then ({ entered := !b, since := none }, true)
    else ({ entered := b, since := some (since.getD now) }, false) := by
  cases b <;> simp [Threshold.judge]

/-- The condition holds at conversion 0 and at the `n` that follow it, 100 µs apart: the 81st turns the threshold, which then awaits the
other condition. -/
theorem foldl_judge (b : Bool) (t0 n : Nat) :
    (List.range (n + 1)).foldl (fun (t : Threshold) k => (t.judge (t0 + 40000 * k) (!b) b).1) { entered := b, since := none } =
      if n < 80 then { entered := b, since := some t0 } else { entered := !b, since := none } := by
  induction n with
  | zero => simp [Threshold.judge_meets, dwell]
  | succ n ih =>
    rw [List.range_succ, List.foldl_append, ih, List.foldl_cons, List.foldl_nil]
    by_cases hn : n < 80
    · rw [if_pos hn, Threshold.judge_meets, Option.getD_some]
      by_cases hlast : n + 1 < 80
      · rw [if_pos hlast, if_neg (by unfold dwell; omega)]
      · rw [if_neg hlast, if_pos (by unfold dwell; omega)]
    · rw [if_neg hn, if_neg (by omega), Threshold.judge_breaks _ (by cases b <;> rfl)]

/-! ### T_die (R356, R358) -/

/-- The greatest of a list that is not empty is one of it, and no other is above it. -/
theorem greatest_spec {l : List (Int × Nat × Bool)} (h : l ≠ []) : greatest l ∈ l ∧ ∀ e ∈ l, e.1 ≤ (greatest l).1 := by
  induction l with
  | nil => exact absurd rfl h
  | cons e r ih =>
    cases r with
    | nil => exact ⟨List.mem_cons_self, fun f hf => (List.mem_singleton.1 hf ▸ le_rfl)⟩
    | cons f r =>
      obtain ⟨hmem, hmax⟩ := ih (List.cons_ne_nil f r)
      have hstep : greatest (e :: f :: r) = if (greatest (f :: r)).1 ≤ e.1 then e else greatest (f :: r) := rfl
      by_cases hge : (greatest (f :: r)).1 ≤ e.1
      · rw [hstep, if_pos hge]
        exact ⟨List.mem_cons_self, List.forall_mem_cons.2 ⟨le_rfl, fun g hg => (hmax g hg).trans hge⟩⟩
      · rw [hstep, if_neg hge]
        exact ⟨List.mem_cons_of_mem e hmem, List.forall_mem_cons.2 ⟨(Int.lt_of_not_ge hge).le, hmax⟩⟩

theorem nth_map_range {α : Type} (f : Nat → α) {n i : Nat} (h : i < n) (d : α) : nth ((List.range n).map f) i d = f i := by
  simp [nth, h]

/-- What each of the 64 sensors offers as T_die, and the stack's reading where it counts (R358). -/
def tempCands (s : State) (l : List Sensor) : List (Int × Nat × Bool) :=
  let own := (List.range 64).map fun i => ((nth l i {}).value, i, (nth l i {}).subst)
  if s.hbm.st = 4 ∨ s.hbm.st = 0 then own else own ++ [(s.hbm.temp, 64, false)]

/-- The sensors after their own judgement (R355), before their values are taken. -/
def judgedSensors (s : State) (counts : List (Nat × Nat)) : List Sensor :=
  let m := s.rt 4
  let old := s.therm.sensors
  let fuses := s.fuse.sensors
  let readings := (List.range 64).map fun i => roundRat (8 * untrimmedOf (nth fuses i {}) (nth counts i (0, 0)) + ((nth old i {}).ofs : Rat) / 32)
  let live := fun j => ((nth old j {}).st == 0 || (nth old j {}).st == 3) && plausible (nth fuses j {}) (nth counts j (0, 0))
  (List.range 64).map fun i => judgeSensor m fuses counts readings live i (nth old i {})

theorem convert_sensors (s : State) (counts : List (Nat × Nat)) (v : Int) : (convert s counts v).1 = (List.range 64).map fun i =>
    { nth (judgedSensors s counts) i {} with
      value := (contribution (s.rt 4) (judgedSensors s counts) v i).1, subst := (contribution (s.rt 4) (judgedSensors s counts) v i).2 } := rfl

theorem convert_tdie (s : State) (counts : List (Nat × Nat)) (v : Int) :
    (convert s counts v).2.1 = (greatest (tempCands s (convert s counts v).1)).1 := rfl

theorem mem_tempCands {s : State} {l : List Sensor} {e : Int × Nat × Bool} : e ∈ tempCands s l ↔
    (∃ i < 64, e = ((nth l i {}).value, i, (nth l i {}).subst)) ∨ (s.hbm.st ≠ 4 ∧ s.hbm.st ≠ 0 ∧ e = (s.hbm.temp, 64, false)) := by
  unfold tempCands
  dsimp only
  have hown : e ∈ ((List.range 64).map fun i => ((nth l i {}).value, i, (nth l i {}).subst)) ↔
      ∃ i < 64, e = ((nth l i {}).value, i, (nth l i {}).subst) := by simp [eq_comm]
  split
  · next h =>
    rw [hown]
    exact ⟨.inl, fun hr => hr.resolve_right fun ⟨h4, h0, _⟩ => h.elim h4 h0⟩
  · next h =>
    obtain ⟨h4, h0⟩ := not_or.1 h
    rw [List.mem_append, hown, List.mem_singleton]
    exact or_congr_right ⟨fun he => ⟨h4, h0, he⟩, fun hr => hr.2.2⟩

/-- T_die bounds every value, and the stack's reading where it counts; it is one of them. -/
theorem convert_spec (s : State) (counts : List (Nat × Nat)) (v : Int) :
    (convert s counts v).1.length = 64 ∧ (∀ i < 64, (nth (convert s counts v).1 i {}).value ≤ (convert s counts v).2.1) ∧
    (s.hbm.st ≠ 4 → s.hbm.st ≠ 0 → s.hbm.temp ≤ (convert s counts v).2.1) ∧
    ((convert s counts v).2.1 = s.hbm.temp ∨ ∃ i < 64, (nth (convert s counts v).1 i {}).value = (convert s counts v).2.1) ∧
    ∀ i < 64, (nth (convert s counts v).1 i {}).st = 0 →
      (nth (convert s counts v).1 i {}).value = (nth (convert s counts v).1 i {}).reading ∧ (nth (convert s counts v).1 i {}).subst = false := by
  have hcand (i : Nat) (hi : i < 64) : ((nth (convert s counts v).1 i {}).value, i, (nth (convert s counts v).1 i {}).subst) ∈
      tempCands s (convert s counts v).1 := mem_tempCands.2 (.inl ⟨i, hi, rfl⟩)
  obtain ⟨hmem, hmax⟩ := greatest_spec (List.ne_nil_of_mem (hcand 0 (by decide)))
  refine ⟨by simp [convert_sensors], fun i hi => hmax _ (hcand i hi), fun h4 h0 => hmax _ (mem_tempCands.2 (.inr ⟨h4, h0, rfl⟩)), ?_,
    fun i hi => ?_⟩
  · obtain ⟨i, hi, hg⟩ | ⟨-, -, hg⟩ := mem_tempCands.1 hmem
    · exact .inr ⟨i, hi, by rw [convert_tdie, hg]⟩
    · exact .inl (by rw [convert_tdie, hg])
  · rw [convert_sensors, nth_map_range _ hi]
    intro hlive
    have hown : contribution (s.rt 4) (judgedSensors s counts) v i = ((nth (judgedSensors s counts) i {}).reading, false) := if_pos hlive
    exact ⟨by rw [hown], by rw [hown]⟩

/-! ### A conversion of the 64 sensors (R351, R357, R362) -/

/-- The sensors that have failed at this conversion. -/
def failedNow (s : State) (l : List Sensor) : List Nat :=
  (List.range 64).filter fun i => (nth l i {}).st == 2 && (nth s.therm.sensors i {}).st != 2

/-- A conversion's readings are taken, with SENSOR_FAIL and the hold of 2 s for the sensors that failed. -/
def sensorsRead (s : State) (l : List Sensor) (d : Int) (src : Nat) (sub : Bool) : State :=
  (failedNow s l).foldl (fun t i => raise t 0x0D06 (thermData i (nth l i {}).value 0)) { s with free := s.free + 1, therm := { s.therm with
    sensors := l, tdie := d, src := src, subst := sub, converted := true
    holdUntil := if failedNow s l = [] then s.therm.holdUntil else s.tb.tick + 800000000 } }

section
variable {counts : List (Nat × Nat)} {l : List Sensor} {d : Int} {src : Nat} {sub : Bool}
  (hc : convert { s with free := s.free + 1 } counts (Config.freeNat 2 s.free) = (l, d, src, sub))
include hc

/-- A conversion judges T_die and the window, after the HALT of a die that its sensors cover no longer. -/
theorem sensorConversion_eq : sensorConversion counts s = judgeWindow (judgeDie (noteTemp
    (match if s.therm.converted && (uncoveredDie s.therm.sensors).isSome then none else uncoveredDie l with
      | none => sensorsRead s l d src sub
      | some k =>
        let i := ((nth dieSensors k []).find? fun j => (nth l j {}).st != 0).getD 0
        shutdownRecord (raiseHalt (sensorsRead s l d src sub) 0x0D07 (thermData i (nth l i {}).value 0)) 0x0D07) 6 d)) := by
  simp only [sensorConversion, State.draw, hc, sensorsRead, failedNow, List.isEmpty_iff]
  rfl

theorem sensorConversion_covered (h : uncoveredDie l = none ∨ (s.therm.converted = true ∧ (uncoveredDie s.therm.sensors).isSome = true)) :
    sensorConversion counts s = judgeWindow (judgeDie (noteTemp (sensorsRead s l d src sub) 6 d)) := by
  have hnone : (if s.therm.converted && (uncoveredDie s.therm.sensors).isSome then none else uncoveredDie l) = none := by
    obtain hl | ⟨hconv, hold⟩ := h
    · simp [hl]
    · simp [hconv, hold]
  rw [sensorConversion_eq hc, hnone]

theorem sensorConversion_uncovered {k i : Nat} (hl : uncoveredDie l = some k)
    (h : s.therm.converted = false ∨ uncoveredDie s.therm.sensors = none) (hi : (nth dieSensors k []).find? (fun j => (nth l j {}).st != 0) = some i) :
    sensorConversion counts s = judgeWindow (judgeDie (noteTemp
      (shutdownRecord (raiseHalt (sensorsRead s l d src sub) 0x0D07 (thermData i (nth l i {}).value 0)) 0x0D07) 6 d)) := by
  have hsome : (if s.therm.converted && (uncoveredDie s.therm.sensors).isSome then none else uncoveredDie l) = some k := by
    obtain hconv | hold := h
    · simp [hl, hconv]
    · simp [hl, hold]
  rw [sensorConversion_eq hc, hsome]
  simp only [hi, Option.getD_some]

end

/-! ### The thermal level (R361, R362) -/

theorem execTemperLevelStep_rises (hr : riseHolds s.therm = true) (ht : s.therm.lastChange + (s.rt 4).fld 0xD0008 7 0 * 400000 ≤ s.tb.tick) :
    execTemperLevelStep s = .next (setLevel s true) := if_pos (by simp [hr, ht])

section
variable (hr : riseHolds s.therm = false ∨ s.tb.tick < s.therm.lastChange + (s.rt 4).fld 0xD0008 7 0 * 400000)
include hr

theorem not_rises : ¬ (riseHolds s.therm && decide (s.therm.lastChange + (s.rt 4).fld 0xD0008 7 0 * 400000 ≤ s.tb.tick)) = true := by
  obtain h | h := hr
  · simp [h]
  · simp [h]

theorem execTemperLevelStep_falls (hf : fallHolds (s.rt 4) s.therm s.tb.tick = true) (hh : s.therm.holdUntil = 0) :
    execTemperLevelStep s = .next (setLevel s false) := (if_neg (not_rises hr)).trans (if_pos (by simp [hf, hh]))

theorem execTemperLevelStep_stays (hf : fallHolds (s.rt 4) s.therm s.tb.tick = false ∨ s.therm.holdUntil ≠ 0) :
    execTemperLevelStep s = .next s := by
  refine (if_neg (not_rises hr)).trans (if_neg ?_)
  obtain h | h := hf
  · simp [h]
  · simp [h]

end

/-- The hold of 2 s is over. -/
def holdOver (s : State) : State := s.modTherm fun t => { t with holdUntil := 0 }

theorem execSensorFailHoldEnd_over (h : s.therm.holdUntil ≠ 0) (ht : s.therm.holdUntil ≤ s.tb.tick) : execSensorFailHoldEnd s =
    if fallHolds (s.rt 4) s.therm s.tb.tick then .next (setLevel (holdOver s) false) else .next (holdOver s) :=
  if_neg fun hor => hor.elim h ht.not_gt

theorem execSensorFailHoldEnd_early (h : s.therm.holdUntil = 0 ∨ s.tb.tick < s.therm.holdUntil) : execSensorFailHoldEnd s = .next s := if_pos h

theorem riseHolds_iff (t : ThermState) : riseHolds t = true ↔ t.temper.entered = true ∧ t.level < 7 ∧ 816 ≤ t.tdie := by
  simp only [riseHolds, Bool.and_eq_true, decide_eq_true_eq, and_assoc, and_comm (a := (816 : Int) ≤ t.tdie)]

theorem fallHolds_iff (m : WordMap) (t : ThermState) (now : Nat) : fallHolds m t now = true ↔ t.belowDone = true ∧ 0 < t.level ∧
    (t.fallen = false ∨ t.lastChange + m.fld 0xD0008 23 8 * 400000 ≤ now) := by
  simp only [fallHolds, Bool.and_eq_true, Bool.or_eq_true, Bool.not_eq_true', decide_eq_true_eq, and_assoc]

/-- Settles O52: the thresholds by induction over the conversions, T_die as the greatest of its candidates, the level by its conditions. That
the first fall of a dwell takes place at once (assumption 40) and which sensor a HALT names (assumption 41) are choices of the model. -/
theorem thermalLevel : Obligations.ThermalLevel := by
  refine ⟨⟨foldl_judge false, foldl_judge true, fun t now up down => ⟨fun he hu => ?up, fun he hd => ?down⟩⟩,
    ⟨convert_spec, fun s u counts l d src sub failed hc hfailed hu => ?conversion⟩,
    fun s => execTemperLevelStep_rises, fun s hr => ⟨execTemperLevelStep_falls hr, execTemperLevelStep_stays hr⟩,
    fun s h ht => ⟨fun hf => ?falls, fun hf => ?stays⟩, fun s => execSensorFailHoldEnd_early, riseHolds_iff, fallHolds_iff⟩
  case up => exact Threshold.judge_breaks now (by simp [he, hu])
  case down => exact Threshold.judge_breaks now (by simp [he, hd])
  case conversion =>
    subst hfailed
    subst hu
    exact ⟨fun h => congrArg (fun t => Host.Outcome.next (continueBody t)) (sensorConversion_covered hc h),
      fun k i hl h hi => congrArg (fun t => Host.Outcome.next (continueBody t)) (sensorConversion_uncovered hc hl h hi)⟩
  case falls => exact (execSensorFailHoldEnd_over h ht).trans (if_pos hf)
  case stays => exact (execSensorFailHoldEnd_over h ht).trans (if_neg (by simp [hf]))

end Sys2Proof.Machine
end

section
/-! SUPPORT. Written journal records and flash writes that wait too long (R367 to R369, R388, R437, R438); droop and the admission of
power domains (R370 to R372). -/
namespace Sys2Proof.Machine

variable {s : State}

/-! ### A written record (R367, R369, R437, R438) -/

/-- A record whose check word is written has joined the chain; the next one has not begun. -/
def recordWritten (s : State) (r : JrnRec) (b : List Byte) : State := { s with
  flash := Memory.store flashDefault s.flash ((journalArea s).1 + s.jrn.pos) b
  jrn := { s.jrn with
    writing := none, seq := s.jrn.seq + 1, prev := Config.sha384 b, sinceSig := if r.kind = 1 then 0 else s.jrn.sinceSig + 1
    sigDue := decide (r.kind ≠ 1) && (s.jrn.sigDue || decide (2 ≤ r.sev) || decide (0 < signInterval s ∧
      signInterval s ≤ (if r.kind = 1 then 0 else s.jrn.sinceSig + 1)))
    mirror := if r.kind = 7 then true else if r.kind = 6 ∨ r.kind = 8 then false else s.jrn.mirror }
  aod := { s.aod with dirty := if r.kind = 6 ∨ r.kind = 8 then false else if r.kind = 7 then true else s.aod.dirty }
  mode := { s.mode with duskStep := if r.kind = 8 ∧ s.mode.dev = 7 ∧ s.mode.duskStep = 4 then 5 else s.mode.duskStep } }

section
variable {r : JrnRec} {b : List Byte}

theorem execJournalWriteDone_writes (h : s.jrn.writing = some (r, b)) :
    execJournalWriteDone s = .next (journalKick (journalAdvance (recordWritten s r b))) := by
  simp only [execJournalWriteDone, h]
  congr 3
  unfold recordWritten
  by_cases h6 : r.kind = 6 ∨ r.kind = 8
  · by_cases h8 : r.kind = 8 ∧ s.mode.dev = 7 ∧ s.mode.duskStep = 4
    · simp only [if_pos h6, if_pos h8, State.modAod, State.modJrn, State.modMode]
    · simp only [if_pos h6, if_neg h8, State.modAod, State.modJrn]
  · have h8 : ¬ (r.kind = 8 ∧ s.mode.dev = 7 ∧ s.mode.duskStep = 4) := fun h => h6 (.inr h.1)
    by_cases h7 : r.kind = 7
    · simp only [if_neg h6, if_pos h7, if_neg h8, State.modAod, State.modJrn]
    · simp only [if_neg h6, if_neg h7, if_neg h8, State.modJrn]

theorem execJournalWriteDone_idle (h : s.jrn.writing = none) : execJournalWriteDone s = .next s := by
  simp only [execJournalWriteDone, h]

/-- A signature record starts a new count; another counts, and makes one due by its severity or the interval (R438). -/
theorem recordWritten_signature (s : State) (r : JrnRec) (b : List Byte) :
    (r.kind = 1 → (recordWritten s r b).jrn.sinceSig = 0 ∧ (recordWritten s r b).jrn.sigDue = false) ∧
    (r.kind ≠ 1 → (recordWritten s r b).jrn.sinceSig = s.jrn.sinceSig + 1 ∧ ((recordWritten s r b).jrn.sigDue = true ↔
      s.jrn.sigDue = true ∨ 2 ≤ r.sev ∨ (0 < signInterval s ∧ signInterval s ≤ s.jrn.sinceSig + 1))) := by
  refine ⟨fun h => by simp [recordWritten, h], fun h => ?_⟩
  simp [recordWritten, h, or_assoc]

/-- Shutdown and session-close records clear the dirty flag and the mirror, a session-open record sets both (R369). -/
theorem recordWritten_dirty (s : State) (r : JrnRec) (b : List Byte) :
    (r.kind = 6 ∨ r.kind = 8 → (recordWritten s r b).aod.dirty = false ∧ (recordWritten s r b).jrn.mirror = false) ∧
    (r.kind = 7 → (recordWritten s r b).aod.dirty = true ∧ (recordWritten s r b).jrn.mirror = true) ∧
    (r.kind ≠ 6 → r.kind ≠ 7 → r.kind ≠ 8 → (recordWritten s r b).aod.dirty = s.aod.dirty ∧ (recordWritten s r b).jrn.mirror = s.jrn.mirror) := by
  refine ⟨fun h => ?_, fun h => by simp [recordWritten, h], fun h6 h7 h8 => by simp [recordWritten, h6, h7, h8]⟩
  obtain h | h := h
  · simp [recordWritten, h]
  · simp [recordWritten, h]

end

/-! ### A flash write that waits (R368, R388) -/

theorem flashWaitOver_open (hf : s.therm.flashOpen = true) : flashWaitOver s = s := by
  simp only [flashWaitOver, hf, if_true]
  split
  · simp
  · rfl

section
variable {u : Update} {t : Nat} (hu : s.mgmt.update = some u) (hw : u.waitAt = some t)
include hu hw

theorem refuseIngotWait_early (ht : s.tb.tick < t + 4000000000) : refuseIngotWait s = s := by
  simp [refuseIngotWait, hu, hw, waitedOut, ht]

variable (ht : t + 4000000000 ≤ s.tb.tick)
include ht

theorem refuseIngotWait_write (h : u.waitData.isSome = true ∨ u.waitCommit = true) : refuseIngotWait s = answer (ingotFail (s.modMgmt fun m =>
    { m with update := some { u with waitData := none, waitCommit := false, waitAt := none } }) u.path) 6 [] [] := by
  simp only [refuseIngotWait, hu, hw, waitedOut, decide_eq_true ht, Bool.not_true, Bool.false_eq_true, if_false, if_pos h]

theorem refuseIngotWait_erase (hd : u.waitData = none) (hc : u.waitCommit = false) (he : u.erased = false) :
    refuseIngotWait s = answer (ingotFail (s.modMgmt fun m => { m with update := none }) u.path) 6 [] [] := by
  simp [refuseIngotWait, hu, hw, waitedOut, ht, hd, hc, he]

end

theorem refuseIngotWait_idle (h : s.mgmt.update = none) : refuseIngotWait s = s := by
  simp only [refuseIngotWait, h]

theorem refuseIngotWait_ann (s : State) : (refuseIngotWait s).ann = s.ann := by
  unfold refuseIngotWait
  split
  · rfl
  · split_ifs
    · rfl
    · simp [answer, ingotFail]
    · simp [answer, ingotFail]
    · rfl

/-- With the window closed and no Anneal run, only an ingot's write can be refused. -/
theorem flashWaitOver_ingot (hf : s.therm.flashOpen = false) (hr : s.ann.run = none) : flashWaitOver s = refuseIngotWait s := by
  have hrun : (refuseIngotWait s).ann.run = none := by rw [refuseIngotWait_ann, hr]
  simp only [flashWaitOver, hf, Bool.false_eq_true, if_false, hrun]

theorem flashWaitOver_anneal {r : AnnRun} (hf : s.therm.flashOpen = false) (hu : s.mgmt.update = none) (hr : s.ann.run = some r) :
    flashWaitOver s = if r.writeWait = true ∧ r.waitAt + 4000000000 ≤ s.tb.tick then refuseRun s else s := by
  simp [flashWaitOver, hf, refuseIngotWait_idle hu, hr]

/-- Settles O53: the record by its kind; the wait by what waits. -/
theorem journalRecordsAreWritten : Obligations.JournalRecordsAreWritten := by
  refine ⟨fun s r b h => ?written, fun s => execJournalWriteDone_idle,
    fun s hf => congrArg (fun t => Host.Outcome.next (continueBody t)) (flashWaitOver_open hf), fun s u t hf hu hr hw => ?ingot,
    fun s r hf hu hr => congrArg (fun t => Host.Outcome.next (continueBody t)) (flashWaitOver_anneal hf hu hr)⟩
  case written =>
    obtain ⟨hsig, hnosig⟩ := recordWritten_signature s r b
    obtain ⟨hclose, hopen, hother⟩ := recordWritten_dirty s r b
    exact ⟨recordWritten s r b, execJournalWriteDone_writes h, rfl, rfl, rfl, rfl, rfl, hsig, hnosig, hclose, hopen, hother, rfl⟩
  case ingot =>
    have hover {v : State} (h : refuseIngotWait s = v) : exec .flashWriteWaitTimeout s = .next (continueBody v) :=
      congrArg (fun t => Host.Outcome.next (continueBody t)) ((flashWaitOver_ingot hf hr).trans h)
    exact ⟨fun ht => hover (refuseIngotWait_early hu hw ht), fun ht h => hover (refuseIngotWait_write hu hw ht h),
      fun ht hd hc he => hover (refuseIngotWait_erase hu hw ht hd hc he)⟩

/-! ### Droop (R370) -/

/-- A sample of sensor `i` has joined its ring, with the estimate it gives. -/
def sampled (s : State) (i count : Nat) : ThermState := { s.therm with
  rings := listSet s.therm.rings i ((count :: nth s.therm.rings i []).take 10000)
  estimates := listSet s.therm.estimates i (dropOf (nth s.fuse.sensors i {}) (nth s.therm.rings i []) count) }

section
variable {i : Nat} (count : Nat)

theorem execDroopSample_senseless (h : senses i = false) : execDroopSample i count s = .next s := if_pos (by simp [h])

variable (h : senses i = true) {d : Rat} (hd : d = dropOf (nth s.fuse.sensors i {}) (nth s.therm.rings i []) count)
include h hd

theorem execDroopSample_begins (hn : s.therm.droop = false) (hge : (droopMv (s.rt 4) : Rat) ≤ d) : execDroopSample i count s =
    .next (raiseLimited { s with therm := { sampled s i count with
      droop := true, droopSensor := i, droopDepth := min 255 d.floor.toNat, droopCount := satAdd 0xFFFF s.therm.droopCount 1, calmSince := none } }
        0x0D0E 0 (i + min 0xFFFF d.floor.toNat * 2 ^ 16) oneSecond .internal) := by
  subst hd
  simp only [execDroopSample, h, State.modTherm, hn, Bool.false_and, Bool.not_true, Bool.false_eq_true, if_false, if_pos hge, sampled]

theorem execDroopSample_calm (hn : s.therm.droop = false) (hlt : d < (droopMv (s.rt 4) : Rat)) :
    execDroopSample i count s = .next { s with therm := { sampled s i count with calmSince := none } } := by
  subst hd
  simp only [execDroopSample, h, State.modTherm, hn, Bool.false_and, Bool.not_true, Bool.false_eq_true, if_false, if_neg hlt.not_ge, sampled]

theorem execDroopSample_lasts (hn : s.therm.droop = true) : execDroopSample i count s = .next { s with therm := { sampled s i count with
    calmSince := if ((sampled s i count).estimates.all fun e => decide (2 * e < (droopMv (s.rt 4) : Rat))) then
      some (s.therm.calmSince.getD s.tb.tick) else none
    droopDepth := max s.therm.droopDepth (min 255 d.floor.toNat) } } := by
  subst hd
  simp only [execDroopSample, h, State.modTherm, hn, Bool.true_and, Bool.not_true, Bool.false_eq_true, if_false, if_true, sampled]

end

section
variable {t : Nat} (hc : s.therm.calmSince = some t)
include hc

theorem execDroopClear_early (h : s.tb.tick < t + (s.rt 4).fld 0xD0020 15 8 * 400) : execDroopClear s = .next s := by
  simp [execDroopClear, hc, h]

theorem execDroopClear_calm (hd : s.therm.droop = true) (h : t + (s.rt 4).fld 0xD0020 15 8 * 400 ≤ s.tb.tick) :
    execDroopClear s = .next { s with
      therm := { s.therm with droop := false, calmSince := none }, drive := { s.drive with paused := false } } := by
  simp only [execDroopClear, hd, hc, decide_eq_true h, Bool.and_self, if_true]
  rfl

end

theorem execDroopClear_none (h : s.therm.droop = false ∨ s.therm.calmSince = none) : execDroopClear s = .next s := by
  obtain h | h := h
  · simp [execDroopClear, h]
  · simp [execDroopClear, h]

/-! ### Power domains (R371, R372) -/

section
variable {d : Nat}

theorem execDomainWakeRequest_eq (s : State) (d : Nat) : execDomainWakeRequest d s = .next (if nbit s.therm.awake d then s else
    s.modTherm fun t => { t with pend := withBit t.pend d true }) := by
  unfold execDomainWakeRequest
  split <;> rfl

section
variable (hd : (List.range 26).find? (nbit s.therm.pend) = some d)
include hd

theorem execDomainWakeAdmit_admits (h : admissible s = true) : execDomainWakeAdmit s = .next { s with
    therm := { s.therm with pend := withBit s.therm.pend d false, awake := withBit s.therm.awake d true, wokenAt := listSet s.therm.wokenAt d s.tb.tick }
    drive := { s.drive with lastAdmit := some s.tb.tick } } := by
  simp only [execDomainWakeAdmit, hd, h, if_true]
  rfl

theorem execDomainWakeAdmit_waits (h : admissible s = false) : execDomainWakeAdmit s = .next s := by
  simp only [execDomainWakeAdmit, hd, h, Bool.false_eq_true, if_false]

end

theorem execDomainWakeAdmit_idle (h : (List.range 26).find? (nbit s.therm.pend) = none) : execDomainWakeAdmit s = .next s := by
  simp only [execDomainWakeAdmit, h]

theorem admissible_iff (s : State) : admissible s = true ↔
    s.therm.droop = false ∧ ∀ t, s.drive.lastAdmit = some t → t + 400 * wakeGap (s.rt 4) ≤ s.tb.tick := by
  unfold admissible
  cases s.drive.lastAdmit with
  | none => simp
  | some t => simp

theorem execDomainUsable_due (h : nbit s.therm.awake d = true) (ht : nth s.therm.wokenAt d 0 + 800 ≤ s.tb.tick) :
    execDomainUsable d s = .next (s.modTherm fun t => { t with usable := withBit t.usable d true }) := if_pos ⟨h, ht⟩

theorem execDomainUsable_early (h : nbit s.therm.awake d = false ∨ s.tb.tick < nth s.therm.wokenAt d 0 + 800) :
    execDomainUsable d s = .next s :=
  if_neg fun ⟨hawake, ht⟩ => h.elim (by simp [hawake]) ht.not_gt

end

/-- Settles O54: a sample by its sensor, its drop and the droop it falls in; a wake by what is pending and admissible. What uses a domain is
a choice of the model (assumption 130). -/
theorem droopAndDomains : Obligations.DroopAndDomains := by
  refine ⟨fun s i count => execDroopSample_senseless count, fun s i count d t h hd ht => ?sample,
    fun s t hd hc => ⟨execDroopClear_calm hc hd, execDroopClear_early hc⟩, fun s => execDroopClear_none,
    fun s d => execDomainWakeRequest_eq s d, fun s d hd => ⟨execDomainWakeAdmit_admits hd, execDomainWakeAdmit_waits hd⟩,
    fun s => execDomainWakeAdmit_idle, admissible_iff, fun s d => ⟨execDomainUsable_due, execDomainUsable_early⟩,
    fun s d hu => if_pos hu, fun s d hu => if_neg (by simp [hu])⟩
  case sample =>
    have hsampled : t = sampled s i count := by rw [ht, hd, sampled]
    subst hsampled
    exact ⟨execDroopSample_begins count h hd, execDroopSample_calm count h hd, execDroopSample_lasts count h hd⟩

end Sys2Proof.Machine
end

section
/-! SUPPORT. What the end of an Anneal run leaves as it was: the generators, the outputs' modes, the settings in force and the block in
force (R380, R381, R386 to R388). -/
namespace Sys2Proof.Machine

/-- What the operations around the end of a run leave: generators, outputs, settings in force, and the Anneal engine's own record. -/
def State.annFrame (s : State) : List TgState × List OutMode × WordMap × Option AnnRun × Nat × Nat × List Byte :=
  (s.tg, s.mode.outs, s.ladle.act, s.ann.run, s.ann.outcome, s.ann.cause, s.ann.block)

variable (s : State)

@[simp] theorem annFrame_seq (o : Nat) (f : SeqState → SeqState) : (s.modSeq o f).annFrame = s.annFrame := rfl
@[simp] theorem annFrame_scan (o : Nat) (f : ScanState → ScanState) : (s.modScan o f).annFrame = s.annFrame := rfl
@[simp] theorem annFrame_str (nn : Nat) (f : StringState → StringState) : (s.modStr nn f).annFrame = s.annFrame := rfl
@[simp] theorem annFrame_chan (o c : Nat) (f : ChanState → ChanState) : (s.modChan o c f).annFrame = s.annFrame := rfl
@[simp] theorem annFrame_drive (f : DriveState → DriveState) : (s.modDrive f).annFrame = s.annFrame := rfl
@[simp] theorem annFrame_comp (o : Nat) (f : CompState → CompState) : (s.modComp o f).annFrame = s.annFrame := rfl
@[simp] theorem annFrame_composer (f : ComposerState → ComposerState) : (s.modComposer f).annFrame = s.annFrame := rfl
@[simp] theorem annFrame_surf (f : SurfState → SurfState) : (s.modSurf f).annFrame = s.annFrame := rfl
@[simp] theorem annFrame_mgmt (f : MgmtState → MgmtState) : (s.modMgmt f).annFrame = s.annFrame := rfl
@[simp] theorem annFrame_mode (f : ModeState → ModeState) (h : (f s.mode).outs = s.mode.outs) : (s.modMode f).annFrame = s.annFrame := by
  simp [State.annFrame, State.modMode, h]
@[simp] theorem annFrame_ladle (f : LadleState → LadleState) (h : (f s.ladle).act = s.ladle.act) : (s.modLadle f).annFrame = s.annFrame := by
  simp [State.annFrame, State.modLadle, h]
@[simp] theorem annFrame_ite (c : Prop) [Decidable c] (a b : State) : (if c then a else b).annFrame = if c then a.annFrame else b.annFrame := by
  split <;> rfl

/-- A fold whose every step keeps it. -/
@[simp] theorem annFrame_foldl {α : Type} (g : State → α → State) (h : ∀ t a, (g t a).annFrame = t.annFrame) (l : List α) :
    (l.foldl g s).annFrame = s.annFrame := by
  induction l generalizing s with
  | nil => rfl
  | cons a r ih => rw [List.foldl, ih, h]

theorem Logged.annFrame {t : State} (h : Logged s t) : t.annFrame = s.annFrame := by rw [h]; rfl

@[simp] theorem annFrame_raise (code data : Nat) : (raise s code data).annFrame = s.annFrame := (logged_raise _ _).annFrame
@[simp] theorem annFrame_offString (nn : Nat) : (offString s nn).annFrame = s.annFrame := by simp [offString, holdLoop]
@[simp] theorem annFrame_stopStrings (o : Nat) : (stopStrings s o).annFrame = s.annFrame := by simp [stopStrings]
@[simp] theorem annFrame_noteDark (o : Nat) : (noteDark s o).annFrame = s.annFrame := by simp [noteDark]
@[simp] theorem annFrame_setDevice (m : Nat) : (setDevice s m).annFrame = s.annFrame := by simp [setDevice, modeChange]
@[simp] theorem annFrame_releaseFrame (o : Nat) (phase : FramePhase) : (releaseFrame s o phase).annFrame = s.annFrame := rfl
@[simp] theorem annFrame_stopComposition (o cause : Nat) : (stopComposition s o cause).annFrame = s.annFrame := by
  unfold stopComposition
  split <;> rfl
@[simp] theorem annFrame_restoreStaged (saved : List (Nat × Option Word)) : (restoreStaged s saved).annFrame = s.annFrame := by
  simp [restoreStaged]
@[simp] theorem annFrame_annReturn (r : AnnRun) (o : Nat) : (annReturn s r o).annFrame = s.annFrame := by simp [annReturn]
@[simp] theorem annFrame_annRelease (o : Nat) : (annRelease s o).annFrame = s.annFrame := by
  unfold annRelease
  rw [annFrame_noteDark, annFrame_foldl _ _ fun _ _ => by rfl]
@[simp] theorem annFrame_endMeasure (r : AnnRun) : (endMeasure s r).annFrame = s.annFrame := by
  rw [endMeasure, annFrame_foldl _ _ fun t o => by simp]
  rfl
@[simp] theorem annFrame_withdrawPour (st : Nat) : (withdrawPour s st).annFrame = s.annFrame := by
  unfold withdrawPour
  dsimp only
  repeat' split
  all_goals simp

/-- The end of a run records its outcome and changes nothing else of these. -/
theorem annFrame_endRun (r : AnnRun) (outcome cause : Nat) :
    (endRun s r outcome cause).annFrame = (s.tg, s.mode.outs, s.ladle.act, none, outcome, cause, s.ann.block) := by
  simp only [endRun, annFrame_ite, annFrame_setDevice, annFrame_endMeasure, ite_self]
  rfl

variable {s}

theorem abortRun_idle (h : s.ann.run = none) (cause : Nat) : abortRun s cause = s := by
  simp only [abortRun, h]

/-- A pending Pour of the run's own is withdrawn. -/
def runPourDropped (s : State) : State :=
  if (match s.ladle.pending with | some p => p.kind == PourKind.anneal | none => false) then withdrawPour s 5 else s

theorem annFrame_runPourDropped (s : State) : (runPourDropped s).annFrame = s.annFrame := by
  rw [runPourDropped, annFrame_ite, annFrame_withdrawPour, ite_self]

theorem abortRun_running {r : AnnRun} (h : s.ann.run = some r) (cause : Nat) :
    abortRun s cause = raise (endRun (runPourDropped s) r 2 cause) 0x0E03 (annData 2 cause (r.items.headD 0)) := by
  simp only [abortRun, h]
  rfl

/-- An abort ends the run with its cause. -/
theorem annFrame_abortRun {r : AnnRun} (h : s.ann.run = some r) (cause : Nat) :
    (abortRun s cause).annFrame = (s.tg, s.mode.outs, s.ladle.act, none, 2, cause, s.ann.block) := by
  rw [abortRun_running h, annFrame_raise, annFrame_endRun]
  have hframe := annFrame_runPourDropped s
  simp only [State.annFrame, Prod.mk.injEq] at hframe
  obtain ⟨htg, houts, hact, -, -, -, hblock⟩ := hframe
  rw [htg, houts, hact, hblock]

/-- A run's end leaves the generators and the outputs' modes, whether it happens or not. -/
theorem abortRun_outputs (s : State) (cause : Nat) : (abortRun s cause).tg = s.tg ∧ (abortRun s cause).mode.outs = s.mode.outs := by
  cases h : s.ann.run with
  | none => rw [abortRun_idle h]; exact ⟨rfl, rfl⟩
  | some r =>
    have hframe := annFrame_abortRun h cause
    simp only [State.annFrame, Prod.mk.injEq] at hframe
    exact ⟨hframe.1, hframe.2.1⟩

theorem abortRun_memories (s : State) (cause : Nat) : (abortRun s cause).flash = s.flash ∧ (abortRun s cause).fs = s.fs := by
  have hcore := core_abortRun s cause
  simp only [State.core, Prod.mk.injEq] at hcore
  obtain ⟨-, -, hflash, hfs, -⟩ := hcore
  exact ⟨hflash, hfs⟩

/-! ### A mode transition (R386, R483) -/

section
variable {r : AnnRun} {o : Nat} (h : s.ann.run = some r)
include h

theorem interruptRun_named (hk : r.kind ≠ 2) (ho : nbit r.outputs o = true) (he : r.ended = false) : interruptRun s o = abortRun s 7 := by
  simp [interruptRun, h, hk, ho, he]

theorem interruptRun_other (hc : r.kind = 2 ∨ nbit r.outputs o = false ∨ r.ended = true) : interruptRun s o = s := by
  simp only [interruptRun, h]
  refine if_neg ?_
  rintro ⟨hk, ho, he⟩
  simp_all

end

theorem interruptRun_outputs (s : State) (o : Nat) : (interruptRun s o).tg = s.tg ∧ (interruptRun s o).mode.outs = s.mode.outs := by
  unfold interruptRun
  split
  · split
    · exact abortRun_outputs s 7
    · exact ⟨rfl, rfl⟩
  · exact ⟨rfl, rfl⟩

/-- An output that starts its exit, before its frames stop. -/
def exitBegun (s : State) (o auto : Nat) : State :=
  ((interruptRun s o).modAnn fun a => { a with resume := listSet a.resume o false }).modOut o fun x =>
    { x with trans := true, entry := none, exit := .rampNext, leftAuto := auto, held := none }

/-- While its generator runs, an output that leaves shows its ramp frame first. -/
theorem startExit_running {o auto : Nat} (he : (s.outAt o).exit = .none_) (hm : (s.outAt o).mode ≠ 1 ∨ (s.outAt o).entry.isSome = true)
    (hr : (s.tgAt o).running = true) : startExit s o auto = (stopComposition (exitBegun s o auto) o 12).modTg o fun t =>
      { t with composeStopped := true, tm := t.tm.left } := by
  have hstays : ¬ ((s.outAt o).exit ≠ .none_ ∨ ((s.outAt o).mode = 1 ∧ (s.outAt o).entry.isNone = true)) := by
    rintro (hexit | ⟨hmode, hentry⟩)
    · exact hexit he
    · obtain hm | hm := hm
      · exact hm hmode
      · simp [Option.isNone_iff_eq_none.1 hentry] at hm
  have htg : (stopComposition (exitBegun s o auto) o 12).tg = s.tg := by
    have hframe := annFrame_stopComposition (exitBegun s o auto) o 12
    simp only [State.annFrame, Prod.mk.injEq] at hframe
    exact hframe.1.trans (interruptRun_outputs s o).1
  have hlt : o < s.tg.length := by
    by_contra hge
    simp [State.tgAt, nth, hge] at hr
  have hrunning : (((stopComposition (exitBegun s o auto) o 12).modTg o fun t =>
      { t with composeStopped := true, tm := t.tm.left }).tgAt o).running = true := by
    rw [State.tgAt_same _ _ _ (by rw [htg]; exact hlt), State.tgAt, htg]
    exact hr
  exact (if_neg hstays).trans (if_pos hrunning)

/-! ### Requests and the end of a run (R377, R386, R391) -/

section
variable {path : PathId} {v : Word}

/-- A request that a condition refuses is ANNEAL_REJECT. -/
theorem annStart_refused {kind outs steps : Nat} (hk : kind = nbits v.toNat 29 28) (ho : outs = (if kind = 2 then 0 else nbits v.toNat 27 24))
    (hst : steps = nbits v.toNat 7 0) (h : refusesRun s kind outs steps = true) :
    annStart s path v.toNat = raiseP s 0x0E04 (annData 4 0 0) path := by
  subst hk ho hst
  exact if_pos h

/-- The run that a request asks for, before its first step. -/
def requestedRun (s : State) (kind outs steps : Nat) : AnnRun :=
  { kind := kind, outputs := outs, steps := steps, todo := runPairs s kind outs steps, prevModes := s.mode.outs.map (·.mode) }

theorem annStart_begun {kind outs steps : Nat} (hk : kind = nbits v.toNat 29 28) (ho : outs = (if kind = 2 then 0 else nbits v.toNat 27 24))
    (hst : steps = nbits v.toNat 7 0) (h : refusesRun s kind outs steps = false) :
    annStart s path v.toNat =
      let u := raiseP (s.modAnn fun a => { a with run := some (requestedRun s kind outs steps) }) 0x0E01 (annData 0 0 0) path
      if kind = 2 then setDevice u 5 else u := by
  subst hk ho hst
  exact if_neg (by simp [h])

end

theorem execDowserChange_moved {b : Bool} (h : s.ann.dowser ≠ b) :
    exec (.dowserChange b) s = .next (abortRun (s.modAnn fun a => { a with dowser := b }) 4) := if_neg h

/-- What an abort records, and what it leaves. -/
theorem abortRun_leaves {r : AnnRun} (h : s.ann.run = some r) (c : Nat) : (abortRun s c).ann.run = none ∧ (abortRun s c).ann.outcome = 2 ∧
    (abortRun s c).ann.cause = c ∧ (abortRun s c).ann.block = s.ann.block ∧ (abortRun s c).ladle.act = s.ladle.act ∧
    (abortRun s c).flash = s.flash ∧ (abortRun s c).fs = s.fs := by
  have hframe := annFrame_abortRun h c
  simp only [State.annFrame, Prod.mk.injEq] at hframe
  obtain ⟨-, -, hact, hrun, houtcome, hcause, hblock⟩ := hframe
  exact ⟨hrun, houtcome, hcause, hblock, hact, abortRun_memories s c⟩

/-- An output of the run that leaves its mode ends the run. -/
theorem startExit_endsRun {r : AnnRun} {o auto : Nat} (h : s.ann.run = some r) (hk : r.kind ≠ 2) (ho : nbit r.outputs o = true) (he : r.ended = false)
    (hexit : (s.outAt o).exit = .none_) (hmode : (s.outAt o).mode ≠ 1) (hr : (s.tgAt o).running = true) : (startExit s o auto).ann.run = none := by
  have hframe := annFrame_stopComposition (exitBegun s o auto) o 12
  simp only [State.annFrame, Prod.mk.injEq] at hframe
  obtain ⟨-, -, -, hrun, -⟩ := hframe
  rw [startExit_running hexit (.inl hmode) hr]
  calc (stopComposition (exitBegun s o auto) o 12).ann.run
      = (interruptRun s o).ann.run := hrun
    _ = (abortRun s 7).ann.run := by rw [interruptRun_named h hk ho he]
    _ = none := (abortRun_leaves h 7).1

/-! ### Steps, points and checks (R378, R380, R383, R386, R388) -/

section
variable {r : AnnRun} (h : s.ann.run = some r)
include h

theorem execAnnealStepsBegin_begins (hb : r.begun = false)
    (hready : r.kind = 0 → r.enteredAt + 80000 ≤ s.tb.tick ∧ ∀ o ∈ maskOutputs r.outputs, (s.outAt o).mode = 5 ∧ stringsReady s o = true) :
    exec .annealStepsBegin s = .next (enterStep s { r with begun := true } r.todo) := by
  show execAnnealStepsBegin s = _
  simp only [execAnnealStepsBegin, h]
  refine if_neg ?_
  simpa [hb] using hready

theorem execAnnealStepsBegin_waits (hw : r.begun = true ∨ (r.kind = 0 ∧ (s.tb.tick < r.enteredAt + 80000 ∨
    ∃ o ∈ maskOutputs r.outputs, (s.outAt o).mode ≠ 5 ∨ stringsReady s o = false))) : exec .annealStepsBegin s = .next s := by
  show execAnnealStepsBegin s = _
  simp only [execAnnealStepsBegin, h]
  refine if_pos ?_
  obtain hbegun | ⟨hkind, hearly | ⟨o, ho, hnot⟩⟩ := hw
  · simp [hbegun]
  · simp [hkind, hearly]
  · simp only [hkind, Bool.or_eq_true, Bool.and_eq_true, Bool.not_eq_true', Bool.and_eq_false_iff, List.all_eq_false]
    refine .inr ⟨rfl, .inr ⟨o, ho, ?_⟩⟩
    obtain hmode | hstrings := hnot
    · simp [hmode]
    · simp [hstrings]

section
variable {step o i : Nat} {rest : List (Nat × Nat)} {items : List Nat} (htodo : r.todo = (step, o) :: rest) (hitems : r.items = i :: items)
include htodo hitems

/-- A point that has not lasted its time, or is none of its stolen frame's, goes on. -/
theorem execAnnealPointDone_goesOn (hends : pointEnds s r step o = false) (values : List Int) : exec (.annealPointDone values) s = .next s := by
  show execAnnealPointDone values s = _
  simp only [execAnnealPointDone, h, htodo, hitems]
  exact if_pos (by simp [hends])

/-- A point that ends joins its readings to the run. -/
theorem execAnnealPointDone_ends (hb : r.begun = true) (hst : r.st = 2) (hpost : r.post = false) (hends : pointEnds s r step o = true)
    (values : List Int) : exec (.annealPointDone values) s =
      let q : AnnRun := { afterPoint s r step o i values with since := s.tb.tick }
      let u := s.modAnn fun a => { a with run := some q }
      .next (if r.kind ≠ 0 then u else if q.post then annRelease u o else holdPoint u q) := by
  show execAnnealPointDone values s = _
  simp only [execAnnealPointDone, h, htodo, hitems]
  exact if_neg (by simp [hends, hb, hst, hpost])

end

/-- A check that is under way: of a stolen frame in a steal run, else of a step. -/
theorem execAnnealCheckDone_judged (hb : r.begun = true) (he : r.ended = false) (hsteal : r.kind = 1 → r.stolen = true ∧ r.st = 2)
    (hstep : r.kind ≠ 1 → r.st = 1) (ht : r.since + checkTime r ≤ s.tb.tick) (darks : List Nat) (again : Int) :
    exec (.annealCheckDone darks again) s =
      let after := if r.kind = 1 then r.frame else r.post
      match checkCause s r darks again after with
      | some (c, i) => .next (abortAt s c i)
      | none => .next (if after then passPost s r else passPre s r darks) := by
  have hchecking : (if r.kind = 1 then r.stolen && r.st == 2 else r.st == 1) = true := by
    split
    next hk => simp [hsteal hk]
    next hk => simp [hstep hk]
  show execAnnealCheckDone darks again s = _
  simp only [execAnnealCheckDone, h]
  exact if_neg (by simp [hb, he, hchecking, ht])

theorem execAnnealCheckDone_early (ht : s.tb.tick < r.since + checkTime r) (darks : List Nat) (again : Int) :
    exec (.annealCheckDone darks again) s = .next s := by
  show execAnnealCheckDone darks again s = _
  simp only [execAnnealCheckDone, h]
  exact if_pos (by simp [ht])

end

theorem pointEnds_iff (s : State) (r : AnnRun) (step o : Nat) : pointEnds s r step o = true ↔ r.since + pointTime s step o ≤ s.tb.tick ∧
    (r.kind = 1 → r.frame = true ∧
      measuredSince r < (stolenPoints (s.rt o) o { r with items := r.mark.1, point := r.mark.2.1 }).length) := by
  simp only [pointEnds, Bool.and_eq_true, decide_eq_true_eq, Bool.or_eq_true, bne_iff_ne, ne_eq]
  exact and_congr_right fun _ => Decidable.imp_iff_not_or.symm

theorem pointReadings_joins (s : State) (r : AnnRun) (step o i : Nat) (values : List Int) {x : Reading} (hx : x ∈ pointReadings s r step o i values) :
    x ∈ (afterPoint s r step o i values).readings := List.mem_append_right _ hx

/-- A dark level above the limit is the first cause that a check judges. -/
theorem checkCause_dark (s : State) {r : AnnRun} {darks : List Nat} (again : Int) (after : Bool) {k : Nat} (hk : k < 8)
    (hmap : (s.rt 4).bit (aPdMap k) 31 = true)
    (hmine : r.kind = 2 ∨ nbit r.outputs ((s.rt 4).fld (aPdMap k) 25 24) = true) (hhigh : (s.rt 4).fld 0xE0004 15 0 < nth darks k 0) :
    ∃ i, checkCause s r darks again after = some (1, i) := by
  let mine := (List.range 8).filter fun k => (s.rt 4).bit (aPdMap k) 31 && (r.kind == 2 || nbit r.outputs ((s.rt 4).fld (aPdMap k) 25 24))
  have hmem : k ∈ mine := by
    simpa [mine, hk, hmap] using hmine
  obtain ⟨i, hi⟩ : ∃ i, mine.find? (fun k => decide ((s.rt 4).fld 0xE0004 15 0 < nth darks k 0)) = some i := by
    rw [← Option.isSome_iff_exists, List.find?_isSome]
    exact ⟨k, hmem, decide_eq_true hhigh⟩
  refine ⟨i, ?_⟩
  unfold checkCause
  dsimp only
  rw [show List.find? _ _ = some i from hi]

section
variable {r : AnnRun} (h : s.ann.run = some r)
include h

theorem execAnnealPourWaitTimeout_over (hw : r.waitPour = true) (ht : r.waitAt + 4000000000 ≤ s.tb.tick) :
    exec .annealPourWaitTimeout s = .next (refuseRun s) := by
  show execAnnealPourWaitTimeout s = _
  simp only [execAnnealPourWaitTimeout, h]
  exact if_pos ⟨hw, ht⟩

theorem execAnnealPourWaitTimeout_waits (hw : r.waitPour = false ∨ s.tb.tick < r.waitAt + 4000000000) : exec .annealPourWaitTimeout s = .next s := by
  show execAnnealPourWaitTimeout s = _
  simp only [execAnnealPourWaitTimeout, h]
  refine if_neg fun ⟨hwait, htime⟩ => ?_
  obtain hnot | hearly := hw
  · simp [hnot] at hwait
  · omega

section
variable (hc : r.checked = true) (ha : s.ladle.armed = false)
include hc ha

theorem execCalBlockWriteDone_closed (hf : s.therm.flashOpen = false) : exec .calBlockWriteDone s = .next s := by
  show execCalBlockWriteDone s = _
  simp [execCalBlockWriteDone, h, hc, ha, hf]

theorem execCalBlockWriteDone_written (hf : s.therm.flashOpen = true) : exec .calBlockWriteDone s =
    let b := sealBlock r.block (localNs s)
    let base := nth s.mgmt.layout (2 * (1 - s.ann.slot)) 0
    let room := nth s.mgmt.layout (2 * (1 - s.ann.slot) + 1) 0
    .next (armPour ((programFlash (eraseFlash s base room) base b).modAnn fun a => { a with run := some { r with block := b, writeWait := false } })) := by
  show execCalBlockWriteDone s = _
  simp [execCalBlockWriteDone, h, hc, ha, hf]

end

end

/-- Settles O55: the requests, the end of a run and its frame, then the steps, points, checks and writes. -/
theorem annealRuns : Obligations.AnnealRuns := by
  unfold Obligations.AnnealRuns
  refine ⟨⟨?_, ?_, ?_, ?_, ?_, ?_, ?_⟩, ?_, ?_, ?_, ?_, ?_, ?_, ?_, ?_, ?_, ?_⟩
  · intro s path v kind outs steps hs hr hk ho hst
    have hheld : exec (.annCtrlStart path v) s = .next (annStart s path v.toNat) :=
      congrArg _ (withRole_held 0xE0000 (fun s => annStart s path v.toNat) hs hr)
    refine ⟨fun h => ?_, fun h => ⟨requestedRun s kind outs steps, _, rfl, rfl, rfl, rfl, rfl, rfl, rfl, rfl, ?_⟩⟩
    · rw [hheld, annStart_refused hk ho hst h]
    · rw [hheld, annStart_begun hk ho hst h]
  · exact fun s path hs hr => congrArg _ (withRole_held 0xE0000 annAbort hs hr)
  · exact fun s b h => execDowserChange_moved h
  · exact fun s c h => abortRun_idle h c
  · exact fun s c r h => abortRun_leaves h c
  · exact fun s o r h => ⟨fun hk ho he => interruptRun_named h hk ho he, fun hc => interruptRun_other h hc⟩
  · exact fun s o auto r h hk ho he hexit hmode hr => startExit_endsRun h hk ho he hexit hmode hr
  · exact fun s r h => ⟨fun hb hready => execAnnealStepsBegin_begins h hb hready, fun hw => execAnnealStepsBegin_waits h hw⟩
  · intro s r step o i rest items values h htodo hitems hb hst hpost
    refine ⟨fun hends => execAnnealPointDone_goesOn h htodo hitems hends values, fun hends => ⟨_, _, rfl, rfl, fun hk => ?_, fun hk => ?_⟩⟩
    · rw [execAnnealPointDone_ends h htodo hitems hb hst hpost hends values]
      exact congrArg _ (if_pos hk)
    · rw [execAnnealPointDone_ends h htodo hitems hb hst hpost hends values]
      exact congrArg _ (if_neg (not_not.2 hk))
  · exact fun s r step o hends =>
      have ⟨htime, hframe⟩ := (pointEnds_iff s r step o).1 hends
      ⟨htime, fun hk => (hframe hk).1⟩
  · exact fun s r step o hk ht => (pointEnds_iff s r step o).2 ⟨ht, fun h => absurd h hk⟩
  · exact fun s r step o i values x hx => pointReadings_joins s r step o i values hx
  · intro s r darks again h hb he hsteal hstep ht
    have hjudged := execAnnealCheckDone_judged h hb he hsteal hstep ht darks again
    refine ⟨fun c i hcause => ?_, fun hcause => ?_⟩
    · rw [hjudged]
      simp only [hcause]
    · rw [hjudged]
      simp only [hcause]
  · exact fun s r darks again after k hk hmap hmine hhigh => checkCause_dark s again after hk hmap hmine hhigh
  · exact fun s r darks again h ht => execAnnealCheckDone_early h ht darks again
  · exact fun s r h => ⟨fun hw ht => execAnnealPourWaitTimeout_over h hw ht, fun hw => execAnnealPourWaitTimeout_waits h hw⟩
  · exact fun s r h hc ha =>
      ⟨fun hf => execCalBlockWriteDone_closed h hc ha hf, fun hf => ⟨_, _, rfl, rfl, execCalBlockWriteDone_written h hc ha hf⟩⟩

end Sys2Proof.Machine
end

section
/-! SUPPORT. The key store, the random generator and the monitors' responses (R420, R429 to R431, R441 to R443). -/
namespace Sys2Proof.Machine

variable {s t : State}

/-! ### The key store (R430) -/

/-- The keys that hold against a test, in their places. -/
def keysKept (q : KeySlot → Bool) (l : List (Option KeySlot)) : List (Option KeySlot) := l.map (Option.filter q)

theorem keysKept_length (q : KeySlot → Bool) (l : List (Option KeySlot)) : (keysKept q l).length = l.length := List.length_map _

theorem keysKept_iff (q : KeySlot → Bool) (l : List (Option KeySlot)) (i : Nat) (x : KeySlot) :
    (keysKept q l)[i]? = some (some x) ↔ l[i]? = some (some x) ∧ q x = true := by
  simp only [keysKept, List.getElem?_map, Option.map_eq_some_iff, Option.filter_eq_some_iff]
  constructor
  · rintro ⟨e, he, rfl, hq⟩
    exact ⟨he, hq⟩
  · rintro ⟨he, hq⟩
    exact ⟨some x, he, rfl, hq⟩

theorem purgeKeys_eq (s : State) : purgeKeys s = s.modCruc fun c => { c with keys := keysKept (fun k => !expired s k) c.keys } := by
  refine congrArg (State.modCruc s) (funext fun c => congrArg (fun l => { c with keys := l }) (List.map_congr_left fun e _ => ?_))
  cases e with
  | none => rfl
  | some k => cases h : expired s k <;> simp [Option.filter, h]

theorem kdmDiscard_open (h : s.cruc.st = 0) (id : Nat) : kdmDiscard s id = { s with cruc := { s.cruc with
    keys := keysKept (fun k => k.keyId != id) s.cruc.keys, kdmBusy := false, kdmResult := 0, kdmKey := id } } := by
  have hkeys : (s.cruc.keys.map fun e => match e with | some k => if k.keyId = id then none else some k | none => none) =
      keysKept (fun k => k.keyId != id) s.cruc.keys := by
    refine List.map_congr_left fun e _ => ?_
    cases e with
    | none => rfl
    | some k => by_cases hid : k.keyId = id <;> simp [Option.filter, hid]
  rw [← hkeys]
  exact if_neg (not_not.2 h)

theorem kdmPurge_open (h : s.cruc.st = 0) : kdmPurge s = { s with cruc := { s.cruc with
    keys := keysKept (fun k => !expired s k) s.cruc.keys, kdmBusy := false, kdmResult := 0 } } := by
  rw [kdmPurge, if_neg (not_not.2 h), purgeKeys_eq]
  rfl

/-- A closed or suspended Crucible answers 7. -/
theorem kdmPurge_shut (h : s.cruc.st ≠ 0) : kdmPurge s = s.modCruc fun c => { c with kdmBusy := false, kdmResult := 7 } := if_pos h
theorem kdmDiscard_shut (h : s.cruc.st ≠ 0) (id : Nat) :
    kdmDiscard s id = s.modCruc fun c => { c with kdmBusy := false, kdmResult := 7, kdmKey := id } := if_pos h

theorem keyPlace_lt {l : List (Option KeySlot)} {k : KeySlot} {i : Nat} (h : keyPlace l k = some i) : i < l.length := by
  unfold keyPlace at h
  split at h
  next j hj =>
    rw [Option.some.inj h] at hj
    exact (List.findIdx?_eq_some_iff_findIdx_eq.1 hj).1
  · exact (List.findIdx?_eq_some_iff_findIdx_eq.1 h).1

/-- A key that enters the store changes nothing but the keys, and is held after it. -/
theorem storeKey_stored {k : KeySlot} (h : storeKey s k = some t) : t = { s with cruc := { s.cruc with keys := t.cruc.keys } } ∧ some k ∈ t.cruc.keys := by
  obtain ⟨l, hl⟩ : ∃ l, (if (keyPlace s.cruc.keys k).isSome then s else purgeKeys s) = { s with cruc := { s.cruc with keys := l } } := by
    split
    · exact ⟨s.cruc.keys, rfl⟩
    · exact ⟨_, rfl⟩
  simp only [storeKey, hl, Option.map_eq_some_iff] at h
  obtain ⟨i, hi, rfl⟩ := h
  exact ⟨rfl, List.mem_set (keyPlace_lt hi) _⟩

/-! ### The judgement of a message (R430, R443) -/

section
variable {k : Kdm}

theorem judgeKdm_shut (h : s.cruc.st ≠ 0) : judgeKdm s k = (7, s) := if_pos h

variable (hst : s.cruc.st = 0)
include hst

theorem judgeKdm_malformed (hf : k.formOk = false) : judgeKdm s k = (1, s) := by simp [judgeKdm, hst, hf]

variable (hf : k.formOk = true)
include hf

theorem judgeKdm_otherDevice (hd : beAt k.bytes 4 16 ≠ s.fuse.devId) : judgeKdm s k = (2, s) := by simp [judgeKdm, hst, hf, hd]

variable (hd : beAt k.bytes 4 16 = s.fuse.devId)
include hd

theorem judgeKdm_noIssuer (hi : nth s.mgmt.issuers k.slot.issuer none = none) : judgeKdm s k = (3, s) := by simp [judgeKdm, hst, hf, hd, hi]

variable {pub : List Byte} (hi : nth s.mgmt.issuers k.slot.issuer none = some pub)
include hi

theorem judgeKdm_badSignature (hv : Config.ecdsaVerify pub (k.bytes.drop 200) (k.bytes.take 200) = false) : judgeKdm s k = (4, s) := by
  simp [judgeKdm, hst, hf, hd, hi, hv]

variable (hv : Config.ecdsaVerify pub (k.bytes.drop 200) (k.bytes.take 200) = true)
include hv

theorem judgeKdm_notUnwrapped (hu : Config.aesUnwrap (kdmKek s k) ((k.bytes.drop 160).take 40) = none) : judgeKdm s k = (5, s) := by
  simp [judgeKdm, hst, hf, hd, hi, hv, hu]

variable {key : List Byte} (hu : Config.aesUnwrap (kdmKek s k) ((k.bytes.drop 160).take 40) = some key)
include hu

theorem judgeKdm_full (hs : storeKey s { k.slot with key := key } = none) : judgeKdm s k = (6, s) := by
  simp [judgeKdm, hst, hf, hd, hi, hv, hu, hs]

theorem judgeKdm_stored (hs : storeKey s { k.slot with key := key } = some t) : judgeKdm s k = (0, t) := by
  simp [judgeKdm, hst, hf, hd, hi, hv, hu, hs]

end

/-- What a judgement that passes has seen. -/
structure KdmPasses (s t : State) (k : Kdm) (pub key : List Byte) : Prop where
  st : s.cruc.st = 0
  form : k.formOk = true
  device : beAt k.bytes 4 16 = s.fuse.devId
  issuer : nth s.mgmt.issuers k.slot.issuer none = some pub
  signed : Config.ecdsaVerify pub (k.bytes.drop 200) (k.bytes.take 200) = true
  unwrapped : Config.aesUnwrap (kdmKek s k) ((k.bytes.drop 160).take 40) = some key
  stored : storeKey s { k.slot with key := key } = some t

/-- A message is refused and changes nothing, or passes every test in turn. -/
theorem judgeKdm_cases (s : State) (k : Kdm) :
    (∃ r, r ≠ 0 ∧ judgeKdm s k = (r, s)) ∨ ∃ t pub key, judgeKdm s k = (0, t) ∧ KdmPasses s t k pub key := by
  by_cases hst : s.cruc.st = 0
  swap
  · exact .inl ⟨7, by decide, judgeKdm_shut hst⟩
  cases hf : k.formOk with
  | false => exact .inl ⟨1, by decide, judgeKdm_malformed hst hf⟩
  | true =>
    by_cases hd : beAt k.bytes 4 16 = s.fuse.devId
    swap
    · exact .inl ⟨2, by decide, judgeKdm_otherDevice hst hf hd⟩
    cases hi : nth s.mgmt.issuers k.slot.issuer none with
    | none => exact .inl ⟨3, by decide, judgeKdm_noIssuer hst hf hd hi⟩
    | some pub => cases hv : Config.ecdsaVerify pub (k.bytes.drop 200) (k.bytes.take 200) with
      | false => exact .inl ⟨4, by decide, judgeKdm_badSignature hst hf hd hi hv⟩
      | true => cases hu : Config.aesUnwrap (kdmKek s k) ((k.bytes.drop 160).take 40) with
        | none => exact .inl ⟨5, by decide, judgeKdm_notUnwrapped hst hf hd hi hv hu⟩
        | some key => cases hs : storeKey s { k.slot with key := key } with
          | none => exact .inl ⟨6, by decide, judgeKdm_full hst hf hd hi hv hu hs⟩
          | some t => exact .inr ⟨t, pub, key, judgeKdm_stored hst hf hd hi hv hu hs, hst, hf, hd, hi, hv, hu, hs⟩

/-- A judgement changes only the key store, and that only when it passes. -/
theorem judgeKdm_frame {k : Kdm} {r : Nat} (h : judgeKdm s k = (r, t)) : t = { s with cruc := { s.cruc with keys := t.cruc.keys } } ∧ (r ≠ 0 → t = s) := by
  obtain ⟨r', -, hj⟩ | ⟨t', pub, key, hj, hpass⟩ := judgeKdm_cases s k
  · obtain ⟨-, rfl⟩ := Prod.mk.inj (h.symm.trans hj)
    exact ⟨rfl, fun _ => rfl⟩
  · obtain ⟨rfl, rfl⟩ := Prod.mk.inj (h.symm.trans hj)
    exact ⟨(storeKey_stored hpass.stored).1, fun hne => absurd rfl hne⟩

theorem judgeKdm_passed {k : Kdm} (h : judgeKdm s k = (0, t)) : ∃ pub key, KdmPasses s t k pub key := by
  obtain ⟨r', hr, hj⟩ | ⟨t', pub, key, hj, hpass⟩ := judgeKdm_cases s k
  · exact absurd (Prod.mk.inj (h.symm.trans hj)).1.symm hr
  · obtain ⟨-, rfl⟩ := Prod.mk.inj (h.symm.trans hj)
    exact ⟨pub, key, hpass⟩

/-! ### Zeroisation and the monitors (R441, R442) -/

theorem listSet_none {α : Type} {l : List (Option α)} {k : Nat} (h : nth l k none = none) : listSet l k none = l := by
  refine List.ext_getElem? fun i => ?_
  by_cases hik : k = i
  · subst hik
    by_cases hlt : k < l.length
    · simp_all [listSet, nth]
    · simp [listSet, hlt]
  · simp [listSet, List.getElem?_set_ne hik]

theorem closeSession_cruc (s : State) (k cause : Nat) : (closeSession s k cause).cruc = { s.cruc with sessions := listSet s.cruc.sessions k none } := by
  unfold closeSession
  split
  next h => rw [listSet_none h]
  next x h =>
    rw [journalKind_cruc]
    rfl

theorem discardRun_cruc (s : State) (i : Nat) : (discardRun s i).cruc = s.cruc := by
  unfold discardRun
  split <;> rfl

/-- A fold whose every step leaves the Crucible. -/
theorem foldl_cruc {α : Type} (g : State → α → State) (h : ∀ t a, (g t a).cruc = t.cruc) (l : List α) (s : State) : (l.foldl g s).cruc = s.cruc := by
  induction l generalizing s with
  | nil => rfl
  | cons a r ih => rw [List.foldl, ih, h]

theorem zeroise_cruc (s : State) : (zeroise s).cruc = { s.cruc with
    sessions := listSet (listSet (listSet (listSet s.cruc.sessions 0 none) 1 none) 2 none) 3 none, keys := List.replicate 64 none, shake := none
    kdmBusy := false, drbgRequests := 0, drbgSeed := s.cruc.drbgSeed + 1 } := by
  have hframes (g : State → Nat → State) (h : ∀ t a, (g t a).cruc = t.cruc) :
      ([0, 1, 2, 3].foldl (fun s k => closeSession s k 4) ((List.range 8).foldl g s)).cruc = { s.cruc with
        sessions := listSet (listSet (listSet (listSet s.cruc.sessions 0 none) 1 none) 2 none) 3 none } := by
    simp only [List.foldl, closeSession_cruc, foldl_cruc g h]
  simp only [zeroise, reseed, State.modCruc]
  rw [hframes]
  intro u i
  split
  · split
    · exact discardRun_cruc _ _
    · rfl
  · rfl

theorem zeroise_sessions (h : s.cruc.sessions.length = 4) : ∀ x ∈ (zeroise s).cruc.sessions, x = none := by
  rw [zeroise_cruc]
  obtain ⟨a, b, c, d, hl⟩ : ∃ a b c d, s.cruc.sessions = [a, b, c, d] := List.length_eq_four.1 h
  simp [hl, listSet]

/-- The response to a monitor zeroises first. -/
def monitorZeroised (s : State) (r : Nat) : State := if r ≤ 1 then zeroise s else s

/-- Then it closes the Crucible or suspends it. -/
def monitorShut (s : State) (now r : Nat) : State :=
  if r = 1 ∨ r = 2 then closeCrucible s
  else if r = 3 then s.modCruc fun c => { c with st := if c.st = 2 then 2 else 1, rangeSince := some now } else s

/-- Each trip is counted. -/
def tamperNoted (s : State) (m : Nat) : State := s.modCruc fun c => { c with tamperCount := satAdd 0xFFFF c.tamperCount 1, tamperLast := 2 ^ m }

theorem exec_crucMonitorTrip (s : State) (m : Fin 5) : exec (.crucMonitorTrip m) s = .next (journalKind
    (raise (tamperNoted (monitorShut (monitorZeroised s (monitorResponse m)) s.tb.tick (monitorResponse m)) m) 0x1008 (m * 2 ^ 16)) 0x0B .internal
      (leBytes 1 m ++ leBytes 1 (monitorResponse m)) 1) := by
  show execCrucMonitorTrip m s = _
  simp only [execCrucMonitorTrip, monitorZeroised, monitorShut, tamperNoted]

theorem monitorZeroised_zeroised {r : Nat} (h : r ≤ 1) : monitorZeroised s r = zeroise s := if_pos h
theorem monitorZeroised_kept {r : Nat} (h : 2 ≤ r) : monitorZeroised s r = s := if_neg (by omega)

theorem monitorZeroised_tamperCount (s : State) (r : Nat) : (monitorZeroised s r).cruc.tamperCount = s.cruc.tamperCount := by
  unfold monitorZeroised
  split
  · rw [zeroise_cruc]
  · rfl

/-- Closing and suspending keep what the Crucible holds. -/
theorem monitorShut_keeps (s : State) (now r : Nat) : (monitorShut s now r).cruc.keys = s.cruc.keys ∧ (monitorShut s now r).cruc.shake = s.cruc.shake ∧
    (monitorShut s now r).cruc.sessions = s.cruc.sessions ∧ (monitorShut s now r).cruc.tamperCount = s.cruc.tamperCount := by
  unfold monitorShut
  repeat' split
  all_goals exact ⟨rfl, rfl, rfl, rfl⟩

theorem monitorShut_closed {now r : Nat} (h : r = 1 ∨ r = 2) : (monitorShut s now r).cruc.closed = true ∧ (monitorShut s now r).cruc.st = 2 := by
  rw [monitorShut, if_pos h]
  exact ⟨rfl, rfl⟩

theorem monitorShut_suspended (s : State) (now : Nat) :
    (monitorShut s now 3).cruc.st = (if s.cruc.st = 2 then 2 else 1) ∧ (monitorShut s now 3).cruc.rangeSince = some now := ⟨rfl, rfl⟩

theorem monitorResponse_zeroises : ∀ m : Fin 5, (m : Nat) ≤ 1 → monitorResponse m ≤ 1 := by decide
theorem monitorResponse_closes : ∀ m : Fin 5, (m : Nat) = 1 ∨ (m : Nat) = 2 → monitorResponse m = 1 ∨ monitorResponse m = 2 := by decide
theorem monitorResponse_keeps : ∀ m : Fin 5, 2 ≤ (m : Nat) → 2 ≤ monitorResponse m := by decide
theorem monitorResponse_suspends : ∀ m : Fin 5, 3 ≤ (m : Nat) → monitorResponse m = 3 := by decide

/-! ### A suspended Crucible resumes (R442) -/

theorem execCrucResume_due {n : Nat} (hst : s.cruc.st = 1) (hr : s.cruc.rangeSince = some n) (ht : n + 400000 ≤ s.tb.tick) :
    exec .crucResume s = .next (s.modCruc fun c => { c with st := 0, rangeSince := none }) := by
  show execCrucResume s = _
  simp [execCrucResume, hst, hr, ht]

theorem execCrucResume_early {n : Nat} (hr : s.cruc.rangeSince = some n) (ht : s.tb.tick < n + 400000) : exec .crucResume s = .next s := by
  show execCrucResume s = _
  simp [execCrucResume, hr, ht]

theorem execCrucResume_notSuspended (hst : s.cruc.st ≠ 1) : exec .crucResume s = .next s := if_neg fun h => hst h.1

/-- Settles O57: a message's judgement and the key store first, then the generator and the monitors. That a Crucible that is not ready answers 7,
that DISCARD and PURGE leave no record, and that SEAL_HOST binds only a PROT surface are the model's own choices (notes/assumptions/84.md). -/
theorem keysAndTheirProtection : Obligations.KeysAndTheirProtection := by
  unfold Obligations.KeysAndTheirProtection
  refine ⟨⟨?_, ?_, ?_, ?_, ?_, ?_⟩, ?_, ?_, ?_, ?_, ?_⟩
  · intro s t path k r hs hr hk hj
    refine ⟨_, rfl, ?_⟩
    have hheld : exec (.kdmSubmit path) s = .next (kdmSubmit s path) := congrArg _ (withRole_held 0x100030 (fun s => kdmSubmit s path) hs hr)
    subst hk
    rw [hheld]
    simp only [kdmSubmit, hj]
    rfl
  · intro s t k r hj
    obtain ⟨hframe, hrefused⟩ := judgeKdm_frame hj
    have hresult {a : Nat} {b : State} (h : judgeKdm s k = (a, b)) : r = a := (Prod.mk.inj (hj.symm.trans h)).1
    refine ⟨hframe, hrefused, fun hst => hresult (judgeKdm_shut hst), fun hst hf => hresult (judgeKdm_malformed hst hf),
      fun hst hf => ⟨fun hd => hresult (judgeKdm_otherDevice hst hf hd), fun hd => ⟨fun hi => hresult (judgeKdm_noIssuer hst hf hd hi),
        fun pub hi => ⟨fun hv => hresult (judgeKdm_badSignature hst hf hd hi hv), fun hv => ⟨fun hu => hresult (judgeKdm_notUnwrapped hst hf hd hi hv hu),
          fun key hu => ⟨fun hfull => hresult (judgeKdm_full hst hf hd hi hv hu hfull), fun v hv' =>
            Prod.mk.inj (hj.symm.trans (judgeKdm_stored hst hf hd hi hv hu hv'))⟩⟩⟩⟩⟩, ?_⟩
    rintro rfl
    obtain ⟨pub, key, hpass⟩ := judgeKdm_passed hj
    exact ⟨hpass.st, hpass.form, hpass.device, pub, key, hpass.issuer, hpass.signed, hpass.unwrapped, (storeKey_stored hpass.stored).2⟩
  · intro s path id hs hr hst
    refine ⟨keysKept (fun k => k.keyId != id % 2 ^ 16) s.cruc.keys, ?_, keysKept_length _ _, fun i x => ?_⟩
    · exact (congrArg _ (withRole_held 0x100030 (fun s => kdmDiscard s (id % 2 ^ 16)) hs hr)).trans (congrArg _ (kdmDiscard_open hst _))
    · rw [keysKept_iff, bne_iff_ne]
  · intro s path hs hr hst
    refine ⟨keysKept (fun k => !expired s k) s.cruc.keys, ?_, keysKept_length _ _, fun i x => ?_⟩
    · exact (congrArg _ (withRole_held 0x100030 kdmPurge hs hr)).trans (congrArg _ (kdmPurge_open hst))
    · rw [keysKept_iff, Bool.not_eq_true']
  · exact fun s path hs hr hst => ⟨(congrArg _ (withRole_held 0x100030 kdmPurge hs hr)).trans (congrArg _ (kdmPurge_shut hst)), fun id =>
      (congrArg _ (withRole_held 0x100030 (fun s => kdmDiscard s (id % 2 ^ 16)) hs hr)).trans (congrArg _ (kdmDiscard_shut hst _))⟩
  · exact fun s path v hs hr => ⟨_, rfl, congrArg _ (withRole_held 0x100040 (fun s => sealHost s v) hs hr)⟩
  · intro s hr
    constructor
    · show execDrbgReseed true s = _
      rw [execDrbgReseed, if_neg (by simp [hr])]
      rfl
    · show execDrbgReseed false s = _
      rw [execDrbgReseed, if_neg (by simp [hr])]
      rfl
  · exact fun s b hr => if_pos hr
  · intro s m
    obtain ⟨hkeys, hshake, hsessions, htamper⟩ := monitorShut_keeps (monitorZeroised s (monitorResponse m)) s.tb.tick (monitorResponse m)
    refine ⟨_, exec_crucMonitorTrip s m, ?_, rfl, fun hm => ?_, fun hm => monitorShut_closed (monitorResponse_closes m hm), fun hm => ?_, fun hm => ?_⟩
    · exact congrArg (satAdd 0xFFFF · 1) (htamper.trans (monitorZeroised_tamperCount s _))
    · rw [monitorZeroised_zeroised (monitorResponse_zeroises m hm)] at hkeys hshake hsessions ⊢
      refine ⟨fun k hk => ?_, hshake.trans (by rw [zeroise_cruc]), fun h4 x hx => zeroise_sessions h4 x (hsessions ▸ hx)⟩
      have hmem : k ∈ (zeroise s).cruc.keys := hkeys ▸ hk
      rw [zeroise_cruc] at hmem
      exact List.eq_of_mem_replicate hmem
    · rw [monitorZeroised_kept (monitorResponse_keeps m hm)] at hkeys hsessions ⊢
      exact ⟨hkeys, hsessions⟩
    · rw [monitorResponse_suspends m hm]
      exact monitorShut_suspended s s.tb.tick
  · exact fun s n hst hr => ⟨fun ht => execCrucResume_due hst hr ht, fun ht => execCrucResume_early hr ht⟩
  · exact fun s hst => execCrucResume_notSuspended hst

end Sys2Proof.Machine
end

section
/-! SUPPORT. Handshakes, and the messages, limits and end of sessions (R439, R440, R463, R464). -/
namespace Sys2Proof.Machine

variable {s : State} {path : PathId} {peer port k seq : Nat} {l body mac : List Byte} {h : Handshake} {x : Session}

/-- A message that goes out leaves the Crucible. -/
@[simp] theorem sendMessage_cruc (s : State) (carrier : PathId) (l : List Byte) : (sendMessage s carrier l).cruc = s.cruc := by
  unfold sendMessage mailboxDone
  cases carrier with
  | bar0 => exact (logged_msix _).cruc
  | _ => rfl

/-! ### HELLO (R439) -/

/-- Why a HELLO is refused without being looked at. -/
def helloShut (s : State) : Prop :=
  s.cruc.st ≠ 0 ∨ s.cruc.rngFail = true ∨ s.tb.tick < s.cruc.helloFrom ∨ s.cruc.sessions.all Option.isSome = true

theorem sessions_full_iff : s.cruc.sessions.all Option.isSome = true ↔ ∀ x ∈ s.cruc.sessions, x ≠ none := by
  simp only [List.all_eq_true, Option.isSome_iff_ne_none]

theorem not_helloShut (hst : s.cruc.st = 0) (hr : s.cruc.rngFail = false) (hf : s.cruc.helloFrom ≤ s.tb.tick) (hx : ∃ x ∈ s.cruc.sessions, x = none) :
    ¬ helloShut s := by
  obtain ⟨x, hx, hnone⟩ := hx
  rintro (hst' | hr' | hf' | hall)
  · exact hst' hst
  · simp [hr] at hr'
  · omega
  · exact sessions_full_iff.1 hall x hx hnone

theorem hello_shut (hs : helloShut s) : hello s path peer port l = sessionFail s path (beAt l 129 1) peer port 1 := if_pos hs

theorem hello_malformed (hs : ¬ helloShut s) (hl : l.length ≠ 130 ∨ l.getD 0 0 ≠ 4 ∨ operatorKey s (beAt l 129 1) = none) :
    hello s path peer port l = shakeFail s path (beAt l 129 1) peer port 2 := (if_neg hs).trans (if_pos hl)

/-- A new HELLO ends an older handshake. -/
def shakeEnded (s : State) : State := match s.cruc.shake with | some h => shakeFail s h.carrier h.op h.peer h.port 4 | none => s

theorem shakeEnded_idle (h : s.cruc.shake = none) : shakeEnded s = s := by simp only [shakeEnded, h]
theorem shakeEnded_open (hh : s.cruc.shake = some h) : shakeEnded s = shakeFail s h.carrier h.op h.peer h.port 4 := by simp only [shakeEnded, hh]

/-- The challenge of a HELLO: the device's ephemeral key, its random bytes and its signature. -/
def helloChallenge (v : State) (l : List Byte) : List Byte :=
  let head := Config.ecPublic (v.draw 4).1 ++ (randomBytes (v.draw 4).2 32).1
  head ++ Config.ecdsaSign (l ++ head)

/-- The handshake that a HELLO opens, whose keys come from both sides' random bytes. -/
def helloShake (s v : State) (path : PathId) (peer port : Nat) (l : List Byte) : Handshake :=
  let keys := Config.hkdf384 ((l.drop 97).take 32 ++ (randomBytes (v.draw 4).2 32).1) (Config.ecdh (v.draw 4).1 (l.take 97))
    [0x44, 0x56, 0x39, 0x38, 0x34, 0x30, 0x20, 0x73, 0x65, 0x73, 0x73, 0x69, 0x6F, 0x6E] 64
  { op := beAt l 129 1, hello := l, challenge := helloChallenge v l, kHD := keys.take 32, kDH := keys.drop 32, at_ := s.tb.tick,
    carrier := path, peer := peer, port := port }

/-- The HELLO of a known operator opens a handshake and no session. -/
theorem hello_challenged (hs : ¬ helloShut s) (hl : l.length = 130) (h4 : l.getD 0 0 = 4) (hop : operatorKey s (beAt l 129 1) ≠ none) :
    hello s path peer port l = sendMessage { shakeEnded s with
      free := (shakeEnded s).free + 2
      cruc := { (shakeEnded s).cruc with shake := some (helloShake s (shakeEnded s) path peer port l), drbgRequests := (shakeEnded s).cruc.drbgRequests + 2 } }
        path (sessionMessage 0x02 0xFF 0 (helloChallenge (shakeEnded s) l)) := by
  have hform : ¬ (l.length ≠ 130 ∨ l.getD 0 0 ≠ 4 ∨ operatorKey s (beAt l 129 1) = none) := by
    rintro (hl' | h4' | hop')
    · exact hl' hl
    · exact h4' h4
    · exact hop hop'
  exact (if_neg hs).trans (if_neg hform)

/-! ### FINISH (R439) -/

/-- The session that a handshake opens. -/
def openedSession (s : State) (h : Handshake) : Session :=
  { op := h.op, kHD := h.kHD, kDH := h.kDH, rx := 0, tx := 1, opened := s.tb.tick, last := s.tb.tick
    carrier := h.carrier, peer := h.peer, port := h.port, lastReq := 0, lastResp := [] }

/-- An open session, and its ACCEPT on the way, before its event. -/
def sessionAccepted (s : State) (h : Handshake) (k : Nat) : State :=
  let s1 := (s.modCruc fun c => { c with sessions := listSet c.sessions k (some (openedSession s h)), shake := none }).modMgmt fun m =>
    { m with evtRead := listSet m.evtRead (2 + k) s.log.head }
  sendMessage s1 h.carrier (sessionMessage 0x04 k 1 (beBytes 1 k) ++ Config.hmac256 h.kDH (macInput k 1 (beBytes 1 k)))

theorem openSession_eq (s : State) (h : Handshake) (k : Nat) : openSession s h k = journalKind (raiseP (sessionAccepted s h k) 0x1006 k h.carrier) 4 h.carrier
    (leBytes 1 h.op ++ leBytes 3 0 ++ leBytes 4 h.peer ++ leBytes 2 h.port) 0 := rfl

theorem sessionAccepted_cruc (s : State) (h : Handshake) (k : Nat) : (sessionAccepted s h k).cruc =
    { s.cruc with sessions := listSet s.cruc.sessions k (some (openedSession s h)), shake := none } := by
  rw [sessionAccepted, sendMessage_cruc]
  rfl

theorem finish_idle (hh : s.cruc.shake = none) : finish s path l = s := by simp only [finish, hh]

section
variable (hh : s.cruc.shake = some h)
include hh

theorem finish_otherPath (hp : h.carrier ≠ path) : finish s path l = s := by
  simp only [finish, hh]
  exact if_pos hp

variable (hp : h.carrier = path)
include hp

theorem finish_late (ht : h.at_ + 400000000 < s.tb.tick) : finish s path l = shakeFail s path h.op h.peer h.port 4 := by
  simp only [finish, hh]
  exact (if_neg (not_not.2 hp)).trans (if_pos ht)

variable (ht : s.tb.tick ≤ h.at_ + 400000000)
include ht

theorem finish_noPlace (hn : s.cruc.sessions.findIdx? Option.isNone = none ∨ operatorKey s h.op = none) :
    finish s path l = shakeFail s path h.op h.peer h.port 1 := by
  simp only [finish, hh]
  refine (if_neg (not_not.2 hp)).trans ((if_neg (Nat.not_lt.2 ht)).trans ?_)
  obtain hk | hop := hn
  · rw [hk]
  · rw [hop]
    split <;> simp_all

variable {pub : List Byte} (hk : s.cruc.sessions.findIdx? Option.isNone = some k) (hop : operatorKey s h.op = some pub)
include hk hop

theorem finish_opens (hst : s.cruc.st = 0) (hl : l.length = 96) (hv : Config.ecdsaVerify pub l (h.hello ++ h.challenge) = true) :
    finish s path l = openSession s h k := by
  simp only [finish, hh, hk, hop]
  exact (if_neg (not_not.2 hp)).trans ((if_neg (Nat.not_lt.2 ht)).trans (if_pos ⟨hst, hl, hv⟩))

theorem finish_unsigned (hbad : s.cruc.st ≠ 0 ∨ l.length ≠ 96 ∨ Config.ecdsaVerify pub l (h.hello ++ h.challenge) = false) :
    finish s path l = shakeFail s path h.op h.peer h.port 3 := by
  have hnot : ¬ (s.cruc.st = 0 ∧ l.length = 96 ∧ Config.ecdsaVerify pub l (h.hello ++ h.challenge) = true) := by
    rintro ⟨hst, hl, hv⟩
    obtain hst' | hl' | hv' := hbad
    · exact hst' hst
    · exact hl' hl
    · simp [hv] at hv'
  simp only [finish, hh, hk, hop]
  exact (if_neg (not_not.2 hp)).trans ((if_neg (Nat.not_lt.2 ht)).trans (if_neg hnot))

end

theorem exec_hello (hc : carries s path = true) : exec (.sessionHello path peer port l) s = .next (hello s path peer port l) := if_pos hc
theorem exec_finish (hc : carries s path = true) : exec (.sessionFinish path l) s = .next (finish s path l) := if_pos hc
theorem exec_hello_notCarried (hc : carries s path = false) : exec (.sessionHello path peer port l) s = .next s := if_neg (by simp [hc])
theorem exec_finish_notCarried (hc : carries s path = false) : exec (.sessionFinish path l) s = .next s := if_neg (by simp [hc])

/-! ### A handshake that fails (R439, R440) -/

theorem execSessionStepTimeout_idle (hh : s.cruc.shake = none) : exec .sessionStepTimeout s = .next s := by
  show execSessionStepTimeout s = _
  simp only [execSessionStepTimeout, hh]

theorem execSessionStepTimeout_over (hh : s.cruc.shake = some h) (ht : h.at_ + 400000000 ≤ s.tb.tick) :
    exec .sessionStepTimeout s = .next (shakeFail s h.carrier h.op h.peer h.port 4) := by
  show execSessionStepTimeout s = _
  simp only [execSessionStepTimeout, hh]
  exact if_pos ht

theorem execSessionStepTimeout_early (hh : s.cruc.shake = some h) (ht : s.tb.tick < h.at_ + 400000000) : exec .sessionStepTimeout s = .next s := by
  show execSessionStepTimeout s = _
  simp only [execSessionStepTimeout, hh]
  exact if_neg (Nat.not_le.2 ht)

/-- The failures of the last minute, before this one. -/
def recentFails (s : State) : List Nat := s.cruc.shakeFails.filter fun t => s.tb.tick < t + minute

/-- A failed handshake is noted, and the eighth within a minute shuts HELLO out. -/
def shakeNoted (s : State) : State :=
  { s with cruc := { s.cruc with
      shake := none, shakeFails := (s.tb.tick :: recentFails s).take 8
      helloFrom := if 8 ≤ (s.tb.tick :: recentFails s).length then s.tb.tick + minute else s.cruc.helloFrom } }

theorem shakeFail_eq (s : State) (path : PathId) (op peer port cause : Nat) :
    shakeFail s path op peer port cause = sessionFail (shakeNoted s) path op peer port cause := rfl

theorem shakeNoted_shut (hf : 7 ≤ (recentFails s).length) : (shakeNoted s).cruc.helloFrom = s.tb.tick + minute :=
  if_pos (by rw [List.length_cons]; omega)
theorem shakeNoted_open (hf : (recentFails s).length < 7) : (shakeNoted s).cruc.helloFrom = s.cruc.helloFrom :=
  if_neg (by rw [List.length_cons]; omega)

/-! ### Messages of an open session (R440, R463, R464) -/

section
variable (hx : nth s.cruc.sessions k none = some x)
include hx

theorem acceptMessage_taken (hc : carries s x.carrier = true) (hst : s.cruc.st = 0) (hmac : mac = Config.hmac256 x.kHD (macInput k seq body))
    (hseq : x.rx < seq) (hlt : seq < 2 ^ 64) : acceptMessage s k seq body mac = some { x with rx := seq, last := s.tb.tick } := by
  simp only [acceptMessage, hx]
  exact if_pos ⟨hc, hst, hmac, hseq, hlt⟩

theorem acceptMessage_repeated (hseq : seq ≤ x.rx ∨ 2 ^ 64 ≤ seq) : acceptMessage s k seq body mac = none := by
  simp only [acceptMessage, hx]
  exact if_neg fun ⟨_, _, _, hlow, hhigh⟩ => by omega

theorem dropMessage_goodCode (hmac : mac = Config.hmac256 x.kHD (macInput k seq body)) : dropMessage s k seq body mac = s := by
  simp only [dropMessage, hx]
  exact if_neg fun ⟨_, _, hbad⟩ => hbad hmac

theorem acceptMessage_badCode (hmac : mac ≠ Config.hmac256 x.kHD (macInput k seq body)) : acceptMessage s k seq body mac = none := by
  simp only [acceptMessage, hx]
  exact if_neg fun ⟨_, _, hgood, _⟩ => hmac hgood

theorem dropMessage_badCode (hc : carries s x.carrier = true) (hst : s.cruc.st = 0) (hmac : mac ≠ Config.hmac256 x.kHD (macInput k seq body)) :
    dropMessage s k seq body mac = sessionFail s x.carrier x.op x.peer x.port 5 := by
  simp only [dropMessage, hx]
  exact if_pos ⟨hc, hst, hmac⟩

end

section
variable (hn : nth s.cruc.sessions k none = none)
include hn

theorem acceptMessage_noSession : acceptMessage s k seq body mac = none := by simp only [acceptMessage, hn]
theorem dropMessage_noSession : dropMessage s k seq body mac = s := by simp only [dropMessage, hn]

end

/-- A message that is not accepted is dropped, whatever it asks. -/
theorem message_dropped {k : Fin 4} (ha : acceptMessage s k seq body mac = none) :
    exec (.sessionRequest k seq body mac) s = .next (dropMessage s k seq body mac) ∧
    exec (.sessionResend k seq body mac) s = .next (dropMessage s k seq body mac) ∧
    (body = [] → exec (.sessionClose k seq mac) s = .next (dropMessage s k seq body mac)) := by
  refine ⟨?_, ?_, ?_⟩
  · show execSessionRequest k seq body mac s = _
    simp only [execSessionRequest, sessionRequest, ha]
  · show execSessionResend k seq body mac s = _
    simp only [execSessionResend, resend, ha]
  · rintro rfl
    show execSessionClose k seq mac s = _
    simp only [execSessionClose, closeMessage, ha]

section
variable {k : Fin 4} {y : Session} (ha : acceptMessage s k seq body mac = some y)
include ha

theorem execSessionRequest_taken : exec (.sessionRequest k seq body mac) s = .next (startBody (putSession s k y) (.eth k) (some ((k : Nat), seq)) body) := by
  show execSessionRequest k seq body mac s = _
  simp only [execSessionRequest, sessionRequest, ha]

theorem execSessionResend_stored (hr : y.lastResp ≠ []) (hq : beNat (body.take 8) = y.lastReq) :
    exec (.sessionResend k seq body mac) s = .next (sendMessage (putSession s k y) y.carrier y.lastResp) := by
  show execSessionResend k seq body mac s = _
  simp only [execSessionResend, resend, ha]
  exact congrArg _ (if_pos ⟨hr, hq⟩)

/-- Without the response asked for, an empty RESPONSE goes out under the next number. -/
theorem execSessionResend_empty (hr : y.lastResp = [] ∨ beNat (body.take 8) ≠ y.lastReq) : exec (.sessionResend k seq body mac) s =
    .next (putSession (sendMessage s y.carrier (sessionMessage 0x11 k (y.tx + 1) (beBytes 8 seq) ++
      Config.hmac256 y.kDH (macInput k (y.tx + 1) (beBytes 8 seq)))) k { y with tx := y.tx + 1 }) := by
  have hnot : ¬ (y.lastResp ≠ [] ∧ beNat (body.take 8) = y.lastReq) := fun ⟨hne, heq⟩ => hr.elim hne fun hq => hq heq
  show execSessionResend k seq body mac s = _
  simp only [execSessionResend, resend, ha]
  exact congrArg _ (if_neg hnot)

theorem execSessionClose_taken (hb : body = []) : exec (.sessionClose k seq mac) s = .next (closeSession s k 0) := by
  subst hb
  show execSessionClose k seq mac s = _
  simp only [execSessionClose, closeMessage, ha]

end

/-! ### The end of a session (R440) -/

theorem execSessionTimeout_noSession {k : Fin 4} (hn : nth s.cruc.sessions k none = none) : exec (.sessionTimeout k) s = .next s := by
  show execSessionTimeout k s = _
  simp only [execSessionTimeout, hn]

section
variable {k : Fin 4} (hx : nth s.cruc.sessions k none = some x)
include hx

theorem execSessionTimeout_over {c : Nat} (ho : sessionOver s x = some c) : exec (.sessionTimeout k) s = .next (closeSession s k c) := by
  show execSessionTimeout k s = _
  simp only [execSessionTimeout, hx, ho]

theorem execSessionTimeout_goesOn (ho : sessionOver s x = none) : exec (.sessionTimeout k) s = .next s := by
  show execSessionTimeout k s = _
  simp only [execSessionTimeout, hx, ho]

end

theorem sessionOver_numbers (hn : 2 ^ 32 ≤ x.rx ∨ 2 ^ 32 ≤ x.tx) : sessionOver s x = some 3 := if_pos hn

section
variable (hrx : x.rx < 2 ^ 32) (htx : x.tx < 2 ^ 32)
include hrx htx

theorem sessionOver_numbersLeft : sessionOver s x =
    if x.opened + 1440 * minute ≤ s.tb.tick then some 2 else if x.last + minute ≤ s.tb.tick then some 1 else none := if_neg (by omega)

theorem sessionOver_day (ht : x.opened + 1440 * minute ≤ s.tb.tick) : sessionOver s x = some 2 :=
  (sessionOver_numbersLeft hrx htx).trans (if_pos ht)

variable (ht : s.tb.tick < x.opened + 1440 * minute)
include ht

theorem sessionOver_silent (hl : x.last + minute ≤ s.tb.tick) : sessionOver s x = some 1 :=
  (sessionOver_numbersLeft hrx htx).trans ((if_neg (Nat.not_le.2 ht)).trans (if_pos hl))

theorem sessionOver_not (hl : s.tb.tick < x.last + minute) : sessionOver s x = none :=
  (sessionOver_numbersLeft hrx htx).trans ((if_neg (Nat.not_le.2 ht)).trans (if_neg (Nat.not_le.2 hl)))

end

theorem closeSession_open (hx : nth s.cruc.sessions k none = some x) (cause : Nat) : closeSession s k cause =
    journalKind (s.modCruc fun c => { c with sessions := listSet c.sessions k none }) 4 x.carrier
      (leBytes 1 x.op ++ leBytes 1 1 ++ leBytes 1 cause ++ leBytes 1 0 ++ leBytes 4 x.peer ++ leBytes 2 x.port) 0 := by
  simp only [closeSession, hx]

/-- Settles O58: handshakes first, then the messages of an open session and its end. What the random bytes are is open (assumption 7); the cause
codes and the single handshake are the model's choice (notes/assumptions/30.md), as are the refused HELLO that counts as no failure and the empty
RESPONSE (notes/assumptions/85.md). -/
theorem sessions : Obligations.Sessions := by
  unfold Obligations.Sessions
  refine ⟨⟨?_, ?_, ?_, ?_, ?_, ?_, ?_, ?_⟩, ?_, ?_, ?_, ?_, ?_, ?_⟩
  · intro s path peer port l hc hst hr hf hx
    have hopen : ¬ helloShut s := not_helloShut hst hr hf hx
    refine ⟨fun hl => ?_, fun hl h4 hop => ⟨shakeEnded s, _, helloChallenge (shakeEnded s) l, helloShake s (shakeEnded s) path peer port l,
      fun h => shakeEnded_idle h, fun g hg => shakeEnded_open hg, ?_, rfl, rfl, rfl, rfl, rfl, rfl, rfl, rfl⟩⟩
    · rw [exec_hello hc, hello_malformed hopen hl]
    · rw [exec_hello hc, hello_challenged hopen hl h4 hop]
  · intro s path peer port l hc hshut
    rw [exec_hello hc, hello_shut (by rwa [helloShut, sessions_full_iff])]
  · intro s path l pub h k hc hh hp ht hk hop
    refine ⟨fun hst hl hv => ⟨openedSession s h, sessionAccepted s h k, ?_, ?_, ?_, rfl, rfl, rfl, rfl, rfl, hp⟩, fun hbad => ?_⟩
    · rw [exec_finish hc, finish_opens hh hp ht hk hop hst hl hv, openSession_eq, hp]
    · rw [sessionAccepted_cruc]
      exact nth_listSet_same (List.findIdx?_eq_some_iff_findIdx_eq.1 hk).1 _ _
    · rw [sessionAccepted_cruc]
    · rw [exec_finish hc, finish_unsigned hh hp ht hk hop hbad]
  · intro s path l h hc hh
    rw [exec_finish hc]
    exact ⟨fun hp => congrArg _ (finish_otherPath hh hp), fun hp ht => congrArg _ (finish_late hh hp ht),
      fun hp ht hn => congrArg _ (finish_noPlace hh hp ht hn)⟩
  · exact fun s path peer port l hc => ⟨exec_hello_notCarried hc, exec_finish_notCarried hc⟩
  · intro s path l hh
    refine ⟨?_, execSessionStepTimeout_idle hh⟩
    cases hc : carries s path with
    | false => exact exec_finish_notCarried hc
    | true => rw [exec_finish hc, finish_idle hh]
  · exact fun s h hh => ⟨fun ht => execSessionStepTimeout_over hh ht, fun ht => execSessionStepTimeout_early hh ht⟩
  · exact fun s path op peer port cause => ⟨shakeNoted s, shakeFail_eq .., rfl, fun hf => shakeNoted_shut hf, fun hf => shakeNoted_open hf⟩
  · intro s k seq body mac x hx hc hst hmac hseq hlt
    have htaken := acceptMessage_taken hx hc hst hmac hseq hlt
    exact ⟨_, rfl, execSessionRequest_taken htaken, fun hr hq => execSessionResend_stored htaken hr hq,
      fun hr => ⟨_, _, rfl, rfl, execSessionResend_empty htaken hr⟩, fun hb => execSessionClose_taken htaken hb⟩
  · intro s k seq body mac x hx hc hst hseq hmac
    have hdropped := message_dropped (acceptMessage_repeated (body := body) (mac := mac) hx hseq)
    rwa [dropMessage_goodCode hx hmac] at hdropped
  · intro s k seq body mac x hx hc hst hmac
    have hdropped := message_dropped (acceptMessage_badCode hx hmac)
    rwa [dropMessage_badCode hx hc hst hmac] at hdropped
  · exact fun s k x hx => ⟨fun hn => execSessionTimeout_over hx (sessionOver_numbers hn),
      fun hrx htx ht => execSessionTimeout_over hx (sessionOver_day hrx htx ht),
      fun hrx htx ht hl => execSessionTimeout_over hx (sessionOver_silent hrx htx ht hl),
      fun hrx htx ht hl => execSessionTimeout_goesOn hx (sessionOver_not hrx htx ht hl)⟩
  · intro s k seq body mac hn
    obtain ⟨hrequest, hresend, -⟩ := message_dropped (body := body) (mac := mac) (seq := seq) (acceptMessage_noSession hn)
    obtain ⟨-, -, hclose⟩ := message_dropped (body := []) (mac := mac) (seq := seq) (acceptMessage_noSession hn)
    rw [dropMessage_noSession hn] at hrequest hresend hclose
    exact ⟨execSessionTimeout_noSession hn, hrequest, hresend, hclose rfl⟩
  · exact fun s k cause x hx => ⟨_, rfl, closeSession_open hx cause, fun hk => nth_listSet_same hk _ _⟩

end Sys2Proof.Machine
end

section
/-! SUPPORT. Requests, entries and exits, and the start, takeover and end of a Dusk (R478 to R484, R488 to R490). -/
namespace Sys2Proof.Machine

variable {s : State} {o : Nat} {path : PathId}

/-! ### SHOW (R478) -/

theorem requestShow_accepted (h : showFails s o = []) (auto : Bool) : requestShow s o auto path = acceptShow s o := by
  simp only [requestShow, h]

/-- Only the link fails: the host's request is refused, one of the device's own waits. -/
theorem requestShow_linkOnly (h : showFails s o = [5]) (auto : Bool) : requestShow s o auto path =
    if auto then s.modOut o fun x => { x with held := some s.tb.tick, heldAuto := true } else raiseP s 0x0004 (o + 5 * 2 ^ 8) path := by
  simp only [requestShow, h]
  rfl

theorem requestShow_refused {c : Nat} {l : List Nat} (h : showFails s o = c :: l) (hl : c :: l ≠ [5]) (auto : Bool) :
    requestShow s o auto path = raiseP (s.modOut o fun x => { x with held := none }) 0x0004 (o + c * 2 ^ 8) path := by
  unfold requestShow
  split
  next hnil => simp [h] at hnil
  next hfive => exact absurd (h.symm.trans hfive) hl
  next c' l' _ hcons =>
    obtain ⟨rfl, -⟩ := List.cons.inj (h.symm.trans hcons)
    rfl

/-- What a request that no condition refuses has found. -/
theorem showFails_none (h : showFails s o = []) : s.mode.dev = 1 ∧ (s.outAt o).mode = 1 ∧ (s.outAt o).trans = false ∧
    (nth s.guard.zones o {}).resident = true ∧ seqResident s.act o (seqProg s.act o) = true ∧ fsSize s.act o ≠ 0 ∧
    (isScan s.act o = false → (s.portAt o).link = 5 ∧ (s.portAt o).accepted = true) := by
  simp only [showFails, List.append_eq_nil_iff] at h
  obtain ⟨⟨⟨⟨⟨⟨hdev, hmode⟩, hstore⟩, hzone⟩, hseq⟩, -⟩, hlink⟩ := h
  have empty_of_ite {p : Prop} [Decidable p] {c : Nat} (hite : (if p then [c] else []) = []) : ¬ p := fun hp => by simp [hp] at hite
  have held_of_ite {p : Prop} [Decidable p] {c : Nat} (hite : (if p then [] else [c]) = []) : p := by
    by_contra hp
    simp [hp] at hite
  have hmode := empty_of_ite hmode
  have hstore := empty_of_ite hstore
  have hlink := empty_of_ite hlink
  refine ⟨not_not.1 (empty_of_ite hdev), ?_, ?_, held_of_ite hzone, (held_of_ite hseq).1, fun hsize => hstore (.inl hsize), fun hscan => ?_⟩
  · exact not_not.1 fun hm => hmode (.inl hm)
  · exact Bool.eq_false_iff.2 fun ht => hmode (.inr ht)
  · simpa [hscan] using hlink

/-! ### STANDBY, and what times out (R482 to R484) -/

theorem standbyOne_dusk (hd : s.mode.dev = 7) : standbyOne s o path = raiseP s 0x0004 (o + 1 * 2 ^ 8) path := if_pos hd

section
variable (hd : s.mode.dev ≠ 7)
include hd

theorem standbyOne_leaves (h : (s.outAt o).entry.isSome = true ∨ ((s.outAt o).trans = false ∧ (s.outAt o).mode ≠ 5)) :
    standbyOne s o path = startExit s o 0 := by
  simp only [standbyOne, if_neg hd]
  obtain hentry | ⟨htrans, hmode⟩ := h
  · exact if_pos hentry
  · simp [htrans, hmode]

theorem standbyOne_inTransition (he : (s.outAt o).entry = none) (ht : (s.outAt o).trans = true) :
    standbyOne s o path = raiseP s 0x0004 (o + 2 * 2 ^ 8) path := by
  simp [standbyOne, hd, he, ht, refuseMode]

theorem standbyOne_anneal (he : (s.outAt o).entry = none) (ht : (s.outAt o).trans = false) (hm : (s.outAt o).mode = 5) :
    standbyOne s o path = raiseP s 0x0004 (o + 7 * 2 ^ 8) path := by
  simp [standbyOne, hd, he, ht, hm, refuseMode]

end

section
variable {o : Fin 4} {t : Nat}

theorem execEntryTimeout_over (h : (s.outAt o).entry = some t) (ht : t + 800000000 ≤ s.tb.tick) :
    exec (.entryTimeout o) s = .next (startExit (raise s 0x0008 o) o 0) := by
  show execEntryTimeout o s = _
  simp only [execEntryTimeout, h]
  exact if_pos ht

theorem execEntryTimeout_early (h : (s.outAt o).entry = some t) (ht : s.tb.tick < t + 800000000) : exec (.entryTimeout o) s = .next s := by
  show execEntryTimeout o s = _
  simp only [execEntryTimeout, h]
  exact if_neg (Nat.not_le.2 ht)

theorem execEntryTimeout_none (h : (s.outAt o).entry = none) : exec (.entryTimeout o) s = .next s := by
  show execEntryTimeout o s = _
  simp only [execEntryTimeout, h]

theorem execHeldRequestTimeout_over (h : (s.outAt o).held = some t) (ht : t + 400000000 ≤ s.tb.tick) : exec (.heldRequestTimeout o) s =
    .next (raise (s.modOut o fun x => { x with held := none, heldAuto := false }) 0x0004 (o + 5 * 2 ^ 8)) := by
  show execHeldRequestTimeout o s = _
  simp only [execHeldRequestTimeout, h]
  exact if_pos ht

theorem execHeldRequestTimeout_early (h : (s.outAt o).held = some t) (ht : s.tb.tick < t + 400000000) :
    exec (.heldRequestTimeout o) s = .next s := by
  show execHeldRequestTimeout o s = _
  simp only [execHeldRequestTimeout, h]
  exact if_neg (Nat.not_le.2 ht)

theorem execHeldRequestTimeout_none (h : (s.outAt o).held = none) : exec (.heldRequestTimeout o) s = .next s := by
  show execHeldRequestTimeout o s = _
  simp only [execHeldRequestTimeout, h]

end

/-- An output that begins its exit is in transition, without an entry, and still shown in its mode. -/
theorem startExit_outAt {auto : Nat} (hlen : o < s.mode.outs.length) (he : (s.outAt o).exit = .none_) (hm : (s.outAt o).mode ≠ 1)
    (hr : (s.tgAt o).running = true) : (startExit s o auto).outAt o =
      { s.outAt o with trans := true, entry := none, exit := .rampNext, leftAuto := auto, held := none } := by
  have hframe := annFrame_stopComposition (exitBegun s o auto) o 12
  simp only [State.annFrame, Prod.mk.injEq] at hframe
  obtain ⟨-, houts, -⟩ := hframe
  have hkept : (interruptRun s o).mode.outs = s.mode.outs := (interruptRun_outputs s o).2
  rw [startExit_running he (.inl hm) hr]
  calc nth (stopComposition (exitBegun s o auto) o 12).mode.outs o {}
      = nth (exitBegun s o auto).mode.outs o {} := by rw [houts]
    _ = nth (upd s.mode.outs o fun x => { x with trans := true, entry := none, exit := .rampNext, leftAuto := auto, held := none }) o {} := by
      rw [← hkept]
      rfl
    _ = _ := by
      simp [nth, upd, hlen, State.outAt]

/-! ### RESTART (R479, R489) -/

theorem clsOf_modeCmd : clsOf 0x14 = some .wo := by decide

section
variable {v : Word} (hv : nbits v.toNat 31 28 = 4)
include hv

/-- RESTART needs the MODE role outside a failed Dawn. -/
theorem writeRefused_restart (hd : s.mode.dev ≠ 0) (hr : hasRole s path 9 = true) : writeRefused s path 0x14 v = none := by
  have hroles : writeRoles s 0x14 v.toNat = [9] := by
    simp [writeRoles, show mailboxAddr 0x14 = false from rfl, clsOf_modeCmd, woRoles, hd, hv]
  simp [writeRefused, hroles, hr, clsOf_modeCmd]

theorem pathWrite_restart (hs : serves s path = true) (hd : s.mode.dev ≠ 0) (hr : hasRole s path 9 = true) :
    pathWrite s path 0x14 [v] = (restart s, 0) := by
  rw [pathWrite_served hs, gatedWrite_accepted _ rfl (firstRefused_singleton (writeRefused_restart hv hd hr)), writeWords_singleton _ (by decide),
    busWrite_wo rfl clsOf_modeCmd]
  simp [writeWo, modeCmd, hv]

/-- In DUSK only SPI and BAR0 still reach RESTART. -/
theorem pathWrite_restart_dusk (hc : s.mode.core = true) (hd : s.mode.dev = 7) (hp : path = .spi ∨ path = .bar0) (hr : hasRole s path 9 = true) :
    pathWrite s path 0x14 [v] = (restart s, 0) := by
  have hserves : serves s path = false := by
    obtain rfl | rfl := hp <;> simp [serves, hd]
  have hwrite : servesWrite s path 0x14 v = true := by
    obtain rfl | rfl := hp <;> simp [servesWrite, hc, hd, hv]
  simp [pathWrite, hserves, hwrite, mayRestart, hr]

end

theorem exec_restart (h : pathWrite s path 0x14 [0x40000000] = (restart s, 0)) : exec (.modeCmdRestart path) s = .next (restart s) :=
  congrArg (fun r => Host.Outcome.next (Prod.fst r)) h

theorem restart_awake (hd : s.mode.dev ≠ 7) : restart s = startDusk s 1 true := if_pos hd

/-- In DUSK a Dawn follows, at once when the Dusk has ended. -/
theorem restart_dusk (hd : s.mode.dev = 7) :
    restart s = if s.mode.duskStep = 6 then warmReset s 3 else s.modMode fun x => { x with dawnFollows := true } := if_neg (not_not.2 hd)

/-! ### Dusk (R488 to R490) -/

theorem startDusk_runs (hd : s.mode.dev = 7) (c : Nat) (d : Bool) : startDusk s c d = s := if_pos hd

/-- A supply failure takes over, unless Dusk has ended or is one of a supply failure already. -/
theorem execPwrfailNFall_takesOver (h : s.mode.dev ≠ 7 ∨ (s.mode.duskStep ≠ 6 ∧ s.mode.duskCause ≠ 2)) :
    exec .pwrfailNFall s = .next (failDusk (raise (s.modMode fun x => { x with pwrfail := true }) 0x0007 0)) := by
  refine if_neg ?_
  rintro ⟨hdev, hstep⟩
  obtain hdev' | ⟨hstep', hcause'⟩ := h
  · exact hdev' hdev
  · exact hstep.elim hstep' hcause'

theorem execPwrfailNFall_noted (hd : s.mode.dev = 7) (h : s.mode.duskStep = 6 ∨ s.mode.duskCause = 2) :
    exec .pwrfailNFall s = .next (raise (s.modMode fun x => { x with pwrfail := true }) 0x0007 0) := if_pos ⟨hd, h⟩

theorem execDuskFlashTimeout_over (hd : s.mode.dev = 7) (hs : s.mode.duskStep = 4) (hf : s.therm.flashOpen = false)
    (ht : s.mode.duskAt + 4000000000 ≤ s.tb.tick) : exec .duskFlashTimeout s = .next (s.modMode fun x => { x with duskStep := 5 }) :=
  if_pos ⟨hd, hs, by simp [hf], ht⟩

theorem execDuskFlashTimeout_waits (h : s.mode.dev ≠ 7 ∨ s.mode.duskStep ≠ 4 ∨ s.therm.flashOpen = true ∨ s.tb.tick < s.mode.duskAt + 4000000000) :
    exec .duskFlashTimeout s = .next s := by
  refine if_neg ?_
  rintro ⟨hdev, hstep, hflash, htime⟩
  obtain hdev' | hstep' | hflash' | htime' := h
  · exact hdev' hdev
  · exact hstep' hstep
  · simp [hflash'] at hflash
  · omega

theorem execDuskDone_waits (h : s.mode.dev ≠ 7 ∨ s.mode.duskStep ≠ 5 ∨ s.hbm.training = true) : exec .duskDone s = .next s := by
  refine if_neg ?_
  rintro ⟨hdev, hstep, htrain⟩
  obtain hdev' | hstep' | htrain' := h
  · exact hdev' hdev
  · exact hstep' hstep
  · exact htrain htrain'

/-- Settles O60: requests, entries and exits first, then Dusk. That RESTART in an ended Dusk starts the Dawn at once, and that PWRFAIL_N takes over a
running Dusk, are the model's choice (notes/assumptions/91.md). -/
theorem modesAndDusk : Obligations.ModesAndDusk := by
  unfold Obligations.ModesAndDusk
  refine ⟨⟨?_, ?_, ?_, ?_, ?_, ?_, ?_, ?_⟩, ?_, ?_, ?_, ?_, ?_, ?_, ?_, ?_, ?_, ?_, ?_⟩
  · exact fun s path outs hs => ⟨fun hr => ⟨congrArg _ (withRole_held 0x14 (fun s => modeShow s outs path) hs hr),
        congrArg _ (withRole_held 0x14 (fun s => modeStandby s outs path) hs hr)⟩,
      fun hr => ⟨congrArg _ (withRole_lacked _ _ hs hr), congrArg _ (withRole_lacked _ _ hs hr)⟩⟩
  · exact fun s o path => ⟨fun h auto => requestShow_accepted h auto, fun h => ⟨requestShow_linkOnly h false, requestShow_linkOnly h true⟩,
      fun c l auto h hl => requestShow_refused h hl auto, standbyOne_dusk, fun hd => ⟨standbyOne_leaves hd, standbyOne_inTransition hd, standbyOne_anneal hd⟩⟩
  · exact fun s o h => showFails_none h
  · exact fun s o t h => ⟨fun ht => execEntryTimeout_over h ht, fun ht => execEntryTimeout_early h ht⟩
  · exact fun s o h => execEntryTimeout_none h
  · exact fun s o t h => ⟨fun ht => execHeldRequestTimeout_over h ht, fun ht => execHeldRequestTimeout_early h ht⟩
  · exact fun s o h => execHeldRequestTimeout_none h
  · intro s o auto hlen he hm hr _
    rw [startExit_outAt hlen he hm hr]
    exact ⟨rfl, rfl, rfl, rfl⟩
  · exact fun s path hs hr => ⟨congrArg _ (withRole_held 0x14 (fun s => startDusk s 0 false) hs hr),
      fun hd hd0 => (exec_restart (pathWrite_restart (by decide) hs hd0 hr)).trans (congrArg _ (restart_awake hd))⟩
  · exact fun s path hs hr => congrArg _ (withRole_lacked _ _ hs hr)
  · exact fun s c d hd => startDusk_runs hd c d
  · exact fun s c d hd => ⟨_, _, rfl, rfl, if_neg hd⟩
  · exact fun s h => execPwrfailNFall_takesOver h
  · exact fun s hd h => execPwrfailNFall_noted hd h
  · exact fun s hd hs hf ht => execDuskFlashTimeout_over hd hs hf ht
  · exact fun s h => execDuskFlashTimeout_waits h
  · intro s hd hs ht
    obtain ⟨x, hx, hst, hmem, hsr⟩ := duskRefresh_eq s
    refine ⟨duskRefresh s, duskEnded s, ?_, ?_, ?_, ?_, rfl, execDuskDone_ended hd hs ht⟩
    · rw [hx]
    · rw [hx]; exact hst
    · rw [hx]; exact hmem
    · rw [hx]; exact hsr
  · exact fun s h => execDuskDone_waits h
  · exact fun s path hc hd hp hr => (exec_restart (pathWrite_restart_dusk (by decide) hc hd hp hr)).trans (congrArg _ (restart_dusk hd))

end Sys2Proof.Machine
end
